-- ==== Sys2Proof/Word.lean ====
section
/-! DEFINITION. The word types of the Skokin (00 R8): byte, 32-bit word, 64-bit register. -/

namespace Sys2Proof

/-- A byte. -/
abbrev Byte := BitVec 8
/-- A scratchpad word (R8). -/
abbrev W32 := BitVec 32
/-- A register, a tick, an address in a 64-bit field. -/
abbrev W64 := BitVec 64

/-- NONE of 10 R424: all ones. -/
def none64 : W64 := 0xFFFF_FFFF_FFFF_FFFF#64

end Sys2Proof
end

