-- ==== Sys2Proof/Config.lean ====
section
/-! DEFINITION. What one implementation fixes: the K4 configuration's sizes (Table 1.3, Table 18.1)
and the free values, constants without a body (assumption log 2). -/

namespace Sys2Proof.Config

/-- Free values (log 2): the k-th draw. Nothing constrains them. -/
opaque freeByte : Nat → Byte
/-- A free bit, for a poison bit that the spec leaves open. -/
opaque freeBit : Nat → Bool
/-- A free 64-bit word, for a register value or a count that the spec leaves open. -/
opaque freeWord : Nat → W64

/-- SPAD_SIZE.bytes (Table 18.1). -/
def spadSize : Nat := 0x2000_0000
/-- Bytes of signal-box memory (R30). -/
def sbSize : Nat := 0x8_0000
def districts : Nat := 128
def banksPerDistrict : Nat := 64
/-- VCs, platforms, DPUs per platform, pipes per VC, planes (Table 18.1). -/
def vcDesign : Nat := 2048
def platDesign : Nat := 128
def dpuPerPlat : Nat := 8
def sfpPerVc : Nat := 8
def planesDesign : Nat := 8
def windows : Nat := 32
def amaxIds : Nat := 1024
def amaxEntries : Nat := 16
def traceRecs : Nat := 4096
def queueRoom : Nat := 8
def inFlightMax : Nat := 4
def faultLogMax : Nat := 64
def dmaTokens : Nat := 64

/-- SKV_ID, SKV_PARAM2 and SPAD_SIZE as read (text after Table 18.1). -/
def skvId : W64 := 0x4744_2048_0100_0100#64
def skvParam2 : W64 := 0x8010_FC20_0100_8000#64
def spadSizeReg : W64 := 0x2000_8000_2000_0000#64
/-- SKV_ID.part, compared with the image's part field (R552). -/
def part : Nat := 0x2048

/-- Base of the block registers (R620). -/
def regBase : Nat := 0x7F00_0000_0000
/-- Spans of Table 2.5 and Table 9.1. -/
def pkgBase : Nat := 0x1000_0000_0000
def pkgEnd : Nat := 0x1100_0000_0000
def remoteBase : Nat := 0x3000_0000_0000
def remoteEnd : Nat := 0x4000_0000_0000
def hostBase : Nat := 0x4000_0000_0000
def hostEnd : Nat := 0x5000_0000_0000

end Sys2Proof.Config
end

