-- ==== Sys2Proof/Syntax.lean ====
section
/-! DEFINITION. The commands of the block: one constructor per row of spec/opcode_table.json, in the table's order,
with the operands each row's message, event or instruction word carries. -/

namespace Sys2Proof

/-- A 256-bit instruction word by its fields (02 Table 2.2); `res0` is [63:58], `res1` [95:83], `res2` [255:232]. -/
structure InsWord where
  opc : BitVec 8
  fn : BitVec 8
  dst : BitVec 6
  sa : BitVec 6
  sb : BitVec 6
  sc : BitVec 6
  dfmt : BitVec 4
  sfmt : BitVec 4
  rnd : BitVec 3
  sat : Bool
  ftz : Bool
  pred : BitVec 4
  ovl : Bool
  res0 : BitVec 6
  xs : BitVec 8
  ys : BitVec 8
  commit : Bool
  poisonOk : Bool
  tmark : Bool
  res1 : BitVec 13
  imm32 : BitVec 32
  aux64 : BitVec 64
  start40 : BitVec 40
  res2 : BitVec 24
  deriving DecidableEq, Repr, Inhabited

/-- Who makes a register access (18 R623). -/
inductive Party where
  | job
  | kpc
  deriving DecidableEq, Repr

/-- A job manifest (15 Table 15.8); `res39` is byte 39 and `resTail` bytes 80 to 127. -/
structure Manifest where
  seed : W64
  arg : W64
  distHash : W32
  imgLen : W32
  entry : W32
  spadTop : W32
  yardNeed : W32
  vcs : BitVec 16
  plats : Byte
  res39 : Byte
  ports : W64
  groups : BitVec 256
  resTail : BitVec 384
  deriving DecidableEq, Repr, Inhabited

/-- A remote write's header (10 Table 10.5); `resHi` is [127:120], `resLo` [61:48]. -/
structure RwHdr where
  resHi : BitVec 8
  stamp : BitVec 40
  sender : BitVec 12
  psn : Bool
  lenM1 : BitVec 5
  resLo : BitVec 14
  addr : BitVec 48
  deriving DecidableEq, Repr, Inhabited

/-- A chunk's header (11 Table 11.3); `res` is [147:32]. -/
structure ChunkHdr where
  chunk : BitVec 20
  slot : BitVec 8
  mlo : BitVec 4
  lvl : BitVec 3
  psn : Bool
  wfmt : BitVec 4
  coll : BitVec 16
  sender : BitVec 12
  stamp : BitVec 40
  res : BitVec 116
  crc : W32
  deriving DecidableEq, Repr, Inhabited

/-- A KNI event's body (17 Table 17.8); `res` is [105:32]. -/
structure EventBody where
  counter : BitVec 4
  coll : BitVec 16
  refused : Bool
  taint : Bool
  res : BitVec 74
  inc : W32
  deriving DecidableEq, Repr, Inhabited

/-- A memory or host response's first 8 bytes (17 Table 17.8); `resHi` is [63:62], `resLo` [52:0]. -/
structure MrespHdr where
  resHi : BitVec 2
  token : BitVec 6
  psn : Bool
  err : Bool
  ack : Bool
  resLo : BitVec 53
  deriving DecidableEq, Repr, Inhabited

/-- An error in one 64-bit ECC word of a line (09 R385). `late`: it is not there yet, and reaches the word between the check pass
and the data pass of an instruction that reads it (14 R525). -/
structure EccFind where
  word : BitVec 4
  uncorrectable : Bool
  late : Bool
  deriving DecidableEq, Repr

/-- A used and an available count, the ratio of which is an activity (17 Table 17.5). -/
structure Ratio where
  used : Nat
  avail : Nat
  deriving DecidableEq, Repr

/-- The activities over one governor interval (17 Table 17.5). -/
structure Activity where
  lanes : Ratio
  pipes : Ratio
  regs : Ratio
  banks : Ratio
  ports : Ratio
  deriving DecidableEq, Repr

/-- One monitor sample (16 Table 16.2): unit kind, physical index, value x. -/
structure Sample where
  kind : BitVec 3
  index : BitVec 15
  x : W32
  deriving DecidableEq, Repr

/-- The arguments of an IMAGE_DATA message: the offset of its bytes, and the bits that it does not use (17 R618). -/
structure ImageArgs where
  offset : W64
  junk : BitVec 56
  deriving DecidableEq, Repr

/-- The commands. Rows that name an instruction take its word `w` at the head of issue; `junk` holds the bits of a
command word that the command does not use (17 R618); a port is a number of the P numbering (Table 14.3). -/
inductive Instr where
  | nop (w : InsWord)
  | tfence (w : InsWord)
  | ifence (w : InsWord)
  | sAlu (w : InsWord)
  | sAlui (w : InsWord)
  | sDiv (w : InsWord)
  | sLd (w : InsWord)
  | spld (w : InsWord)
  | sSt (w : InsWord)
  | sBr (w : InsWord)
  | sJmp (w : InsWord)
  | dld (w : InsWord)
  | dsto (w : InsWord)
  | dsetf (w : InsWord)
  | dgetf (w : InsWord)
  | sPset (w : InsWord)
  | now (w : InsWord)
  | getep (w : InsWord)
  | setep (w : InsWord)
  | sRegRreg (w : InsWord)
  | sRegWreg (w : InsWord)
  | sStep (w : InsWord)
  | halt (w : InsWord)
  | tensorQueueRoom
  | binary (w : InsWord)
  | unary (w : InsWord)
  | ternary (w : InsWord)
  | compareAndSelect (w : InsWord)
  | specialFunctions (w : InsWord)
  | tCvt (w : InsWord)
  | tRed (w : InsWord)
  | tNorm (w : InsWord)
  | topk (w : InsWord)
  | hist (w : InsWord)
  | dispatch (w : InsWord)
  | smax (w : InsWord)
  | lse (w : InsWord)
  | tDot (w : InsWord)
  | stream (w : InsWord)
  | merge (w : InsWord)
  | tCopy (w : InsWord)
  | tGath (w : InsWord)
  | scatter (w : InsWord)
  | scatterAdd (w : InsWord)
  | tXfer (w : InsWord)
  | offl (w : InsWord)
  | reld (w : InsWord)
  | winOpen (w : InsWord)
  | winClose (w : InsWord)
  | winExpect (w : InsWord)
  | waitcl (w : InsWord)
  | claim (w : InsWord)
  | contrib (w : InsWord)
  | collect (w : InsWord)
  | release (w : InsWord)
  | fwd (w : InsWord)
  | post (w : InsWord)
  | triggerHandover
  | trigWait (w : InsWord)
  | tickBarrier (w : InsWord)
  | windowCheck (w : InsWord)
  | tMark (w : InsWord)
  | powerDown (w : InsWord)
  | powerUp (w : InsWord)
  | zero (w : InsWord)
  | record (w : InsWord)
  | check (w : InsWord)
  | instructionStart
  | presenceGraceExpiry
  | tensorInstructionComplete
  | waittTickReached
  | load (m : Manifest) (junk : BitVec 56)
  | data (offset : W64) (bytes : List Byte)
  | launch (tick : W64) (junk : BitVec 56)
  | launchTick
  | kill (preserve : Bool) (junk : BitVec 56)
  | killDrainComplete
  | profile (n : BitVec 2) (junk : BitVec 56)
  | profileSwitchComplete
  | status (junk : BitVec 56)
  | rreg (off : BitVec 21) (junk : BitVec 56)
  | wreg (off : BitVec 21) (v : W64) (junk : BitVec 56)
  | imageData (args : ImageArgs) (bytes : List Byte)
  | jobCtlRelease (v : W64)
  | amaxCtlClear (by_ : Party) (v : W64)
  | amaxDataWrite (by_ : Party) (v : W64)
  | spadMdataRead
  | spadMaddrWrite (v : W64)
  | wearDataRead
  | traceRec0Read (by_ : Party)
  | cntCtlSnap (by_ : Party) (v : W64)
  | chipIdWrite (v : W64)
  | pwrCtlWrite (v : W64)
  | signalBoxMemoryAccess (off : BitVec 21) (v : Option W64)
  | readToClear (by_ : Party) (off : BitVec 21)
  | registerWrite (by_ : Party) (off : BitVec 21) (v : W64)
  | cap (port : Fin 35) (word : W64)
  | confirm (port : Fin 35) (word : W64)
  | negotiationAttemptTimeout (port : Fin 35)
  | credit (port : Fin 35) (word : W64)
  | accTile (port : Fin 35) (hdr : W64) (data : List W32)
  | rwrite (port : Fin 35) (hdr : RwHdr) (words : List W32)
  | answer (port : Fin 35) (word : W64)
  | chunk (port : Fin 35) (hdr : ChunkHdr) (payload : List Byte)
  | chunkHoldRelease (port : Fin 35)
  | event (port : Fin 35) (b : EventBody)
  | mresp (port : Fin 35) (hdr : MrespHdr) (line : List Byte)
  | tick (port : Fin 35) (t : W64)
  | linkError (port : Fin 35) (word : W64)
  | messageDrop (port : Fin 35) (link : W64) (body : List Byte)
  | reset
  | resetRelease
  | pllLock
  | pllLossOfLock
  | configurationLoadTimeout
  | memorySelfTest (failed : List Nat)
  | latticeSelfTest (wrong : List (Nat × W32))
  | timebaseLockTimeout
  | ptbPulse
  | holdover
  | thermWarnN (level : Bool)
  | thermTripN (level : Bool)
  | governorInterval (a : Activity) (temps : List (Nat × BitVec 12))
  | monitorWindow (samples : List Sample)
  | patrol (line : BitVec 22) (found : List EccFind) (copies : BitVec 3)
  | eccWriteBack (line : BitVec 22)
  | scrubComplete
  | substitutionPassEnd
  | groupSafePoint (g : BitVec 8)
  | groupRampDone (g : BitVec 8)
  | groupZeroingDone (g : BitVec 8)
  | windowCloseTick (win : BitVec 5)
  | drainEnd (win : BitVec 5)
  | stallTimeout
  | transferTimeout
  | triggerAcceptanceTimeout
  | waitTimeout
  | claimTimeout
  | frameHoldTimeout
  | chunkWaitTimeout
  | jobWatchdog
  | traceEntryTimeout
  | profileSelSampling (pins : BitVec 2)
  deriving DecidableEq, Repr

end Sys2Proof
end

