-- ==== Sys2Proof/Decode.lean ====
section
/-! DEFINITION. The fields of a 256-bit instruction word (02 Table 2.2), the row each word belongs to, and the host's
`decodeTableWord`: the opcode table gives no row any bits, so no word of it spells a command. -/

namespace Sys2Proof

/-- The fields of the word `b` (R4: bit 0 is the least significant). -/
def InsWord.ofBits (b : BitVec 256) : InsWord where
  opc := b.extractLsb' 0 8
  fn := b.extractLsb' 8 8
  dst := b.extractLsb' 16 6
  sa := b.extractLsb' 22 6
  sb := b.extractLsb' 28 6
  sc := b.extractLsb' 34 6
  dfmt := b.extractLsb' 40 4
  sfmt := b.extractLsb' 44 4
  rnd := b.extractLsb' 48 3
  sat := b.getLsbD 51
  ftz := b.getLsbD 52
  pred := b.extractLsb' 53 4
  ovl := b.getLsbD 57
  res0 := b.extractLsb' 58 6
  xs := b.extractLsb' 64 8
  ys := b.extractLsb' 72 8
  commit := b.getLsbD 80
  poisonOk := b.getLsbD 81
  tmark := b.getLsbD 82
  res1 := b.extractLsb' 83 13
  imm32 := b.extractLsb' 96 32
  aux64 := b.extractLsb' 128 64
  start40 := b.extractLsb' 192 40
  res2 := b.extractLsb' 232 24

/-- The word that the fields make: the encoder of Table 2.2. -/
def InsWord.toBits (w : InsWord) : BitVec 256 :=
  w.res2 ++ w.start40 ++ w.aux64 ++ w.imm32 ++ w.res1 ++ BitVec.ofBool w.tmark ++ BitVec.ofBool w.poisonOk
    ++ BitVec.ofBool w.commit ++ w.ys ++ w.xs ++ w.res0 ++ BitVec.ofBool w.ovl ++ w.pred ++ BitVec.ofBool w.ftz
    ++ BitVec.ofBool w.sat ++ w.rnd ++ w.sfmt ++ w.dfmt ++ w.sc ++ w.sb ++ w.sa ++ w.dst ++ w.fn ++ w.opc

/-- The low 64 bits of the word: info format I (14 Table 14.3). -/
def InsWord.low64 (w : InsWord) : W64 :=
  w.res0 ++ BitVec.ofBool w.ovl ++ w.pred ++ BitVec.ofBool w.ftz
    ++ BitVec.ofBool w.sat ++ w.rnd ++ w.sfmt ++ w.dfmt ++ w.sc ++ w.sb ++ w.sa ++ w.dst ++ w.fn ++ w.opc

/-- The command that presents the word at the head of issue: its row of the table by OPC and FN (Tables 2.3, 2.6, 4.1,
5.6, 7.2, 8.7, 9.6, 10.2, 10.3, 10.8, 10.10, 11.2, 11.5). A word that no row's functions list belongs to the first row of
its opcode, an unlisted opcode to NOP; that row raises 0x1001 (R45). -/
def InsWord.toInstr (w : InsWord) : Instr :=
  let f := w.fn.toNat
  let f7 := f % 128
  match w.opc.toNat with
  | 0x00 => if f = 1 then .tfence w else if f = 2 then .ifence w else .nop w
  | 0x01 => .sAlu w
  | 0x02 => .sAlui w
  | 0x03 => .sDiv w
  | 0x04 => if f = 0x10 then .spld w else .sLd w
  | 0x05 => .sSt w
  | 0x06 => .sBr w
  | 0x07 => .sJmp w
  | 0x08 => if f = 1 then .dsto w else if f = 2 then .dsetf w else if f = 3 then .dgetf w else .dld w
  | 0x09 => .sPset w
  | 0x0A => if f = 1 then .getep w else if f = 2 then .setep w else .now w
  | 0x0B => if f = 1 then .sRegWreg w else .sRegRreg w
  | 0x0C => .sStep w
  | 0x7F => .halt w
  | 0x10 => .binary w
  | 0x11 => .unary w
  | 0x12 => .ternary w
  | 0x13 => .compareAndSelect w
  | 0x18 => .specialFunctions w
  | 0x28 => .tCvt w
  | 0x20 => .tRed w
  | 0x21 => .tNorm w
  | 0x22 => if f7 = 1 then .hist w else if f7 = 2 then .dispatch w else .topk w
  | 0x23 => if f7 = 1 then .lse w else .smax w
  | 0x30 => .tDot w
  | 0x38 => if f % 4 = 1 then .merge w else .stream w
  | 0x40 => .tCopy w
  | 0x41 => .tGath w
  | 0x42 => if f7 = 1 then .scatterAdd w else .scatter w
  | 0x48 => .tXfer w
  | 0x49 => if f7 = 1 ∨ f7 = 3 then .reld w else .offl w
  | 0x50 => if f = 1 then .winClose w else if f = 2 then .winExpect w else if f = 3 then .waitcl w else .winOpen w
  | 0x58 => if f = 1 then .contrib w else if f = 2 then .collect w else if f = 3 then .release w
            else if f = 4 then .fwd w else .claim w
  | 0x59 => if f = 1 then .trigWait w else .post w
  | 0x60 => if f = 1 then .tickBarrier w else if f = 2 then .windowCheck w else .tMark w
  | 0x68 => if f = 1 then .powerUp w else if f = 2 then .zero w else .powerDown w
  | 0x70 => if f = 1 then .check w else .record w
  | _ => .nop w

/-- The word belongs to the row of the command `i`. -/
def InsWord.ofRow (w : InsWord) (i : Instr) : Bool := decide (w.toInstr = i)

/-- The opcode table gives no row bits: no word of the table's bits spells a command. -/
def decodeTableWord (_nbits _w : Nat) : Option Instr := none

end Sys2Proof
end

