-- ==== Sys2Proof/Machine/State.lean ====
section
/-! DEFINITION. The state of one Skokin: every register, memory, queue and mode the spec gives it, as plain data, and the
state right after reset release. INVENTORY.md lists each field with its rule and reset value. -/

namespace Sys2Proof.Machine

/-- Sparse data by key, keys rising; an absent key reads as its default. -/
abbrev AL (α : Type) := List (Nat × α)

/-- Byte memory in canonical form: addresses strictly rising, no entry equal to 0, what an unlisted byte reads (log 1). -/
abbrev Mem := List Host.Cell

/-- A tensor descriptor by its fields (02 Table 2.4). -/
structure Desc where
  resv : BitVec 6
  tensorId : BitVec 16
  writeDrop : Bool
  pitch3 : BitVec 32
  pitch2 : BitVec 32
  pitch1 : BitVec 32
  dim3 : BitVec 20
  dim2 : BitVec 20
  dim1 : BitVec 20
  dim0 : BitVec 20
  rank : BitVec 2
  layout : BitVec 3
  format : BitVec 4
  base : BitVec 48
  deriving DecidableEq, Repr, Inhabited

/-- The signal box (02 Table 2.1). `fmem` is what instruction fetch sees (R34); `ecc` lists words (byte offset of 8
bytes) that hold an ECC error, true = uncorrectable; `wait` is the instruction the signal box waits at, `waitReg` the
register write (offset, value) of an S.REG that waits under R153 and whose row names its register. -/
structure SigBox where
  s : AL W64
  d : AL (BitVec 256)
  p : AL W32
  pc : BitVec 19
  mem : Mem
  fmem : Mem
  ecc : List (Nat × Bool)
  uncorrected : W32
  corrected : W32
  wait : Option InsWord
  waitReg : Option (Nat × W64)
  epoch : W64
  step : W32
  seed : W64
  nextSeq : Nat
  deriving DecidableEq, Repr

/-- A tensor instruction as issued (R55, R72, R124, R286): word, PC, sequence number, copied descriptors (`aux`: those named in
AUX64, lowest bits first), copied chains, copied p1 to p15 (log 54), start tick, TT_EPOCH and STEP_CTR at issue, the tick from
which its class and its predecessors let it start, the windows found short when it became ready, the grace of that wait, and the
late limit as it stood at the start tick, and at a tick barrier's tick, where it has been written since (R528). -/
structure QEntry where
  w : InsWord
  pc : BitVec 19
  seq : Nat
  dst : Desc
  sa : Desc
  sb : Desc
  sc : Desc
  aux : List Desc
  chain0 : List W64
  chain1 : List W64
  preds : AL W32
  startAt : Option W64
  epoch : W64
  step : W32
  readyAt : Option W64
  short : List Nat
  grace : Nat
  lateLim : Option Nat
  barLim : Option Nat
  deriving DecidableEq, Repr

/-- A tile of a tensor by its row, column and indexes along dimensions 2 and 3 (08 R319). -/
structure Tile where
  tr : Nat
  tc : Nat
  i2 : Nat
  i3 : Nat
  deriving DecidableEq, Repr

/-- An accumulator tile held for its SMX group or for the SMX of its trow (R294, R303), with its copy of p1 to p15. -/
structure HeldTile where
  stream : Bool
  batch : Nat
  trow : Nat
  tcol : Nat
  psn : Bool
  preds : AL W32
  data : List W32
  deriving DecidableEq, Repr

/-- One row's running maximum, sum and rescale factor (R298). -/
structure RowEnt where
  m : W32
  l : W32
  a : W32
  deriving DecidableEq, Repr

/-- Progress of one stream of a T.XPR: the next tile number on each intake port, tiles run, the scale byte chosen at the
start, the amax so far, the poisoned destination tiles, the lines written with the bits of each written so far (R357), the
poisoned scale-plane lines, and the scale-plane lines with the bits of each written so far. -/
structure XprStream where
  next : List Nat
  run : Nat
  scale : Byte
  amax : Option W32
  bad : List Tile
  lines : AL Nat
  badScale : List Nat
  scales : AL Nat
  deriving DecidableEq, Repr

/-- Progress of a STREAM T.XPR: its streams, credits out and tiles still to arrive per intake port, held tiles, tiles that have come and
wait for the scrub (09 R402), trows whose SMX is done, the tick of the last acceptance and the stall limit of the wait that began there. -/
structure XprProg where
  st0 : XprStream
  st1 : XprStream
  granted : List Nat
  left : List Nat
  held : List HeldTile
  waiting : List HeldTile
  smxDone : List Nat
  lastTick : W64
  limit : Nat
  deriving DecidableEq, Repr

/-- Progress of a transfer that reads lines over memory or host ports: lines still to come, lines received, the lines
that came poisoned (R419, R448). -/
structure DmaProg where
  need : List Nat
  got : AL (List Byte)
  psn : List Nat
  deriving DecidableEq, Repr

/-- Progress of a COLLECT or FWD: chunks read so far and in all, the wait for the next one, the destination bits of the chunks
read that are not yet written, the poisoned chunks with the address of the first poisoned line of each root, the lines sent
(R471 to R476). -/
structure CollProg where
  next : Nat
  count : Nat
  since : W64
  limit : Nat
  vals : List (Nat × List Nat)
  bad : List (Nat × Nat)
  sent : Nat
  deriving DecidableEq, Repr

/-- What an instruction in flight still has to do. `scrub`: it has started, and its accesses wait for the scrub (09 R402).
`lastTrig`: the trigger with the done mark that a T.XPR posts once all that it sends has left (R285, R308). -/
inductive Prog where
  | idle
  | scrub
  | untilTick (t : W64)
  | waitcl (win : Nat)
  | trigWait (counter : Nat) (threshold : W32) (since : W64) (limit : Nat)
  | claim (since : W64) (limit : Nat)
  | spad (groups : List Nat)
  | xpr (x : XprProg)
  | coll (c : CollProg)
  | dma (d : DmaProg)
  | offl (crc : W32) (psn : Bool)
  | presence (ws : List (Nat × Nat)) (since : W64) (grace : Nat)
  | lastTrig (id : Byte)
  deriving DecidableEq, Repr

/-- A tensor instruction in flight: its entry, its start tick, the tick in which a chain last ran on one of its tiles, whether
it read a poisoned line with POISON_OK = 0 (R137), whether its trace record for poisoned lines read with POISON_OK = 1 is
written (R43), the amax values to append at completion (R136), and its progress. -/
structure Inflight where
  q : QEntry
  started : W64
  worked : Option W64
  readPoison : Bool
  noted : Bool
  amax : List (Nat × W32)
  prog : Prog
  deriving DecidableEq, Repr

/-- A message body as sent (17 Table 17.8). -/
inductive OutMsg where
  | cap (w : W64)
  | confirm (w : W64)
  | credit (n : Nat)
  | operand (psn : Bool) (otag : Byte) (line : W32) (data : List Byte)
  | rwrite (h : RwHdr) (words : List W32)
  | answer (w : W64)
  | chunk (h : ChunkHdr) (payload : List Byte)
  | trigger (id : Byte) (val : W64)
  | mread (token : BitVec 6) (addr : BitVec 48)
  | mwrite (token : BitVec 6) (psn : Bool) (addr : BitVec 48) (data : List Byte)
  | completion (status : W64) (vals : List W64)
  | imageReq (copyB : Bool)
  | linkError (reason : Byte)
  deriving DecidableEq, Repr

/-- A message sent: port, tick at which it left, body. -/
structure Sent where
  port : Nat
  tick : W64
  msg : OutMsg
  deriving DecidableEq, Repr

/-- What a line read with MREAD is for: the scratchpad, or the merge of a partial line (R635; `none` = a byte the
instruction does not write). -/
inductive ReadFor where
  | spad
  | merge (data : List (Option Byte)) (psn : Bool)
  deriving DecidableEq, Repr

/-- A message waiting at a port; `rd` is what an MREAD is for; `since` holds the tick at which it began to wait at the head
and that wait's limit (R528). -/
structure TxItem where
  msg : OutMsg
  owner : Option Nat
  rd : ReadFor
  since : Option (W64 × Nat)
  deriving DecidableEq, Repr

/-- What an outstanding request waits for (R413, R443); `xfer`: a T.XFER made the write (R440). -/
inductive ReqKind where
  | write (window : Nat) (chip : Nat) (stamp : BitVec 40) (xfer : Bool)
  | chunk (chip : Nat) (stamp : BitVec 40)
  | read (token : Nat) (addr : Nat) (what : ReadFor)
  | ack (token : Nat)
  deriving DecidableEq, Repr

/-- An outstanding request: the instruction that made it, whether that waits for it (an express NET store's does not, R309),
port, kind, the tick it left, its limit in ticks (R528). -/
structure Req where
  owner : Option Nat
  waits : Bool
  port : Nat
  kind : ReqKind
  since : W64
  limit : Nat
  deriving DecidableEq, Repr

/-- One port (15 Table 15.10, 17 Table 17.6, R619). `state` 0 DOWN, 1 NEGOTIATING, 2 UP, 3 FAILED; `confirmed`: the confirm
word of this attempt has been sent; `broken`: a link error has failed it (R602); `negAt`: the tick at which the
attempt began, `negFrom` the same on the clock of R567 (State.clock). -/
structure Port where
  state : BitVec 2
  attempts : BitVec 4
  cap : W64
  mode : W64
  txDepth : BitVec 16
  crcErr : BitVec 16
  txCred : Nat
  rxFree : Nat
  rxOut : Nat
  drops : Nat
  dropIv : Nat
  confirmed : Bool
  broken : Bool
  negAt : W64
  negFrom : Nat
  txq : List TxItem
  deriving DecidableEq, Repr

/-- One window (10 Table 10.12). -/
structure Window where
  sndHi : BitVec 12
  sndLo : BitVec 12
  drain : BitVec 24
  trace : Bool
  psnOk : Bool
  linesM1 : BitVec 20
  base : BitVec 29
  openTs : W64
  closeTs : W64
  expected : W64
  received : W64
  psnBytes : W32
  rejBytes : W32
  lastStamp : BitVec 40
  lastNack : BitVec 3
  nackCount : BitVec 16
  deriving DecidableEq, Repr

/-- A formed leaf or node of a chunk: it covers positions [mlo, mlo + span) (R467); its data lies in the leaf area mlo. -/
structure YNode where
  mlo : Nat
  span : Nat
  psn : Bool
  deriving DecidableEq, Repr

/-- A consumer read (R477). -/
structure ReadRec where
  chip : BitVec 12
  stamp : BitVec 40
  deriving DecidableEq, Repr

/-- One frame of a slot (R464, R478). `crc` is kept once the chunk is complete, at tick `doneAt`; `corrupt`: found corrupt;
a 17th read stands for all that are not recorded (R477). -/
structure Frame where
  index : Nat
  nodes : List YNode
  crc : Option W32
  doneAt : W64
  corrupt : Bool
  reads : List ReadRec
  deriving DecidableEq, Repr

/-- One yard slot (R458); `tainted`: a chunk of this collective was ever found corrupt (R480); `pend` holds the
info word of R464's pending 0x4003. -/
structure Slot where
  claimed : Bool
  coll : BitVec 16
  n : Nat
  table : List (BitVec 12)
  me : BitVec 4
  wfmt : BitVec 4
  op : BitVec 2
  nchM1 : BitVec 20
  frames : List Frame
  tainted : Bool
  pend : Option W64
  deriving DecidableEq, Repr

/-- A chunk held at its port, or one of a local CONTRIB or FWD, its owner (R464). -/
structure HeldChunk where
  owner : Option Nat
  port : Nat
  hdr : ChunkHdr
  payload : List Byte
  since : W64
  limit : Nat
  deriving DecidableEq, Repr

/-- An entry of the yard log (11 Table 11.8). -/
structure YLog where
  coll : BitVec 16
  chunk : BitVec 20
  chip : BitVec 12
  slot : BitVec 8
  stamp : BitVec 40
  deriving DecidableEq, Repr

/-- An event counter (TRIG_EVT). -/
structure Evt where
  coll : BitVec 16
  refused : Bool
  taint : Bool
  count : W32
  deriving DecidableEq, Repr

/-- The phase a power group runs (R395 to R397); a group `up` waits for its ramp, ramps, or is zeroed. -/
inductive PgPhase where
  | off
  | on
  | down
  | waitRamp
  | ramp
  | zeroing
  deriving DecidableEq, Repr

/-- A power group: its phase, and whether the opposite transition is held behind it (CYCLING, R397). -/
structure Group where
  phase : PgPhase
  held : Bool
  deriving DecidableEq, Repr

/-- One unit's record (16 Table 16.5, R579). -/
structure UnitRec where
  state : BitVec 2
  failed : Bool
  warned : Bool
  slot : BitVec 12
  borrower : Byte
  baseline : W32
  x : W32
  remH : W32
  deriving DecidableEq, Repr

/-- A profile record (15 Table 15.3); `resv` is bytes 56 to 127. -/
structure Profile where
  rootMhz : BitVec 16
  capW : BitVec 16
  yardMib : Byte
  rsv : Byte
  dfltRnd : Byte
  flags : Byte
  ports : W64
  floors : W64
  groups : BitVec 256
  resv : BitVec 576
  deriving DecidableEq, Repr

/-- A fault log entry (14 Table 14.8). -/
structure FLog where
  code : BitVec 16
  response : BitVec 2
  pc : BitVec 19
  tick : W64
  info : W64
  deriving DecidableEq, Repr

/-- The start-up phase (15 R545 to R549): reset held, step k running (k = 0 to 6), READY, or stopped by a fault. -/
inductive BootPhase where
  | inReset
  | step (k : Nat)
  | ready
  | stopped
  deriving DecidableEq, Repr

/-- Start-up and the loaded image (15). `img` holds the parts of the copy being received by offset; `sect` the lattice self-test
section; `chosen` is the profile chosen in step 1, shown once the step ends (18 R627); `imgOk` and `pinsOk` say which parts of
step 1 have ended; `relock` that the PLL relock of 4.2 GHz is awaited. `lockFrom` is the tick at which the timebase's lock
began, on the scale of the present tick, and `lockLim` its limit (R528, R568); `loadFrom` the time at which step 1 began
(`State.clock`). -/
structure Boot where
  phase : BootPhase
  copyB : Bool
  badA : Bool
  img : AL (List Byte)
  imgOk : Bool
  pins : BitVec 2
  pinsOk : Bool
  relock : Bool
  profiles : List Profile
  negTries : Nat
  negUs : Nat
  selSrc : Nat
  defProf : Nat
  chosen : Nat
  serial : W32
  distHash : W32
  sect : List Byte
  lockFrom : Int
  lockLim : Nat
  loadFrom : Nat
  deriving DecidableEq, Repr

/-- CFG_STAT and the active profile (15 Table 15.10); `switching` is the profile and the order of Table 15.6 that a switch runs. -/
structure Cfg where
  serial : W32
  distChanged : Bool
  step : BitVec 4
  pins : BitVec 2
  src : BitVec 2
  copy : Bool
  profile : BitVec 2
  active : Profile
  switching : Option (Nat × Nat)
  deriving DecidableEq, Repr

/-- Job state (02 Tables 2.7, 2.8). `state` is the code of Table 2.7; `image` counts the image bytes received; `kill` is a
KILL in progress (R536), with the sequence numbers of the instructions in flight that it abandoned (R517); `wdogDone`: the watchdog
of this launch has expired (R531). -/
structure Job where
  chipValid : Bool
  chipId : BitVec 12
  preserve : Bool
  exitCode : W32
  state : BitVec 4
  manifest : Manifest
  image : List (Nat × Nat)
  launch : W64
  kill : Option (List Nat)
  lateLimit : BitVec 24
  grace : BitVec 24
  lateMax : W32
  lateCount : W32
  wdog : BitVec 40
  wdogDone : Bool
  deriving DecidableEq, Repr

/-- Arithmetic state (03 Table 3.13): flag bit k of `flags` is bit k of ARITH_FLAGS. `vr` holds the vector registers v0 to
v63 of the VCs by 64 × VC + register (01 Table 1.3); no instruction names one. -/
structure Arith where
  margin : BitVec 2
  hist : AL (List W32)
  flags : BitVec 10
  fcMiss : W32
  appends : W32
  vr : AL (BitVec 1024)
  deriving DecidableEq, Repr

/-- Express state (07): chain table by 16 × chain + step, row-state file by row, poisoned entries by trow, registers,
and per intake port the tiles still credited to an abandoned T.XPR. -/
structure Xpr where
  chains : AL W64
  rows : AL RowEnt
  rowPsn : List Nat
  stall : BitVec 24
  hdrErr : W32
  tiles : W32
  hdr : W64
  discard : AL Nat
  deriving DecidableEq, Repr

/-- Scratchpad and junction (09). `poison` holds the three copies of the bit per line address, `decay` the ECC words
(byte address of 8 bytes) that hold an error, true = uncorrectable; `wb` the lines whose corrected data awaits its
write-back; `bad` the uncorrectable lines of this job per physical bank (R578); `spoil` the ECC words that an error reaches
between the check pass and the data pass of an instruction that reads them (R525). -/
structure Spad where
  mem : Mem
  poison : AL (BitVec 3)
  decay : List (Nat × Bool)
  spoil : List Nat
  wb : List Nat
  uncorrected : W32
  corrected : W32
  eccValid : Bool
  eccAddr : BitVec 48
  conflict : W32
  broadcast : W32
  planeMap : BitVec 9
  distTab : List (List Nat)
  distHash : W32
  groups : AL Group
  scrubRun : Bool
  scrubWm : Nat
  scrubOn : List Nat
  maddrPsn : Bool
  maddr : BitVec 48
  bad : AL (List Nat)
  deriving DecidableEq, Repr

/-- What waits for the scrub (R402): what arrived at a port and is to be stored: a remote write with its answer and its first byte,
or a chunk with the tick of its arrival (R496); and a patrol read with what ECC finds in its line. -/
inductive Parked where
  | write (port : Nat) (hdr : RwHdr) (words : List W32) (code at_ : Nat)
  | chunk (owner : Option Nat) (port : Nat) (hdr : ChunkHdr) (payload : List Byte) (since : W64)
  | patrol (line : Nat) (found : List EccFind) (copies : BitVec 3)
  deriving DecidableEq, Repr

/-- Transfer registers (10 Table 10.12) and GS_STAT, MOV_STAT (08 Table 8.10). -/
structure Xfer where
  nack1Limit : BitVec 16
  drain : BitVec 24
  nackHalt : Bool
  hostTicks : BitVec 20
  netTicks : BitVec 20
  memTicks : BitVec 20
  nacks : List (BitVec 12)
  nackLog : W64
  reldBad : W32
  writes : W32
  genFailed : W32
  genChecked : W32
  gfValid : Bool
  gfShard : BitVec 20
  gfPsn : Bool
  gfCrc : Bool
  gfGen : Bool
  nack1Iv : Nat
  nack1Cnt : Nat
  nack1Rec : Bool
  dropped : W32
  clamped : W32
  turntable : W32
  portLines : W32
  parked : List Parked
  deriving DecidableEq, Repr

/-- A trigger that waits for the trigger port (R486): owner (none for RELEASE), id, value, tick and limit of the hand-over. -/
structure TrigItem where
  owner : Option Nat
  id : Byte
  val : W64
  since : W64
  limit : Nat
  deriving DecidableEq, Repr

/-- Yard and trigger registers, slots, held chunks, the triggers that wait to be handed over (11), and the tiles whose triggers the NET
stores of the T.XPR in flight have posted (07 R308). -/
structure Yard where
  waitTicks : BitVec 24
  claimTicks : BitVec 24
  crcBad : BitVec 16
  refused : BitVec 16
  accepted : W32
  sel : Byte
  taintAny : Bool
  taintCount : BitVec 16
  taintColl : BitVec 16
  ovf : Bool
  log : List YLog
  events : W32
  posts : W32
  evts : AL Evt
  slots : AL Slot
  held : List HeldChunk
  trigs : List TrigItem
  netSent : Nat
  deriving DecidableEq, Repr

/-- A trace record waiting to enter the ring (R501, R502), the TCLK for which it has waited, and whether its payload is still open:
the place of a chunk that has arrived and is not judged yet (Table 12.1). -/
structure TRec where
  tick : W64
  type : BitVec 4
  payload : BitVec 60
  age : Nat
  unjudged : Bool
  deriving DecidableEq, Repr

/-- The timebase (12 R492 to R495, 15 R568). `acc` is the tick with its 24-bit fraction; `ann` the announced pulse tick and the
tick at which its message came; `lastPulse` the tick of the last valid pulse and own tick then; `holdLim` the pulse-loss limit
as it stood then (R528); `on`: the timebase runs, from start-up step 6 on (R493); `stood`: the time, in 2^-24 tick, that passed
while it stood. -/
structure Timebase where
  acc : BitVec 88
  inc : W32
  holdover : BitVec 24
  slew : BitVec 12
  stepLimit : BitVec 12
  offset : W32
  steps : BitVec 16
  lock : BitVec 2
  ann : Option (W64 × W64)
  lastPulse : Option (W64 × W64)
  good : Nat
  ahead : Bool
  holdLim : Nat
  on : Bool
  stood : Nat
  deriving DecidableEq, Repr

/-- The trace ring (12 Table 12.6). `ring` holds record n at index n mod 4,096; `pend` waits to enter; `loss` is the run of
drops under way: the tick of its first record and its length (R502). -/
structure Trace where
  enable : Bool
  mask : BitVec 14
  stop : Bool
  lo : W64
  hi : W64
  full : Bool
  wrapped : Bool
  wr : BitVec 12
  lost : W32
  written : W32
  ring : AL (BitVec 128)
  pend : List TRec
  loss : Option (W64 × Nat)
  deriving DecidableEq, Repr

/-- The counters of R506 and R507. -/
structure Counters where
  run : W64
  busyArray : W64
  busySfp : W64
  busyLattice : W64
  idleMatrix : W64
  idleNet : W64
  idleWindow : W64
  idleYard : W64
  idleMem : W64
  idleTime : W64
  idlePower : W64
  idleIssue : W64
  issued : W32
  completed : W32
  deriving DecidableEq, Repr

/-- A halt fault recorded and not yet final (R514): the sequence number below which instructions are earlier. -/
structure Halting where
  seq : Nat
  pc : BitVec 19
  code : BitVec 16
  deriving DecidableEq, Repr

/-- Fault and poison registers (14 Table 14.8). -/
structure Faults where
  valid : Bool
  pc : BitVec 19
  code : BitVec 16
  tick : W64
  info : W64
  seq : W32
  logged : W32
  suppressed : W32
  ovf : Bool
  log : List FLog
  okReads : W32
  marked : W32
  pfValid : Bool
  pfSource : BitVec 4
  pfAddr : BitVec 48
  halting : Option Halting
  deriving DecidableEq, Repr

/-- SVC_STAT (14 Table 14.8). -/
structure Svc where
  ready : Bool
  limp : Bool
  none_ : Bool
  vcs : BitVec 12
  platforms : BitVec 8
  planes : BitVec 4
  portOk : BitVec 8
  sbCore : Bool
  deriving DecidableEq, Repr

/-- Ageing (16). `stress` per district, `rho` per district as FP32. The snapshot of the running pass: `snap` the units it works
through, in order, with their failed marks, and `snapMarks` every unit marked at its start (R582). `wearOn`: step 2 has built
the wear record (R627). -/
structure Health where
  warnH : W32
  wearGen : W32
  pass : Bool
  snap : List (Nat × Bool)
  snapMarks : List Nat
  wearOn : Bool
  units : AL UnitRec
  stress : AL W64
  rho : AL W32
  wearAddr : BitVec 21
  deriving DecidableEq, Repr

/-- Power, thermal and clock registers (17 Table 17.6). `capNew` is a PWR_CTL write that waits for the interval's end,
`rampWait` the groups whose ramp this interval has refused (R611). -/
structure Power where
  capW : BitVec 9
  capNew : Option (BitVec 9)
  rampWait : List Nat
  estW : BitVec 10
  capEff : BitVec 9
  level : BitVec 5
  thrAclk : W32
  calm : Nat
  hardC : BitVec 8
  softC : BitVec 8
  trip : Bool
  warnPin : Bool
  warn : Bool
  hard : Bool
  district : BitVec 7
  tmax : BitVec 12
  temps : AL (BitVec 12)
  rootMhz : BitVec 16
  sclkRoot : Bool
  pllLock : Bool
  deriving DecidableEq, Repr

/-- A command of the command port that waits to be taken (18 R633), or a DATA message among them. -/
inductive KCmd where
  | load (m : Manifest) (junk : BitVec 56)
  | launch (t : W64) (junk : BitVec 56)
  | kill (preserve : Bool) (junk : BitVec 56)
  | profile (n : BitVec 2) (junk : BitVec 56)
  | status (junk : BitVec 56)
  | rreg (off : BitVec 21) (junk : BitVec 56)
  | wreg (off : BitVec 21) (v : W64) (junk : BitVec 56)
  | imageData (offset : W64) (bytes : List Byte) (junk : BitVec 56)
  | unknown (code : Byte)
  | data (offset : W64) (bytes : List Byte)
  deriving DecidableEq, Repr

/-- Command status (18 Table 18.3) and the commands not yet taken; `heldLoad` is a LOAD held under R587. -/
structure Cmd where
  lastFault : BitVec 16
  lastCode : Byte
  lastResult : BitVec 4
  refused : W32
  accepted : W32
  queue : List KCmd
  heldLoad : Option Manifest
  deriving DecidableEq, Repr

/-- The registers with a job and a management copy (18 R624). -/
structure Banked where
  amaxTid : BitVec 10
  amaxEntry : BitVec 4
  distWord : BitVec 2
  distRow : BitVec 8
  pgGroup : BitVec 8
  yardLog : BitVec 6
  traceIdx : BitVec 12
  faultLog : BitVec 6
  portSel : BitVec 6
  hlthKind : BitVec 3
  hlthIdx : BitVec 15
  tempDist : BitVec 7
  latch : W64
  deriving DecidableEq, Repr

/-- One Skokin. `pending`, `out` and `freeCtr` are the model's own: the waiting commands, the messages sent, and the
counter with which free values are drawn (logs 2, 11). -/
structure State where
  pending : List Instr
  out : List Sent
  freeCtr : Nat
  sb : SigBox
  tq : List QEntry
  fl : List Inflight
  reqs : List Req
  job : Job
  ar : Arith
  xp : Xpr
  sp : Spad
  xf : Xfer
  wins : AL Window
  yd : Yard
  tb : Timebase
  tr : Trace
  live : Counters
  snap : Counters
  ft : Faults
  svc : Svc
  boot : Boot
  cfg : Cfg
  ports : AL Port
  hl : Health
  pw : Power
  cmd : Cmd
  bankJ : Banked
  bankK : Banked
  deriving DecidableEq, Repr

/-- Why the model stops: only on a command that no sender can form (log 12). -/
inductive Fault where
  /-- An instruction row was given a word of another row. Raised by the instruction rows. Safe: no such command exists. -/
  | wordOfAnotherRow
  deriving DecidableEq, Repr

/-- A command the model gives no meaning. -/
inductive Refusal where
  /-- The row has no meaning yet. Raised by exec's arm. Safe. -/
  | notModelled (mnemonic : String)
  deriving DecidableEq, Repr

def Counters.zero : Counters := ⟨0, 0, 0, 0, 0, 0, 0, 0, 0, 0, 0, 0, 0, 0⟩
def Banked.zero : Banked := ⟨0, 0, 0, 0, 0, 0, 0, 0, 0, 0, 0, 0, 0⟩

/-- All fields zero: no profile is active before start-up step 1 (PROF_STAT's Reset column). -/
def Profile.zero : Profile := ⟨0, 0, 0, 0, 0, 0, 0, 0, 0, 0⟩
def Manifest.zero : Manifest := ⟨0, 0, 0, 0, 0, 0, 0, 0, 0, 0, 0, 0, 0⟩
def Window.init : Window := ⟨0, 0, 0, false, false, 0, 0, none64, none64, 0, 0, 0, 0, 0, 0, 0⟩
def Slot.free : Slot := ⟨false, 0, 0, [], 0, 0, 0, 0, [], false, none⟩
def Port.down : Port := ⟨0, 0, 0, 0, 0, 0, 0, 0, 0, 0, 0, false, false, 0, 0, []⟩
/-- Row state as INIT sets it: m = −∞, l = +0, a = 1.0 (R300). -/
def RowEnt.init : RowEnt := ⟨0xFF80_0000#32, 0, 0x3F80_0000#32⟩

def SigBox.reset : SigBox := ⟨[], [], [], 0, [], [], [], 0, 0, none, none, 0, 0, 0, 0⟩
def Job.reset : Job := ⟨false, 0, false, 0, 0, Manifest.zero, [], 0, none, 0, 1600, 0, 0, 0, false⟩
def Arith.reset : Arith := ⟨1, [], 0, 0, 0, []⟩
def Xpr.reset : Xpr := ⟨[], [], [], 400000, 0, 0, 0, []⟩
def Spad.reset : Spad :=
  ⟨[], [], [], [], [], 0, 0, false, 0, 0, 0, 0x0FF, [], 0, [], false, 32768, [], false, 0, []⟩
def Xfer.reset : Xfer :=
  ⟨64, 1600, false, 40000, 80000, 8000, [0, 0, 0, 0, 0], 0, 0, 0, 0, 0, false, 0, false, false, false, 0, 0, false, 0, 0, 0, 0, []⟩
def Yard.reset : Yard := ⟨80000, 20000, 0, 0, 0, 0, false, 0, 0, false, [], 0, 0, [], [], [], [], 0⟩
/-- TB_INC's Reset column says "Profile"; before step 1 it holds the nominal 1.0 (log 1). -/
def Timebase.reset : Timebase := ⟨0, 0x0100_0000, 4194304, 100, 64, 0, 0, 0, none, none, 0, false, 4194304, false, 0⟩
def Trace.reset : Trace := ⟨true, 0x3FFF, false, 0, none64, false, false, 0, 0, 0, [], [], none⟩
def Faults.reset : Faults := ⟨false, 0, 0, 0, 0, 0, 0, 0, false, [], 0, 0, false, 0, 0, none⟩
def Svc.reset : Svc := ⟨false, false, false, 2048, 128, 8, 0, false⟩
def Boot.reset : Boot :=
  ⟨.step 0, false, false, [], false, 0, false, false, [], 0, 0, 0, 0, 0, 0, 0, [], 0, 0, 0⟩
def Cfg.reset : Cfg := ⟨0, false, 0, 0, 0, false, 0, Profile.zero, none⟩
def Health.reset : Health := ⟨2000, 0, false, [], [], false, [], [], [], 0⟩
def Power.reset : Power := ⟨0, none, [], 0, 0, 16, 0, 0, 105, 95, false, false, false, false, 0, 0, [], 0, false, false⟩
def Cmd.reset : Cmd := ⟨0, 0, 0, 0, 0, [], none⟩

/-- The Skokin right after reset release, at the beginning of start-up step 0 (R545, R626). -/
def State.reset : State where
  pending := []
  out := []
  freeCtr := 0
  sb := SigBox.reset
  tq := []
  fl := []
  reqs := []
  job := Job.reset
  ar := Arith.reset
  xp := Xpr.reset
  sp := Spad.reset
  xf := Xfer.reset
  wins := []
  yd := Yard.reset
  tb := Timebase.reset
  tr := Trace.reset
  live := Counters.zero
  snap := Counters.zero
  ft := Faults.reset
  svc := Svc.reset
  boot := Boot.reset
  cfg := Cfg.reset
  ports := []
  hl := Health.reset
  pw := Power.reset
  cmd := Cmd.reset
  bankJ := Banked.zero
  bankK := Banked.zero

end Sys2Proof.Machine
end

