-- ==== Sys2Proof/Machine/Bits.lean ====
section
/-! DEFINITION. Sparse maps, byte memory in canonical form, byte order (00 R5), saturating counters and the two CRCs. -/

namespace Sys2Proof.Machine

/-- The entry of key `k`, if the map lists one. -/
def AL.get? {α : Type} : AL α → Nat → Option α
  | [], _ => none
  | (x, y) :: r, k => if x = k then some y else AL.get? r k

/-- The entry of key `k`, or the default. -/
def AL.getD {α : Type} (m : AL α) (k : Nat) (dflt : α) : α := (AL.get? m k).getD dflt

/-- Set the entry of key `k`. -/
def AL.put {α : Type} : AL α → Nat → α → AL α
  | [], k, v => [(k, v)]
  | (x, y) :: r, k, v => if k < x then (k, v) :: (x, y) :: r else if k = x then (k, v) :: r else (x, y) :: AL.put r k v

/-- Remove every entry of key `k`. -/
def AL.del {α : Type} (m : AL α) (k : Nat) : AL α := m.filter (fun p => p.1 ≠ k)

/-- The byte at address `a`; an unlisted byte reads 0. -/
def Mem.read : Mem → Nat → Byte
  | [], _ => 0
  | (x, y) :: r, a => if x = a then y else Mem.read r a

/-- Write one byte, keeping the canonical form. -/
def Mem.write : Mem → Nat → Byte → Mem
  | [], a, b => if b = 0 then [] else [(a, b)]
  | (x, y) :: r, a, b =>
    if a < x then (if b = 0 then (x, y) :: r else (a, b) :: (x, y) :: r)
    else if a = x then (if b = 0 then r else (a, b) :: r)
    else (x, y) :: Mem.write r a b

/-- The canonical form from address `lo` up: addresses strictly rising, no byte 0. -/
def Memory.wfFrom : Nat → Mem → Bool
  | _, [] => true
  | lo, (x, y) :: r => decide (lo ≤ x) && decide (y ≠ 0) && Memory.wfFrom (x + 1) r

/-- The canonical form of a memory. -/
def Memory.wf (m : Mem) : Bool := Memory.wfFrom 0 m

/-- Write the bytes from address `a` up. -/
def Mem.writeBytes : Mem → Nat → List Byte → Mem
  | m, _, [] => m
  | m, a, b :: bs => Mem.writeBytes (Mem.write m a b) (a + 1) bs

/-- `n` bytes from address `a` up. -/
def Mem.readBytes (m : Mem) (a n : Nat) : List Byte := (List.range n).map (fun i => Mem.read m (a + i))

/-- Every byte of [lo, hi) becomes 0. -/
def Mem.clear (m : Mem) (lo hi : Nat) : Mem := m.filter (fun c => decide (c.1 < lo ∨ hi ≤ c.1))

/-- A little-endian byte list as a number (R5). -/
def leNat : List Byte → Nat
  | [] => 0
  | b :: bs => b.toNat + 256 * leNat bs

/-- The `n` low bytes of a number, lowest first (R5). -/
def leBytes : Nat → Nat → List Byte
  | 0, _ => []
  | n + 1, v => BitVec.ofNat 8 v :: leBytes n (v / 256)

/-- A little-endian value of `n` bytes in memory. -/
def Mem.readLE (m : Mem) (a n : Nat) : Nat := leNat (Mem.readBytes m a n)

/-- Store a value of `n` bytes, little-endian. -/
def Mem.writeLE (m : Mem) (a n v : Nat) : Mem := Mem.writeBytes m a (leBytes n v)

/-- Bits [lo + w − 1 : lo] of a number. -/
def bitsOf (v lo w : Nat) : Nat := v / 2 ^ lo % 2 ^ w

/-- Bit `i` of a number. -/
def bitOf (v i : Nat) : Bool := v / 2 ^ i % 2 = 1

/-- Sign-extend the low `n` bits to an integer. -/
def sextNat (v n : Nat) : Int :=
  let u := v % 2 ^ n
  if n ≠ 0 ∧ 2 ^ (n - 1) ≤ u then (u : Int) - (2 : Int) ^ n else u

/-- The residue of an integer modulo 2^n, as a number. -/
def wrapInt (v : Int) (n : Nat) : Nat := (v % (2 : Int) ^ n).toNat

/-- Add to a counter that saturates at its maximum (R509). -/
def satAdd {n : Nat} (x : BitVec n) (k : Nat) : BitVec n := BitVec.ofNat n (min (x.toNat + k) (2 ^ n - 1))

/-- Ceiling of a quotient. -/
def cdiv (a b : Nat) : Nat := (a + b - 1) / b

/-- One bit step of a reflected CRC with polynomial `poly`. -/
def crcBit (poly c : Nat) : Nat := if c % 2 = 1 then (c / 2) ^^^ poly else c / 2

/-- One byte step of a reflected CRC. -/
def crcByte (poly c : Nat) (b : Byte) : Nat :=
  let x := c ^^^ b.toNat
  crcBit poly (crcBit poly (crcBit poly (crcBit poly (crcBit poly (crcBit poly (crcBit poly (crcBit poly x)))))))

/-- A reflected 32-bit CRC with initial value and final XOR 0xFFFF_FFFF. -/
def crc32With (poly : Nat) (bs : List Byte) : W32 :=
  BitVec.ofNat 32 ((bs.foldl (crcByte poly) 0xFFFF_FFFF) ^^^ 0xFFFF_FFFF)

/-- CRC-32C (R383). -/
def crc32c (bs : List Byte) : W32 := crc32With 0x82F6_3B78 bs

/-- CRC-32 with the IEEE 802.3 parameters (R551). -/
def crc32 (bs : List Byte) : W32 := crc32With 0xEDB8_8320 bs

/-- Words as bytes, little-endian. -/
def wordsToBytes (ws : List W32) : List Byte := ws.flatMap (fun w => leBytes 4 w.toNat)

/-- Bytes as 32-bit words, little-endian; a short tail is zero-extended. -/
def bytesToWords : List Byte → List W32
  | a :: b :: c :: d :: r => (d ++ c ++ b ++ a : BitVec 32) :: bytesToWords r
  | [] => []
  | r => [BitVec.ofNat 32 (leNat r)]

/-- `floor(log2 n)`, 0 for 0. -/
def log2 (n : Nat) : Nat := Nat.log2 n

/-- Integers 0 … n − 1 paired: the Cartesian product, the first fastest. -/
def pairs (a b : Nat) : List (Nat × Nat) := (List.range b).flatMap (fun y => (List.range a).map (fun x => (x, y)))

/-- The first `n` multiples of `step` from `lo`. -/
def strided (lo step n : Nat) : List Nat := (List.range n).map (fun i => lo + step * i)

/-- Insert into a rising list without repeats. -/
def insNat : List Nat → Nat → List Nat
  | [], k => [k]
  | x :: r, k => if k < x then k :: x :: r else if k = x then x :: r else x :: insNat r k

end Sys2Proof.Machine
end

