-- ==== Sys2Proof/Machine/Ops.lean ====
section
/-! DEFINITION. The named operations every family uses: the tick, the trace, the fault log, completion messages, the
ports' credits and queues, and the scratchpad's stored lines. -/

namespace Sys2Proof.Machine

/-! ### The tick (12 R492, R496) -/

/-- The current tick: the integer part of the timebase. -/
def State.tickW (s : State) : W64 := s.tb.acc.extractLsb' 24 64
def State.now (s : State) : Nat := s.tickW.toNat
/-- A 40-bit stamp (R496). -/
def State.stamp40 (s : State) : BitVec 40 := s.tickW.extractLsb' 0 40

/-! ### Job states (02 Table 2.7) -/

def stIdle : BitVec 4 := 0
def stLoading : BitVec 4 := 1
def stLoaded : BitVec 4 := 2
def stWaiting : BitVec 4 := 3
def stRunning : BitVec 4 := 4
def stFaulted : BitVec 4 := 6
def stPreserved : BitVec 4 := 7
def stScrubbing : BitVec 4 := 8

/-- RUNNING or WAITING. -/
def State.active (s : State) : Bool := s.job.state = stRunning || s.job.state = stWaiting

/-! ### Trace records (12 R500 to R503) -/

/-- Insert a waiting record by tick, then type, then order of effect (R501): what is still to be judged takes effect last. -/
def insRec (r : TRec) : List TRec → List TRec
  | [] => [r]
  | x :: xs =>
    if x.tick.toNat < r.tick.toNat ∨ (x.tick = r.tick ∧ (x.type.toNat < r.type.toNat ∨ (x.type = r.type ∧ (r.unjudged || !x.unjudged)))) then
      x :: insRec r xs
    else r :: x :: xs

/-- R500: whether a record of this type and tick is written. -/
def Trace.selects (t : Trace) (type : Nat) (tick : W64) : Bool :=
  t.enable && (type = 6 || type = 14 ||
    ((bitOf t.mask.toNat (type - 1)) && decide (t.lo.toNat ≤ tick.toNat ∧ tick.toNat < t.hi.toNat)))

/-- Record an event at tick `tick`. -/
def State.traceAt (s : State) (tick : W64) (type : Nat) (payload : Nat) : State :=
  if s.tr.selects type tick then
    { s with tr := { s.tr with pend := insRec ⟨tick, BitVec.ofNat 4 type, BitVec.ofNat 60 payload, 0, false⟩ s.tr.pend } }
  else s

/-- Keep the place of a record whose event has come and is not judged yet (R501). -/
def Trace.keepPlace (t : Trace) (type : Nat) (tick : W64) : Trace :=
  if t.selects type tick then { t with pend := insRec ⟨tick, BitVec.ofNat 4 type, 0, 0, true⟩ t.pend } else t

/-- The event that came at `tick` is judged: its record takes the place that was kept, if that has not been dropped (R502). -/
def Trace.fillPlace (t : Trace) (type : Nat) (tick : W64) (payload : Nat) : Trace :=
  match t.pend.find? (fun r => r.unjudged && decide (r.tick = tick ∧ r.type = BitVec.ofNat 4 type)) with
  | none => t
  | some r =>
    let rest := t.pend.erase r
    { t with pend := if t.selects type tick then insRec { r with payload := BitVec.ofNat 60 payload, unjudged := false } rest else rest }

/-- Record an event now. -/
def State.trace (s : State) (type : Nat) (payload : Nat) : State := s.traceAt s.tickW type payload

/-- Write one record into the ring (R503). -/
def Trace.enter (t : Trace) (r : BitVec 128) : Trace :=
  let i := t.wr.toNat
  let used := (AL.get? t.ring i).isSome
  if t.stop && (t.full || used) then { t with full := true, lost := satAdd t.lost 1 }
  else { t with ring := AL.put t.ring i r, wr := t.wr + 1, written := satAdd t.written 1,
                wrapped := t.wrapped || used, full := t.full || (t.stop && i = Config.traceRecs - 1) }

/-- The 128 bits of a record (Table 12.2). -/
def TRec.bits (r : TRec) : BitVec 128 := r.tick ++ r.type ++ r.payload

/-- The TCLK for which a record may wait (R502). -/
def traceWait : Nat := 256

/-- A record is dropped: it is counted, and begins or lengthens a run of drops (R502). -/
def Trace.dropOne (t : Trace) (r : TRec) : Trace :=
  { t with lost := satAdd t.lost 1, loss := match t.loss with | none => some (r.tick, 1) | some (k, n) => some (k, n + 1) }

/-- The LOSS record of a run of drops enters the next slot (R502). -/
def Trace.enterLoss (t : Trace) : Trace :=
  match t.loss with
  | none => t
  | some (k, n) => Trace.enter { t with loss := none } (TRec.bits ⟨k, 14, BitVec.ofNat 60 (min n (2 ^ 32 - 1)), 0, false⟩)

/-- Let waiting records of a tick below `now` enter in `slots` more slots, of which `used` have passed, 4 a TCLK: the front that
has then waited its 256 TCLK is dropped, and a run of drops takes a slot before the next record. A record that is still to be judged
holds back those after it until then (R501, R502). -/
def Trace.enterRun (slots now : Nat) : Nat → Nat → Trace → Trace
  | 0, _, t => t
  | k + 1, used, t =>
    if slots ≤ used then t
    else match t.pend with
    | [] => if t.loss.isSome then t.enterLoss else t
    | r :: rs =>
      if traceWait < r.age + (used / 4 + 1) then Trace.enterRun slots now k used (Trace.dropOne { t with pend := rs } r)
      else if t.loss.isSome then Trace.enterRun slots now k (used + 1) t.enterLoss
      else if r.unjudged then Trace.enterRun slots now k (max used (4 * (traceWait - r.age))) t
      else if r.tick.toNat < now then Trace.enterRun slots now k (used + 1) (Trace.enter { t with pend := rs } r.bits)
      else t

/-- `n` TCLK pass, the last at tick `now`: records enter the ring, and those that are left have waited longer. -/
def Trace.pass (t : Trace) (n now : Nat) : Trace :=
  if t.pend.isEmpty && t.loss.isNone then t
  else
    let t := t.enterRun (4 * n) now (3 * t.pend.length + 3) 0
    { t with pend := t.pend.map (fun r => { r with age := r.age + n }) }

/-- A waiting record has waited its 256 TCLK. -/
def Trace.anyLate (t : Trace) : Bool := t.pend.any (fun r => decide (traceWait ≤ r.age))

/-- The records that cannot enter within 256 TCLK are dropped and counted (R502). -/
def Trace.dropLate (t : Trace) : Trace :=
  (t.pend.filter (fun r => decide (traceWait ≤ r.age))).foldl Trace.dropOne
    { t with pend := t.pend.filter (fun r => !decide (traceWait ≤ r.age)) }

/-! ### The fault log (14 R515) -/

/-- Append one entry to the fault log and write the FAULT record; `resp`: 0 Halt, 1 Log, 2 Refuse, 3 Start. -/
def State.logFault (s : State) (code resp : Nat) (pc : BitVec 19) (seq : Nat) (info : W64) : State :=
  let full := Config.faultLogMax ≤ s.ft.log.length
  let e : FLog := ⟨BitVec.ofNat 16 code, BitVec.ofNat 2 resp, pc, s.tickW, info⟩
  let s := { s with ft := { s.ft with
    log := if full then s.ft.log else s.ft.log ++ [e]
    ovf := s.ft.ovf || full
    logged := satAdd s.ft.logged 1 } }
  s.trace 6 (code * 2 ^ 44 + pc.toNat * 2 ^ 25 + seq % 2 ^ 25)

/-- The PC that a log entry shows: zero outside a job, which begins with its program loaded (Table 14.8, 00 Table 0.6). -/
def State.logPc (s : State) : BitVec 19 :=
  if s.job.state = stLoaded || s.active || s.job.state = stFaulted then s.sb.pc else 0

/-- A fault with the Log response that belongs to no instruction. -/
def State.logOnly (s : State) (code : Nat) (info : W64) : State := s.logFault code 1 s.logPc s.sb.nextSeq info

/-- Count a suppressed fault (R514, R517, R71). -/
def State.suppress (s : State) : State :=
  { s with ft := { s.ft with suppressed := satAdd s.ft.suppressed 1 } }

/-- Info format A (Table 14.3). -/
def infoA (pass2 : Bool) (operand desc addr : Nat) : W64 :=
  BitVec.ofNat 64 ((if pass2 then 2 ^ 63 else 0) + operand % 128 * 2 ^ 56 + desc % 256 * 2 ^ 48 + addr % 2 ^ 48)
/-- Info format W. -/
def infoW (hi win : Nat) : W64 := BitVec.ofNat 64 (hi % 2 ^ 32 * 2 ^ 32 + win % 32)
/-- Info format P: the port and the low 40 bits of a tick. -/
def infoP (port tick : Nat) : W64 := BitVec.ofNat 64 (port % 256 * 2 ^ 56 + tick % 2 ^ 40)
/-- Info format Y: the layout of YARD_LOG_A. -/
def infoY (coll chunk chip slot : Nat) : W64 :=
  BitVec.ofNat 64 (coll % 2 ^ 16 * 2 ^ 48 + chunk % 2 ^ 20 * 2 ^ 28 + chip % 2 ^ 12 * 2 ^ 16 + slot % 256 * 2 ^ 8)
/-- Info format H. -/
def infoH (kind index : Nat) : W64 := BitVec.ofNat 64 (kind % 256 * 2 ^ 56 + index % 2 ^ 32)
/-- Info format C for 0x7004. -/
def infoC (res short : Nat) : W64 := BitVec.ofNat 64 (res % 16 * 2 ^ 60 + short % 2 ^ 32)

/-! ### Ports (17 Tables 17.1, 17.8) -/

def State.port (s : State) (p : Nat) : Port := AL.getD s.ports p Port.down
def State.setPort (s : State) (p : Nat) (q : Port) : State := { s with ports := AL.put s.ports p q }

inductive PortClass where
  | aport
  | bport
  | intake
  | mem
  | net
  | peer
  | host
  | cmd
  | ptb
  deriving DecidableEq, Repr

/-- The class of a port of the P numbering (Table 14.3). -/
def portClass (p : Nat) : PortClass :=
  if p = 0 then .aport else if p = 1 then .bport else if p ≤ 5 then .intake else if p ≤ 21 then .mem
  else if p ≤ 29 then .net else if p = 30 then .peer else if p ≤ 32 then .host else if p = 33 then .cmd else .ptb

/-- The class's bit position in SVC_STAT.port_ok, and its byte in a profile's floors (Table 15.3); none for the PTB. -/
def PortClass.index : PortClass → Option Nat
  | .aport => some 0 | .bport => some 1 | .intake => some 2 | .mem => some 3 | .net => some 4
  | .peer => some 5 | .host => some 6 | .cmd => some 7 | .ptb => none

def Port.up (q : Port) : Bool := q.state = 2
/-- The negotiated version. -/
def Port.version (q : Port) : Nat := q.mode.toNat / 2 ^ 60

/-- The command port serves in the base mode, without credits: until it is negotiated, and where its negotiation has failed, until
reset (R549, R550, R595). A link error ends it (R602). -/
def State.cmdBase (s : State) : Bool := !(s.port 33).up && !(s.port 33).broken

/-- The port sends. -/
def State.portSends (s : State) (p : Nat) : Bool := (s.port p).up || (p = 33 && s.cmdBase)

/-- Credits a message costs (Table 17.8, R600). -/
def OutMsg.cost : OutMsg → Nat
  | .operand .. => 1
  | .rwrite .. => 1
  | .chunk _ p => cdiv (32 + p.length) 128
  | .completion .. => 1
  | _ => 0

/-- The message needs a DMA token (Table 17.8). -/
def OutMsg.token : OutMsg → Bool
  | .mread .. => true
  | .mwrite .. => true
  | _ => false

/-- Tokens of a memory or host port in use. -/
def State.tokensUsed (s : State) (p : Nat) : List Nat :=
  s.reqs.filterMap (fun r => if r.port = p then
    (match r.kind with | .read t _ _ => some t | .ack t => some t | _ => none) else none)

/-- The lowest free token of a port (Table 12.5). -/
def State.freeToken (s : State) (p : Nat) : Option Nat :=
  (List.range Config.dmaTokens).find? (fun t => !(s.tokensUsed p).contains t)

/-- The response limit of a port class in ticks as it stands (Table 10.9). -/
def State.limitOf (s : State) (p : Nat) : Nat :=
  match portClass p with
  | .mem => s.xf.memTicks.toNat
  | .host => s.xf.hostTicks.toNat
  | _ => s.xf.netTicks.toNat

/-- The limit of a wait at the head of a port's queue (Table 14.5); none on the command port. A memory or host request that
cannot leave yet, for want of a token or at a FAILED port, has its port's response limit from when it begins to wait: the
model's choice, since R443 counts from its leaving (log 109). -/
def State.txLimit (s : State) (p : Nat) : Nat :=
  match portClass p with
  | .aport => s.xp.stall.toNat
  | .bport => s.xp.stall.toNat
  | _ => s.limitOf p

/-- Record a message as sent on port `p`. -/
def State.emit (s : State) (p : Nat) (m : OutMsg) : State := { s with out := s.out ++ [⟨p, s.tickW, m⟩] }

/-- The lowest-numbered network port that is UP, on which triggers leave and events arrive (R599). -/
def State.trigPort (s : State) : Option Nat := (strided 22 1 8).find? (fun p => (s.port p).up)

/-- Send a trigger on the trigger port (R483). -/
def State.sendTrigger (s : State) (p : Nat) (id : Byte) (v : W64) : State :=
  { s with yd := { s.yd with posts := satAdd s.yd.posts 1 } }.emit p (.trigger id v)

/-- Hand a trigger to the KNI (R483): it leaves at once if a network port is UP and nothing waits before it, else it waits. -/
def State.handOver (s : State) (own : Option Nat) (id : Byte) (v : W64) : State :=
  let s := s.trace 10 (id.toNat * 2 ^ 52 + v.toNat % 2 ^ 32)
  match (if s.yd.trigs.isEmpty then s.trigPort else none : Option Nat) with
  | some p => s.sendTrigger p id v
  | none => { s with yd := { s.yd with trigs := s.yd.trigs ++ [⟨own, id, v, s.tickW, s.xf.netTicks.toNat⟩] } }

/-- The bytes of a chunk header from bit 32 up (Table 11.3), for its CRC (R461). -/
def chunkHdrBits (h : ChunkHdr) : BitVec 256 :=
  h.chunk ++ h.slot ++ h.mlo ++ h.lvl ++ BitVec.ofBool h.psn ++ h.wfmt ++ h.coll ++ h.sender ++ h.stamp ++ h.res ++ h.crc
def chunkHdrCrc (h : ChunkHdr) (payload : List Byte) : W32 :=
  crc32c ((leBytes 32 (chunkHdrBits h).toNat).drop 4 ++ payload)

/-- A completion message leaves: a command's result and fault are those of CMD_STAT from here on (18 R633); a report of the
state leaves them, but for a refused load's (02 R637). -/
def State.cmdResult (s : State) (st : W64) : State :=
  if st.extractLsb' 40 8 = 0#8 ∧ st.extractLsb' 36 4 = 0#4 then s
  else { s with cmd := { s.cmd with lastFault := st.extractLsb' 48 16, lastResult := st.extractLsb' 36 4 } }

/-- The trigger after a tile of a NET store is posted: it carries the count of tiles sent so far, this one with them (R308). -/
def State.postTile (s : State) (own : Option Nat) (id : Byte) : State :=
  let n := s.yd.netSent + 1
  ({ s with yd := { s.yd with netSent := n } }).handOver own id (BitVec.ofNat 64 n)

/-- Send a queue item whose credits are there: stamp it, spend its credits or take its token, note what it awaits. A trigger
that follows NET lines takes its value and begins its hand-over here (R308, R483); a T.COPY's line counts in MOV_STAT (08 Table 8.10). -/
def State.sendItem (s : State) (p : Nat) (i : TxItem) : State :=
  let q := s.port p
  let s := s.setPort p { q with txCred := q.txCred - i.msg.cost }
  let own := i.owner
  match i.msg with
  | .rwrite h ws =>
    let h := { h with stamp := s.stamp40 }
    let s := s.emit p (.rwrite h ws)
    let by_ := fun (opc : BitVec 8) => s.fl.any (fun f => decide (some f.q.seq = own) && f.q.w.opc = opc)
    { s with xf := { s.xf with writes := satAdd s.xf.writes 1 }
             reqs := s.reqs ++ [⟨own, !by_ 0x38, p, .write (bitsOf h.addr.toNat 27 5) (bitsOf h.addr.toNat 32 12) h.stamp
                                    (by_ 0x48), s.tickW, s.xf.netTicks.toNat⟩] }
  | .chunk h pl =>
    let h := { h with stamp := s.stamp40 }
    let h := { h with crc := chunkHdrCrc h pl }
    let s := s.emit p (.chunk h pl)
    { s with reqs := s.reqs ++ [⟨own, true, p, .chunk 0 h.stamp, s.tickW, s.xf.netTicks.toNat⟩] }
  | .mread _ a =>
    let t := (s.freeToken p).getD 0
    let s := s.emit p (.mread (BitVec.ofNat 6 t) a)
    { s with reqs := s.reqs ++ [⟨own, true, p, .read t a.toNat i.rd, s.tickW, s.limitOf p⟩] }
  | .mwrite _ ps a d =>
    let t := (s.freeToken p).getD 0
    let s := s.emit p (.mwrite (BitVec.ofNat 6 t) ps a d)
    { s with reqs := s.reqs ++ [⟨own, true, p, .ack t, s.tickW, s.limitOf p⟩] }
  | .trigger id _ => s.postTile own id
  | .operand .. =>
    let s := s.emit p i.msg
    if s.fl.any (fun f => decide (some f.q.seq = own) && f.q.w.opc = 0x40) then
      { s with xf := { s.xf with portLines := satAdd s.xf.portLines 1 } } else s
  | .completion st vals => (s.cmdResult st).emit p (.completion st vals)
  | m => s.emit p m

/-- A queue item of port `p` can leave now: the port sends, and the credits or the token are there. -/
def State.canSend (s : State) (p : Nat) (i : TxItem) : Bool :=
  s.portSends p && (decide (i.msg.cost ≤ (s.port p).txCred) || (p = 33 && (!(s.port p).up || (s.port p).version = 1)))
    && (!i.msg.token || (s.freeToken p).isSome)

/-- A line that the merge of an earlier one holds back: the lines of a port leave in increasing address (R411, R412). -/
def State.mergeHolds (s : State) (p : Nat) (i : TxItem) : Bool :=
  (match i.msg, i.rd with | .mwrite .., _ => true | .mread .., .merge _ _ => true | _, _ => false)
  && s.reqs.any (fun r => decide (r.port = p) && (match r.kind with | .read _ _ (.merge _ _) => true | _ => false))

/-- Send from the port's queue, in order, while the head can leave; the head that cannot begins to wait. -/
def State.flushN : Nat → State → Nat → State
  | 0, s, _ => s
  | k + 1, s, p =>
    let q := s.port p
    match q.txq with
    | [] => s
    | i :: is =>
      if s.mergeHolds p i then s
      else if s.canSend p i then State.flushN k ((s.setPort p { q with txq := is }).sendItem p i) p
      else match i.since with
        | some _ => s
        | none => s.setPort p { q with txq := { i with since := some (s.tickW, s.txLimit p) } :: is }

def State.flush (s : State) (p : Nat) : State := s.flushN ((s.port p).txq.length + 1) p

/-- Nothing that the instruction sends waits at a port. -/
def State.sentAll (s : State) (seq : Nat) : Bool := !(s.ports.any (fun p => p.2.txq.any (fun i => i.owner = some seq)))

/-- Put a message on a port's queue and send what can leave. -/
def State.send (s : State) (p : Nat) (owner : Option Nat) (m : OutMsg) (rd : ReadFor := .spad) : State :=
  let q := s.port p
  (s.setPort p { q with txq := q.txq ++ [⟨m, owner, rd, none⟩] }).flush p

/-- Put a message at the head of a port's queue and send what can leave. -/
def State.sendFirst (s : State) (p : Nat) (owner : Option Nat) (m : OutMsg) : State :=
  let q := s.port p
  (s.setPort p { q with txq := ⟨m, owner, .spad, none⟩ :: q.txq }).flush p

/-- An answer or credit return: it costs no credit and leaves at once, if the port is UP (Table 17.8). -/
def State.sendFree (s : State) (p : Nat) (m : OutMsg) : State := if (s.port p).up then s.emit p m else s

/-- Return `n` credits of port `p`: none at version 1, one a message at version 2, up to 8 at version 3 (R595, Table 17.8). -/
def State.sendCredits : Nat → State → Nat → Nat → State
  | 0, s, _, _ => s
  | _ + 1, s, _, 0 => s
  | k + 1, s, p, n =>
    if (s.port p).version < 2 then s else
    let c := if 3 ≤ (s.port p).version then min 8 n else 1
    State.sendCredits k (s.sendFree p (.credit c)) p (n - c)

def State.credits (s : State) (p n : Nat) : State := s.sendCredits (n + 1) p n

/-- The buffers of a received message of `n` credits are free again and their credits return (R600); those of a port that has
failed meanwhile are written off (R602). -/
def State.giveBack (s : State) (p n : Nat) : State :=
  let q := s.port p
  if q.up then (s.setPort p { q with rxOut := q.rxOut + n }).credits p n else s

/-! ### Completion messages (02 R637, 17 Table 17.8, 18 R633) -/

/-- The status word of a COMPLETION. -/
def statusWord (fault : BitVec 16) (code : Byte) (result : BitVec 4) (state : BitVec 4) (exit : W32) : W64 :=
  fault ++ code ++ result ++ state ++ exit

/-- An unsolicited report of the state as it stands. -/
def State.reportState (s : State) (fault : BitVec 16) (result : BitVec 4) (exit : W32) : State :=
  s.send 33 none (.completion (statusWord fault 0 result s.job.state exit) [])

/-- The completion of a command; it counts in CMD_COUNT, and sets CMD_STAT when its message is sent (R633). `result`:
0 completed, 1 error, 2 refused. -/
def State.complete (s : State) (code : Byte) (result : BitVec 4) (fault : BitVec 16) (vals : List W64) : State :=
  let s := { s with cmd := { s.cmd with
    refused := if result = 0 then s.cmd.refused else satAdd s.cmd.refused 1
    accepted := if result = 0 then satAdd s.cmd.accepted 1 else s.cmd.accepted } }
  s.send 33 none (.completion (statusWord fault code result s.job.state 0) vals)

/-- JOB_STATUS.state, with the JOB record of a change (12 Table 12.3); the report is the caller's (R637). -/
def State.toState (s : State) (st : BitVec 4) : State :=
  let t := { s with job := { s.job with state := st } }
  if s.job.state = st then t else t.trace 11 (st.toNat * 2 ^ 56)

/-! ### Stored lines of the scratchpad (09 R385 to R388) -/

/-- The line address of a byte address. -/
def lineOf (a : Nat) : Nat := a / 128 * 128

/-- The majority of the three copies of a poison bit (R385). -/
def majority (c : BitVec 3) : Bool :=
  (c.getLsbD 0 && c.getLsbD 1) || (c.getLsbD 0 && c.getLsbD 2) || (c.getLsbD 1 && c.getLsbD 2)

def Spad.psn (sp : Spad) (line : Nat) : Bool := majority (AL.getD sp.poison line 0)
def Spad.setPsn (sp : Spad) (line : Nat) (b : Bool) : Spad :=
  { sp with poison := if b then AL.put sp.poison line 7 else AL.del sp.poison line }

/-- The stored poison bit of the line at byte address `line`. -/
def State.psn (s : State) (line : Nat) : Bool := s.sp.psn line

/-- A point of entry of Table 14.4 marks the line: the change from 0 to 1 is counted and the first recorded (R521). -/
def State.enterPoison (s : State) (source line : Nat) : State :=
  if s.psn line then s
  else
    let s := { s with sp := s.sp.setPsn line true, ft := { s.ft with marked := satAdd s.ft.marked 1 } }
    if s.ft.pfValid then s
    else { s with ft := { s.ft with
      pfValid := true, pfSource := BitVec.ofNat 4 source, pfAddr := BitVec.ofNat 48 (lineOf line) } }

/-- `place` of R367: district, bank, row, power group of a byte address. -/
def place (a : Nat) : Nat × Nat × Nat × Nat :=
  let L := bitsOf a 7 15
  (a / 2 ^ 22, 32 * (L / 2 ^ 14) + ((L % 32) ^^^ (L / 32 % 32)), L / 32 % 512, a / 2 ^ 21)

/-- The power group of a byte address (R390). -/
def groupOf (a : Nat) : Nat := a / 2 ^ 21

/-- The logical bank of a line: 64 × district + bank. -/
def bankOf (a : Nat) : Nat := let p := place a; 64 * p.1 + p.2.1

/-- Units as the factory map has them (16 Table 16.1): kind 0 VC, 1 bank, 2 DPU, 3 pipe, 4 plane, 5 core. -/
def unitInstalled (kind : Nat) : Nat :=
  match kind with
  | 0 => 2176 | 1 => 8704 | 2 => 1152 | 3 => 19584 | 4 => 9 | 5 => 2 | _ => 0
def unitPer (kind : Nat) : Nat :=
  match kind with
  | 0 => 17 | 1 => 68 | 2 => 9 | 3 => 9 | 4 => 9 | 5 => 2 | _ => 1
/-- Local indexes below this are active at first start. -/
def unitActive (kind : Nat) : Nat :=
  match kind with
  | 0 => 16 | 1 => 64 | 2 => 8 | 3 => 8 | 4 => 8 | 5 => 1 | _ => 0

def unitKey (kind index : Nat) : Nat := kind * 32768 + index

/-- A unit of the factory map: a pipe of a spare VC counts as spare (text after Table 16.1). -/
def UnitRec.factory (kind index : Nat) : UnitRec :=
  let spareVc := kind = 3 ∧ index / 9 % 17 = 16
  ⟨if index % unitPer kind < unitActive kind ∧ ¬ spareVc then 0 else 1, false, false, 0xFFF, 0xFF, 0, 0, 0⟩

def State.unit (s : State) (kind index : Nat) : UnitRec := AL.getD s.hl.units (unitKey kind index) (UnitRec.factory kind index)
def State.setUnit (s : State) (kind index : Nat) (u : UnitRec) : State :=
  { s with hl := { s.hl with units := AL.put s.hl.units (unitKey kind index) u } }

/-- The unit that serves logical slot `slot` of group `grp` (platform, district, VC): itself, or the reserve or lent
unit recorded for the slot (R582, R583). -/
def State.serving (s : State) (kind grp slot : Nat) : Option Nat :=
  let own := unitPer kind * grp + slot
  if (s.unit kind own).state = 0 then some own
  else
    let byReserve := (strided (unitPer kind * grp + unitActive kind) 1 (unitPer kind - unitActive kind)).find?
      (fun i => let u := s.unit kind i
        u.state = 0 && u.slot.toNat = slot && (u.borrower = 0xFF || u.borrower.toNat = grp))
    match byReserve with
    | some i => some i
    | none => if kind = 1 then
        (s.hl.units.find? (fun e => e.1 / 32768 = 1 && e.2.state = 0 && e.2.slot.toNat = slot && e.2.borrower ≠ 0xFF
          && e.2.borrower.toNat = grp)).map (fun e => e.1 % 32768)
      else none

/-- A job is there: from its load to its end or its kill (00 Table 0.6). -/
def State.jobThere (s : State) : Bool :=
  s.job.state = stLoading || s.job.state = stLoaded || s.active || s.job.state = stFaulted

/-- A bank meets an uncorrectable line: the 16th distinct line of one job marks it failed (R578). -/
def State.badLine (s : State) (line : Nat) : State :=
  let b := bankOf line
  match (if s.jobThere then s.serving 1 (b / 64) (b % 64) else none : Option Nat) with
  | none => s
  | some phys =>
    let ls := insNat (AL.getD s.sp.bad phys []) line
    let s := { s with sp := { s.sp with bad := AL.put s.sp.bad phys ls } }
    let u := s.unit 1 phys
    if 16 ≤ ls.length ∧ ¬ u.failed then
      let s := s.setUnit 1 phys { u with failed := true }
      { s with hl := { s.hl with wearGen := s.hl.wearGen + 1 } }.trace 13 (1 * 2 ^ 57 + phys * 2 ^ 42 + 2 * 2 ^ 40 + u.x.toNat)
    else s

/-- A read of `line` meets an uncorrectable error (R387). -/
def State.uncorrectable (s : State) (line : Nat) : State :=
  let s := s.enterPoison 1 line
  let s := { s with sp := { s.sp with
    uncorrected := satAdd s.sp.uncorrected 1
    eccAddr := if s.sp.eccValid then s.sp.eccAddr else BitVec.ofNat 48 line
    eccValid := true } }
  s.badLine line

/-- A read that finds something to correct is counted, and the line awaits its write-back (R386). -/
def Spad.correct (sp : Spad) (line : Nat) : Spad := { sp with corrected := satAdd sp.corrected 1, wb := insNat sp.wb line }

/-- A read of one line through ECC (R385 to R387): a disagreeing poison copy counts once, so does a read with a correctable
word, and so does a read with an uncorrectable one. -/
def State.readLine (s : State) (line : Nat) : State :=
  let c := AL.getD s.sp.poison line 0
  let hit := s.sp.decay.filter (fun d => decide (lineOf d.1 = line))
  let s := if c = 0 ∨ c = 7 then s else { s with sp := s.sp.correct line }
  let s := if hit.any (fun d => !d.2) then { s with sp := s.sp.correct line } else s
  if hit.any (·.2) then s.uncorrectable line else s

/-- The lines of the scratchpad that could change a read: those with an ECC error or disagreeing poison copies. -/
def Spad.suspects (sp : Spad) : List Nat :=
  (sp.decay.map (fun d => lineOf d.1) ++ (sp.poison.filter (fun p => p.2 ≠ 0 ∧ p.2 ≠ 7)).map (·.1)).foldl insNat []

/-- Read through ECC every line that `sel` names, in increasing address. -/
def State.readLines (s : State) (sel : Nat → Bool) : State :=
  (s.sp.suspects.filter sel).foldl (fun s l => s.readLine l) s

/-- A bit write: bit address (8 × byte + bit), width, value. -/
structure BitW where
  at_ : Nat
  width : Nat
  val : Nat
  deriving DecidableEq, Repr

/-- Write `w` bits at bit address `a`, leaving the neighbours (R110, R336). -/
def Mem.writeBits (m : Mem) (a w v : Nat) : Mem :=
  let b := a / 8
  let k := a % 8
  let n := cdiv (k + w) 8
  let old := m.readLE b n
  let new := old % 2 ^ k + (v % 2 ^ w) * 2 ^ k + old / 2 ^ (k + w) * 2 ^ (k + w)
  m.writeLE b n new

/-- Read `w` bits at bit address `a`. -/
def Mem.readBits (m : Mem) (a w : Nat) : Nat :=
  let b := a / 8
  let k := a % 8
  bitsOf (m.readLE b (cdiv (k + w) 8)) k w

/-- The lines a bit write touches. -/
def BitW.lines (w : BitW) : List Nat :=
  let lo := w.at_ / 1024
  let hi := (w.at_ + w.width - 1) / 1024
  if w.width = 0 then [] else (strided lo 1 (hi - lo + 1)).map (· * 128)

/-- Bits of the write that fall in [lo, hi). -/
def BitW.overlap (w : BitW) (lo hi : Nat) : Nat := min (w.at_ + w.width) hi - max w.at_ lo

/-- One more correctable read (R386). -/
def State.countCorrected (s : State) : State := { s with sp := { s.sp with corrected := satAdd s.sp.corrected 1 } }

/-- Make the writes, keeping ECC (R388): an ECC word that is wholly covered is fresh; one partly covered is read first,
and an uncorrectable error then poisons the line. The poison bit of each line written becomes `bit line`, with its old
bit OR-ed in where `orOld line` holds. -/
def State.store (s : State) (ws : List BitW) (bit orOld : Nat → Bool) : State :=
  let lines := (ws.flatMap BitW.lines).foldl insNat []
  let hit := s.sp.decay.filter (fun d => ws.any (fun w => decide (0 < w.overlap (8 * d.1) (8 * d.1 + 64))))
  let part := hit.filter (fun d => decide ((ws.map (fun w => w.overlap (8 * d.1) (8 * d.1 + 64))).sum < 64))
  let merged := ((part.filter (·.2)).map (fun d => lineOf d.1)).foldl insNat []
  let s := merged.foldl State.uncorrectable s
  let s := (part.filter (fun d => !d.2)).foldl (fun s _ => s.countCorrected) s
  let old := s.sp
  let sp := lines.foldl (fun sp l => sp.setPsn l (bit l || (old.psn l && orOld l) || merged.contains l)) old
  { s with sp := { sp with
    mem := ws.foldl (fun m w => m.writeBits w.at_ w.width w.val) sp.mem
    decay := sp.decay.filter (fun d => !hit.contains d)
    wb := sp.wb.filter (fun l => !lines.contains l) } }

/-- Whole bytes as bit writes. -/
def byteWrites (a : Nat) (bs : List Byte) : List BitW := bs.zipIdx.map (fun p => ⟨8 * (a + p.2), 8, p.1.toNat⟩)

/-- Every line of [lo, hi) becomes zero, with fresh check bits and a clear poison bit (R396, R398, R400). -/
def Spad.zero (sp : Spad) (lo hi : Nat) : Spad :=
  { sp with
    mem := sp.mem.clear lo hi
    poison := sp.poison.filter (fun p => decide (p.1 < lo ∨ hi ≤ p.1))
    decay := sp.decay.filter (fun d => decide (d.1 < lo ∨ hi ≤ d.1))
    wb := sp.wb.filter (fun l => decide (l < lo ∨ hi ≤ l)) }

/-- Bytes `n` from `a` become free values, and the poison bits of their lines (log 7). -/
def State.scramble (s : State) (a n : Nat) : State :=
  let k := s.freeCtr
  let bs := (List.range n).map (fun i => Config.freeByte (k + i))
  let l0 := a / 128
  let ls := if n = 0 then [] else (strided l0 1 ((a + n - 1) / 128 - l0 + 1)).map (· * 128)
  let sp := ls.foldl (fun sp l => sp.setPsn l (Config.freeBit (k + l))) s.sp
  { s with freeCtr := k + n, sp := { sp with mem := sp.mem.writeBytes a bs } }

/-- The yard's first byte (R450). -/
def State.yardBytes (s : State) : Nat := s.cfg.active.yardMib.toNat * 2 ^ 20
def State.yardBase (s : State) : Nat := Config.spadSize - s.yardBytes

/-- The power group, with ON as its state before the self-test (log 1). -/
def State.group (s : State) (g : Nat) : Group := AL.getD s.sp.groups g ⟨.on, false⟩
def State.setGroup (s : State) (g : Nat) (x : Group) : State := { s with sp := { s.sp with groups := AL.put s.sp.groups g x } }
def State.groupOn (s : State) (g : Nat) : Bool := (s.group g).phase = .on && !(s.group g).held

/-- At most one copy of a poison bit has flipped. -/
def oneFlip (copies : BitVec 3) : Bool := copies = 0 || copies = 1 || copies = 2 || copies = 4

/-- PATROL: what ECC finds in a line of an ON group, corrected or marked. `copies` names the copy of the poison bit that has
flipped: the majority stands, so no patrol clears a bit (R522, log 60). Late errors wait for R525's data pass. The bytes of a
word with an uncorrectable error stay as they were, the model's choice: R387 has the line read as stored and gives no value (log
104). -/
def State.patrolLine (s : State) (line : Nat) (found : List EccFind) (copies : BitVec 3) : State :=
  if !s.groupOn (groupOf line) then s
  else
    let word := fun (f : EccFind) => line + 8 * f.word.toNat
    let decay := (found.filter (!·.late)).foldl (fun l f =>
      l.filter (fun d => decide (d.1 ≠ word f)) ++ [(word f, f.uncorrectable)]) s.sp.decay
    let spoil := (found.filter (fun f => f.late && f.uncorrectable)).foldl (fun l f => insNat l (word f)) s.sp.spoil
    let old := AL.getD s.sp.poison line 0
    let poison := if copies = 0 || !oneFlip copies then s.sp.poison else AL.put s.sp.poison line (old ^^^ copies)
    ({ s with sp := { s.sp with decay := decay, spoil := spoil, poison := poison } }).readLine line

/-- A byte range reaches a line at or above the scrub watermark, in a group that was ON when the scrub began (R402). -/
def State.scrubRange (s : State) (lo hi : Nat) : Bool :=
  s.sp.scrubRun && decide (lo < hi)
  && (strided (groupOf lo) 1 (groupOf (hi - 1) - groupOf lo + 1)).any (fun g => s.sp.scrubOn.contains g
      && decide (s.sp.scrubWm ≤ (min hi ((g + 1) * 2 ^ 21) - 1) / 128 % 32768))

/-- One 64-bit scalar register; s0 reads zero (Table 2.1). -/
def State.getS (s : State) (i : Nat) : W64 := if i = 0 then 0 else AL.getD s.sb.s i 0
/-- Write a scalar register; s0 ignores writes. -/
def State.setS (s : State) (i : Nat) (v : W64) : State :=
  if i = 0 then s else { s with sb := { s.sb with s := AL.put s.sb.s i v } }
/-- One descriptor register. -/
def State.getD (s : State) (i : Nat) : BitVec 256 := AL.getD s.sb.d i 0
def State.setD (s : State) (i : Nat) (v : BitVec 256) : State := { s with sb := { s.sb with d := AL.put s.sb.d i v } }
/-- One predicate register; p0 reads all-ones (R58). -/
def State.getP (s : State) (i : Nat) : W32 := if i = 0 then 0xFFFF_FFFF#32 else AL.getD s.sb.p i 0

def State.window (s : State) (w : Nat) : Window := AL.getD s.wins w Window.init
def State.setWindow (s : State) (w : Nat) (x : Window) : State := { s with wins := AL.put s.wins w x }
def State.slot (s : State) (i : Nat) : Slot := AL.getD s.yd.slots i Slot.free
def State.setSlot (s : State) (i : Nat) (x : Slot) : State := { s with yd := { s.yd with slots := AL.put s.yd.slots i x } }
/-- Frames of a slot (11 R451). -/
def State.yardFrames (s : State) : Nat := max 1 (s.cfg.active.yardMib.toNat / 16)
/-- The number of the frame that serves chunk `c` (11 R452). -/
def State.frameOf (s : State) (c : Nat) : Nat := c % s.yardFrames
def Frame.fresh (i : Nat) : Frame := ⟨i, [], none, 0, false, []⟩
def Slot.frame (x : Slot) (f : Nat) : Frame := x.frames.getD f (Frame.fresh f)

end Sys2Proof.Machine
end

