-- ==== Sys2Proof/Machine/Flags.lean ====
section
/-! DEFINITION. The sticky arithmetic flags: the bits of ARITH_FLAGS and how an instruction sets them (03 R122, Table 3.13). The
rules by which each operation raises a flag stand with the operations, in Num.lean, Prim.lean and the families. -/

namespace Sys2Proof.Machine

/-- Bits of ARITH_FLAGS (03 Table 3.13). -/
abbrev Fl := BitVec 10
def flNV : Fl := 0x001
def flOF : Fl := 0x002
def flUF : Fl := 0x004
def flNX : Fl := 0x008
def flCsOvf : Fl := 0x010
def flCsUf : Fl := 0x020
def flAmaxEmpty : Fl := 0x040
def flFcMiss : Fl := 0x080
def flAmaxSkip : Fl := 0x100
def flScNan : Fl := 0x200

/-- Set sticky bits of ARITH_FLAGS (R122). -/
def State.flag (s : State) (f : BitVec 10) : State := { s with ar := { s.ar with flags := s.ar.flags ||| f } }

end Sys2Proof.Machine
end

