-- ==== Sys2Proof/Machine/Num.lean ====
section
/-! DEFINITION. Number formats, exact values, `round_to`, the stochastic-rounding hash and scales (03). -/

namespace Sys2Proof.Machine

/-- An exact magnitude and sign: ±n × 2^e; `st` says that the exact value lies strictly between n and n + 1 units. -/
structure Dy where
  neg : Bool
  n : Nat
  e : Int
  st : Bool
  deriving DecidableEq, Repr, Inhabited

/-- A value of a source: NaN, an infinity, or an exact number (a zero keeps its sign). -/
inductive Val where
  | nan
  | inf (neg : Bool)
  | fin (d : Dy)
  deriving DecidableEq, Repr, Inhabited

/-- 2^k for an integer k ≥ 0. -/
def pow2 (k : Int) : Nat := 2 ^ k.toNat

def Val.zero (neg : Bool) : Val := .fin ⟨neg, 0, 0, false⟩
def Val.ofInt (i : Int) : Val := .fin ⟨decide (i < 0), i.natAbs, 0, false⟩
def Val.isNan : Val → Bool | .nan => true | _ => false
def Val.isInf : Val → Bool | .inf _ => true | _ => false
def Val.isZero : Val → Bool | .fin d => decide (d.n = 0) && !d.st | _ => false
def Val.neg? : Val → Bool | .nan => false | .inf s => s | .fin d => d.neg
def Val.negate : Val → Val | .nan => .nan | .inf s => .inf !s | .fin d => .fin { d with neg := !d.neg }
def Val.setSign (b : Bool) : Val → Val | .nan => .nan | .inf _ => .inf b | .fin d => .fin { d with neg := b }
def Val.abs : Val → Val := Val.setSign false

/-- The signed numerator of `d` at exponent `e0 ≤ d.e`. -/
def Dy.numAt (d : Dy) (e0 : Int) : Int :=
  let m : Int := (d.n * pow2 (d.e - e0) : Nat)
  if d.neg then -m else m

/-- The larger of −1, 0, 1 that says how `a` compares with `b`; zeros compare equal. -/
def Dy.cmp (a b : Dy) : Int :=
  let e0 := min a.e b.e
  let d := a.numAt e0 - b.numAt e0
  if d < 0 then -1 else if d = 0 then 0 else 1

/-- a < b for numbers and infinities; false with a NaN (R181). -/
def Val.lt : Val → Val → Bool
  | .nan, _ => false
  | _, .nan => false
  | .inf s, .inf t => s && !t
  | .inf s, .fin _ => s
  | .fin _, .inf t => !t
  | .fin a, .fin b => decide (Dy.cmp a b < 0)

/-- a = b as numbers: +0 and −0 are equal, a NaN equals nothing (R181). -/
def Val.eq (a b : Val) : Bool := !a.isNan && !b.isNan && !Val.lt a b && !Val.lt b a

/-- maximumNumber (R168). -/
def Val.maxN (a b : Val) : Val :=
  if a.isNan then b else if b.isNan then a
  else if Val.lt a b then b else if Val.lt b a then a else if a.neg? then b else a
/-- minimumNumber (R168). -/
def Val.minN (a b : Val) : Val :=
  if a.isNan then b else if b.isNan then a
  else if Val.lt a b then a else if Val.lt b a then b else if a.neg? then a else b

/-- The exact sum of two numbers; R118 gives a zero formed from opposite signs −0 under RDN (`rdn`), else +0. A difference a − b is the
sum of a and −b there too (log 97). -/
def Dy.add (rdn : Bool) (a b : Dy) : Dy :=
  if a.n = 0 ∧ b.n = 0 then ⟨if a.neg = b.neg then a.neg else rdn, 0, 0, false⟩
  else
    let e0 := min a.e b.e
    let v := a.numAt e0 + b.numAt e0
    if v = 0 then ⟨rdn, 0, 0, false⟩ else ⟨decide (v < 0), v.natAbs, e0, false⟩

/-- Exact addition with NV for ∞ − ∞ (R170, R171). -/
def Val.add (rdn : Bool) : Val → Val → Val × Fl
  | .nan, _ => (.nan, 0)
  | _, .nan => (.nan, 0)
  | .inf s, .inf t => if s = t then (.inf s, 0) else (.nan, flNV)
  | .inf s, _ => (.inf s, 0)
  | _, .inf t => (.inf t, 0)
  | .fin a, .fin b => (.fin (Dy.add rdn a b), 0)

/-- Exact multiplication with NV for 0 × ∞. -/
def Val.mul : Val → Val → Val × Fl
  | .nan, _ => (.nan, 0)
  | _, .nan => (.nan, 0)
  | .fin a, .fin b => (.fin ⟨a.neg != b.neg, a.n * b.n, a.e + b.e, false⟩, 0)
  | a, b => if a.isZero || b.isZero then (.nan, flNV) else (.inf (a.neg? != b.neg?), 0)

/-- a × b + c exactly; 0 × ∞ sets NV even beside a NaN c (R170). -/
def Val.fma (rdn : Bool) (a b c : Val) : Val × Fl :=
  let (p, f) := a.mul b
  let (r, g) := p.add rdn c
  (r, f ||| g)

/-- Multiply by 2^k exactly. -/
def Val.scale (k : Int) : Val → Val
  | .fin d => .fin { d with e := d.e + k }
  | v => v

/-- Divide a number by the integer m > 0, exactly but for a sticky remainder. -/
def Val.divNat (v : Val) (m : Nat) : Val :=
  match v with
  | .fin d =>
    let k := 96 + Nat.log2 m
    let x := d.n * 2 ^ k
    .fin ⟨d.neg, x / m, d.e - k, d.st || decide (x % m ≠ 0)⟩
  | v => v

/-- `floor(log2 |v|)` of a non-zero number. -/
def Dy.floorLog2 (d : Dy) : Int := (Nat.log2 d.n : Int) + d.e

/-- Magnitude exponents of scales: −150 for 0, 128 for ∞ (R127). -/
def Val.scaleL : Val → Int
  | .nan => -150
  | .inf _ => 128
  | .fin d => if d.n = 0 then -150 else d.floorLog2

/-! ### Formats (Tables 3.1 to 3.3) -/

/-- Which encodings are special: IEEE, the single NaN of E4M3, or none. -/
inductive FSpec where
  | ieee
  | e4m3
  | noneAtAll
  deriving DecidableEq, Repr

/-- A floating format: exponent bits, fraction bits, bias, largest finite magnitude, canonical NaN. -/
structure FFmt where
  eb : Nat
  fb : Nat
  bias : Int
  maxEnc : Nat
  nan : Nat
  spec : FSpec
  deriving DecidableEq, Repr

/-- Table 3.2 by format code. -/
def ffmt (code : Nat) : Option FFmt :=
  match code with
  | 0 => some ⟨8, 23, 127, 0x7F7F_FFFF, 0x7FC0_0000, .ieee⟩
  | 1 => some ⟨8, 7, 127, 0x7F7F, 0x7FC0, .ieee⟩
  | 2 => some ⟨5, 10, 15, 0x7BFF, 0x7FC0, .ieee⟩
  | 3 => some ⟨4, 3, 7, 0x7E, 0x7F, .e4m3⟩
  | 4 => some ⟨5, 2, 15, 0x7B, 0x7E, .ieee⟩
  | 5 => some ⟨4, 3, 7, 0x7E, 0x7F, .e4m3⟩
  | 6 => some ⟨5, 2, 15, 0x7B, 0x7E, .ieee⟩
  | 7 => some ⟨3, 2, 3, 0x1F, 0, .noneAtAll⟩
  | 8 => some ⟨2, 3, 1, 0x1F, 0, .noneAtAll⟩
  | 9 => some ⟨2, 1, 1, 0x7, 0, .noneAtAll⟩
  | 15 => some ⟨8, 10, 127, 0x3_FBFF, 0x3_FE00, .ieee⟩
  | _ => none

/-- Stored width in bits (Table 3.1). -/
def fmtWidth (code : Nat) : Nat :=
  match code with
  | 0 => 32 | 1 => 16 | 2 => 16 | 3 => 8 | 4 => 8 | 5 => 8 | 6 => 8 | 7 => 6 | 8 => 6 | 9 => 4 | 10 => 8
  | 11 => 32 | 12 => 16 | 13 => 8 | 14 => 4 | _ => 19

def isMX (code : Nat) : Bool := decide (5 ≤ code ∧ code ≤ 10)
def isFloat (code : Nat) : Bool := decide (code ≤ 4)
def isInt (code : Nat) : Bool := decide (11 ≤ code ∧ code ≤ 14)
/-- Codes that may have a per-tensor scale. -/
def isScalable (code : Nat) : Bool := code = 3 || code = 4 || code = 13 || code = 14
/-- Destinations that gather an amax (R136). -/
def gathersAmax (code : Nat) : Bool := decide (3 ≤ code ∧ code ≤ 10) || code = 13 || code = 14

/-- The magnitude encoding of infinity in an IEEE-like format. -/
def FFmt.infEnc (F : FFmt) : Nat := (2 ^ F.eb - 1) * 2 ^ F.fb
def FFmt.signBit (F : FFmt) : Nat := 2 ^ (F.eb + F.fb)
def FFmt.enc (F : FFmt) (neg : Bool) (mag : Nat) : Nat := if neg then F.signBit + mag else mag

/-- Decode a floating encoding (R105); FTZ reads a subnormal as a zero of its sign (R116). -/
def FFmt.decode (F : FFmt) (ftz : Bool) (bits : Nat) : Val :=
  let neg := bitOf bits (F.eb + F.fb)
  let E := bitsOf bits F.fb F.eb
  let f := bitsOf bits 0 F.fb
  let special := match F.spec with
    | .ieee => if E = 2 ^ F.eb - 1 then some (if f = 0 then Val.inf neg else Val.nan) else none
    | .e4m3 => if E = 2 ^ F.eb - 1 ∧ f = 2 ^ F.fb - 1 then some Val.nan else none
    | .noneAtAll => none
  match special with
  | some v => v
  | none =>
    if E = 0 then
      if f = 0 ∨ ftz then Val.zero neg else .fin ⟨neg, f, 1 - F.bias - F.fb, false⟩
    else .fin ⟨neg, 2 ^ F.fb + f, (E : Int) - F.bias - F.fb, false⟩

/-- The value of one stored element of a format, before any scale. -/
def decodeElem (code : Nat) (uns ftz : Bool) (bits : Nat) : Val :=
  match ffmt code with
  | some F => F.decode ftz bits
  | none =>
    let w := fmtWidth code
    if code = 10 then .fin ⟨decide (sextNat bits 8 < 0), (sextNat bits 8).natAbs, -6, false⟩
    else if uns then Val.ofInt (bits % 2 ^ w : Nat) else Val.ofInt (sextNat bits w)

/-! ### `round_to` (R119 to R121) -/

/-- Rounding modes (R120). -/
def rNE : Nat := 0
def rTZ : Nat := 1
def rDN : Nat := 2
def rUP : Nat := 3
def rSR : Nat := 4

/-- `k`, whether the rounding goes up, and whether it is inexact, for |v| = n × 2^e against the spacing 2^q. -/
def roundAt (d : Dy) (q : Int) (rnd rbits : Nat) : Nat × Bool × Bool :=
  let sh := q - d.e
  if sh ≤ 0 then (d.n * pow2 (-sh), rnd = rUP && d.st && !d.neg || rnd = rDN && d.st && d.neg, d.st)
  else
    let p := pow2 sh
    let k := d.n / p
    let r := d.n % p
    let gt := decide (2 * r > p) || (decide (2 * r = p) && d.st)
    let tie := decide (2 * r = p) && !d.st
    let pos := decide (r ≠ 0) || d.st
    let up :=
      if rnd = rNE then gt || (tie && k % 2 = 1)
      else if rnd = rTZ then false
      else if rnd = rDN then d.neg && pos
      else if rnd = rUP then !d.neg && pos
      else decide (r * 2 ^ 16 / p + rbits ≥ 2 ^ 16)
    (k, up, pos)

/-- `overflow` of Table 3.5 for a floating target. -/
def FFmt.overflow (F : FFmt) (neg : Bool) (rnd : Nat) (sat : Bool) : Nat :=
  let toMax := sat || rnd = rTZ || (rnd = rDN && !neg) || (rnd = rUP && neg)
  if toMax then F.enc neg F.maxEnc
  else match F.spec with
    | .ieee => F.enc neg F.infEnc
    | _ => F.nan

/-- `round_to` into a floating format. -/
def FFmt.round (F : FFmt) (rnd : Nat) (sat ftz : Bool) (rbits : Nat) (v : Val) : Nat × Fl :=
  match v with
  | .nan => (F.nan, 0)
  | .inf s => match F.spec with
    | .ieee => (F.enc s F.infEnc, 0)
    | _ => if sat then (F.enc s F.maxEnc, flOF) else (F.nan, flNV)
  | .fin d =>
    if d.n = 0 then (F.enc d.neg 0, 0)
    else
      let L := d.floorLog2
      let q := max L (1 - F.bias) - F.fb
      let (k, up, pos) := roundAt d q rnd rbits
      let m := k + (if up then 1 else 0)
      let mag := if m < 2 ^ F.fb then m else (q + F.fb + F.bias).toNat * 2 ^ F.fb + (m - 2 ^ F.fb)
      let f : Fl := if pos then flNX else 0
      if F.maxEnc < mag then (F.overflow d.neg rnd sat, f ||| flOF ||| flNX)
      else
        let f := if L < 1 - F.bias ∧ pos then f ||| flUF else f
        if ftz ∧ 0 < m ∧ mag < 2 ^ F.fb then (F.enc d.neg 0, f ||| flUF ||| flNX)
        else (F.enc d.neg mag, f)

/-- The range of an integer format of width w. -/
def intMin (w : Nat) (uns : Bool) : Int := if uns then 0 else -(2 : Int) ^ (w - 1)
def intMax (w : Nat) (uns : Bool) : Int := if uns then (2 : Int) ^ w - 1 else (2 : Int) ^ (w - 1) - 1

/-- Place an exact integer by the integer row of Table 3.5 (R166). -/
def placeInt (w : Nat) (uns sat : Bool) (i : Int) : Nat × Fl :=
  if i < intMin w uns then (if sat then (wrapInt (intMin w uns) w, flOF ||| flNX) else (wrapInt i w, flOF))
  else if intMax w uns < i then (if sat then (wrapInt (intMax w uns) w, flOF ||| flNX) else (wrapInt i w, flOF))
  else (wrapInt i w, 0)

/-- `round_to` into a fixed-point target of width w with step 2^q. -/
def roundInt (w : Nat) (q : Int) (uns : Bool) (rnd : Nat) (sat : Bool) (rbits : Nat) (v : Val) : Nat × Fl :=
  match v with
  | .nan => (0, flNV)
  | .inf s => if sat then (wrapInt (if s then intMin w uns else intMax w uns) w, flOF) else (0, flNV)
  | .fin d =>
    let (k, up, pos) := roundAt d q rnd rbits
    let m : Int := (k + (if up then 1 else 0) : Nat)
    let (r, f) := placeInt w uns sat (if d.neg then -m else m)
    (r, f ||| (if pos then flNX else 0))

/-- `round_to` into a format code (element values for MX codes). -/
def roundTo (code : Nat) (uns : Bool) (rnd : Nat) (sat ftz : Bool) (rbits : Nat) (v : Val) : Nat × Fl :=
  match ffmt code with
  | some F => F.round rnd sat ftz rbits v
  | none => if code = 10 then roundInt 8 (-6) false rnd sat rbits v
            else roundInt (fmtWidth code) 0 uns rnd sat rbits v

/-- The largest finite value of a destination, for R133. -/
def maxFinite (code : Nat) (uns : Bool) : Val :=
  match ffmt code with
  | some F => F.decode false F.maxEnc
  | none => if code = 10 then .fin ⟨false, 127, -6, false⟩ else Val.ofInt (intMax (fmtWidth code) uns)

/-! ### Stochastic rounding (R123, R124) -/

def mix64 (z : W64) : W64 :=
  let z := (z ^^^ (z >>> 30)) * 0xBF58476D1CE4E5B9#64
  let z := (z ^^^ (z >>> 27)) * 0x94D049BB133111EB#64
  z ^^^ (z >>> 31)

/-- `H(j, seed, tensor_id, step, index)`. -/
def srHash (j : Nat) (seed : W64) (tid : BitVec 16) (step : W32) (index : Nat) : W64 :=
  let y : W64 := BitVec.ofNat 16 j ++ step ++ tid
  mix64 (BitVec.ofNat 64 index ^^^ mix64 (y ^^^ seed))

/-- What the hash takes from the instruction. -/
structure SrCtx where
  seed : W64
  tid : BitVec 16
  step : W32
  deriving DecidableEq, Repr

/-- rbits of rounding number k of the element of linear index `index` (R123). -/
def SrCtx.rbits (c : SrCtx) (k index : Nat) : Nat :=
  bitsOf (srHash (k / 4) c.seed c.tid c.step index).toNat (16 * (k % 4)) 16

/-- rbits where the mode is SR, 0 otherwise. -/
def SrCtx.bitsFor (c : SrCtx) (rnd k index : Nat) : Nat := if rnd = rSR then c.rbits k index else 0

/-! ### FP32 helpers -/

/-- An FP32 encoding as a value. -/
def ofF32 (w : W32) : Val := decodeElem 0 false false w.toNat
/-- The same, a subnormal read as zero where `ftz`. -/
def ofF32z (ftz : Bool) (w : W32) : Val := decodeElem 0 false ftz w.toNat
/-- An FP32 word as R116 reads it: under FTZ a subnormal word is the zero of its sign, every other word stands. -/
def ftz32 (ftz : Bool) (w : W32) : W32 := if ftz && w.toNat / 2 ^ 23 % 256 = 0 then w &&& 0x8000_0000#32 else w
/-- An FP32 result under FTZ, with the flags of a flush (R116). -/
def flushed (ftz : Bool) (w : W32) : W32 × Fl :=
  let z := ftz32 ftz w
  (z, if z = w then 0 else flUF ||| flNX)
def f32nan : W32 := 0x7FC0_0000#32
def f32inf (neg : Bool) : W32 := if neg then 0xFF80_0000#32 else 0x7F80_0000#32

/-- Round into FP32 under RNE. -/
def toF32 (sat ftz : Bool) (v : Val) : W32 × Fl :=
  let (b, f) := roundTo 0 false rNE sat ftz 0 v
  (BitVec.ofNat 32 b, f)

def withFl (x : Val × Fl) (sat ftz : Bool) : W32 × Fl :=
  let (r, f) := toF32 sat ftz x.1
  (r, x.2 ||| f)

/-- One FP32 operation rounded once under RNE (R189). -/
def mulX (sat ftz : Bool) (a b : W32) : W32 × Fl := withFl ((ofF32 a).mul (ofF32 b)) sat ftz
def addX (sat ftz : Bool) (a b : W32) : W32 × Fl := withFl ((ofF32 a).add false (ofF32 b)) sat ftz
def subX (sat ftz : Bool) (a b : W32) : W32 × Fl := withFl ((ofF32 a).add false (ofF32 b).negate) sat ftz
def fmaX (sat ftz : Bool) (a b c : W32) : W32 × Fl := withFl (Val.fma false (ofF32 a) (ofF32 b) (ofF32 c)) sat ftz
/-- c − a × b. -/
def fnmaX (sat ftz : Bool) (a b c : W32) : W32 × Fl := withFl (Val.fma false (ofF32 a).negate (ofF32 b) (ofF32 c)) sat ftz
/-- FP32 copies of the sign operations. -/
def absF (a : W32) : W32 := a &&& 0x7FFF_FFFF#32
def negF (a : W32) : W32 := a ^^^ 0x8000_0000#32
def copysignF (a b : W32) : W32 := absF a ||| (b &&& 0x8000_0000#32)
def ltF (a b : W32) : Bool := Val.lt (ofF32 a) (ofF32 b)
/-- maximumNumber and minimumNumber of FP32 encodings; a NaN result is canonical. -/
def maxF (a b : W32) : W32 := (toF32 false false ((ofF32 a).maxN (ofF32 b))).1
def minF (a b : W32) : W32 := (toF32 false false ((ofF32 a).minN (ofF32 b))).1

/-! ### Scales (R114, R127) -/

/-- The factor exponent of a scale byte; none for the scale NaN 0xFF. -/
def scaleExp (b : Nat) : Option Int := if b = 255 then none else some ((b : Int) - 127)

/-- Apply a source scale byte: 0xFF gives a NaN with NV and SC_NAN (R114). -/
def Val.withScale (v : Val) (b : Nat) : Val × Fl :=
  match scaleExp b with
  | none => (.nan, flNV ||| flScNan)
  | some k => (v.scale k, 0)

/-- Table 3.7. -/
def emax (code : Nat) (uns : Bool) : Int :=
  match code with
  | 3 => 8 | 5 => 8 | 4 => 15 | 6 => 15 | 7 => 4 | 8 => 2 | 9 => 2 | 10 => 0
  | 13 => if uns then 7 else 6
  | 14 => if uns then 3 else 2
  | _ => 0

/-- The scale byte for L (R127). -/
def scaleByte (L : Int) (code : Nat) (uns : Bool) : Nat := (max (-127) (min 127 (L - emax code uns)) + 127).toNat

/-- The amax of values: the largest magnitude, NaN ignored, 0 without a number (R129). -/
def amaxOf (vs : List Val) : Val :=
  vs.foldl (fun a v => if v.isNan then a else if Val.lt a v.abs then v.abs else a) (Val.zero false)

/-- An amax as an FP32 history entry: an integer magnitude is rounded with RUP (R136), and so is any other that FP32 cannot
hold, which the spec leaves open (log 56). -/
def amaxEntry (v : Val) : W32 := BitVec.ofNat 32 (roundTo 0 false rUP false false 0 v).1

/-- `fcst_L` over the non-NaN entries, oldest first. -/
def fcstL (L : List Int) (margin : Nat) : Int :=
  let last := L.getLast?.getD (-150)
  let first := L.headD (-150)
  let n := L.length
  let g : Int := if 2 ≤ n ∧ first < last then (cdiv (last - first).toNat (n - 1) : Nat) else 0
  max (last + g) (L.foldl max (-150)) + margin

/-- `apply_scale` of R142, with its flags. -/
def applyScale (S : Val) (sa sb : Nat) (sat ftz : Bool) : W32 × Fl :=
  match scaleExp sa, scaleExp sb with
  | some a, some b =>
    let v := S.scale (a + b)
    let (r, f) := toF32 sat ftz v
    let nz := !S.isZero && !S.isNan
    let big := !Val.lt v.abs (.fin ⟨false, 2 ^ 25 - 1, 103, false⟩)
    (r, f ||| (if nz && big then flCsOvf else 0) ||| (if nz && absF r = 0 then flCsUf else 0))
  | _, _ => (f32nan, flNV ||| flScNan)

end Sys2Proof.Machine
end

