-- ==== Sys2Proof/Machine/Prim.lean ====
section
/-! DEFINITION. The special-function primitives and the composite sequences (04 R187 to R196). -/

namespace Sys2Proof.Machine

/-! ### Exact values of the primitives, to far more bits than one FP32 rounding uses -/

/-- `floor(sqrt n)`, built bit by bit from bit `k` down. -/
def isqrtFrom (n : Nat) : Nat → Nat → Nat
  | 0, r => r
  | k + 1, r => isqrtFrom n k (if (r + 2 ^ k) * (r + 2 ^ k) ≤ n then r + 2 ^ k else r)

def isqrt (n : Nat) : Nat := isqrtFrom n (Nat.log2 n / 2 + 1) 0

/-- 1 / |d| for a non-zero number, with the sign of d. -/
def Dy.recip (d : Dy) : Dy :=
  let k := Nat.log2 d.n + 96
  ⟨d.neg, 2 ^ k / d.n, -(k : Int) - d.e, decide (2 ^ k % d.n ≠ 0)⟩

/-- √d for a positive number. -/
def Dy.sqrt (d : Dy) : Dy :=
  let j : Int := if (d.e - 160) % 2 = 0 then 160 else 161
  let x := d.n * pow2 j
  let r := isqrt x
  ⟨false, r, (d.e - j) / 2, decide (r * r ≠ x)⟩

/-- 1 / √d for a positive number. -/
def Dy.rsqrt (d : Dy) : Dy :=
  let odd := d.e % 2 ≠ 0
  let n := if odd then 2 * d.n else d.n
  let e := if odd then d.e - 1 else d.e
  let k := Nat.log2 n + 96
  let x := 2 ^ (2 * k)
  let r := isqrt (x / n)
  ⟨false, r, -(k : Int) - e / 2, decide (r * r * n ≠ x)⟩

/-- Fixed-point precision of the series, and ln 2 at that precision. -/
def fxP : Nat := 256
def fxLn2 : Nat := 0xb17217f7d1cf79abc9e3b39803f2f6af40f343267298b62d8a0d175b8baafa2b

/-- Σ y^j / j! from term `t` = y^j / j! on. -/
def expSeries (y : Nat) : Nat → Nat → Nat → Nat → Nat
  | 0, _, _, acc => acc
  | k + 1, j, t, acc => expSeries y k (j + 1) (t * y / 2 ^ fxP / (j + 1)) (acc + t)

/-- Σ z^(2j+1) / (2j+1) from term `t` = z^(2j+1) on. -/
def atanhSeries (z2 : Nat) : Nat → Nat → Nat → Nat → Nat
  | 0, _, _, acc => acc
  | k + 1, j, t, acc => atanhSeries z2 k (j + 1) (t * z2 / 2 ^ fxP) (acc + t / (2 * j + 1))

/-- A fixed-point magnitude whose lowest 40 bits are guard bits, as an inexact number. -/
def ofFixed (neg : Bool) (n : Nat) (e : Int) : Dy := ⟨neg, n / 2 ^ 40, e - fxP + 40, true⟩

/-- 2^d: exact for an integral d, else irrational. -/
def Dy.exp2 (d : Dy) : Dy :=
  let v := d.numAt (min d.e 0)
  let p := pow2 (-(min d.e 0))
  let i := v / (p : Int)
  let f := (v % (p : Int)).toNat
  if i < -2000 then ⟨false, 1, -2000, false⟩
  else if 2000 < i then ⟨false, 1, 2000, false⟩
  else if f = 0 then ⟨false, 1, i, false⟩
  else ofFixed false (expSeries (f * fxLn2 / p) 80 0 (2 ^ fxP) 0) i

/-- log2 d for a positive number: exact for a power of two, else irrational. -/
def Dy.log2 (d : Dy) : Dy :=
  let L := d.floorLog2
  let one := 2 ^ Nat.log2 d.n
  if d.n = one then ⟨decide (L < 0), L.natAbs, 0, false⟩
  else
    let z := (d.n - one) * 2 ^ fxP / (d.n + one)
    let s := 2 * atanhSeries (z * z / 2 ^ fxP) 90 0 z 0
    let m : Nat := s * 2 ^ fxP / fxLn2
    let t := L * (2 ^ fxP : Nat) + (m : Int)
    ofFixed (decide (t < 0)) t.natAbs 0

/-! ### Primitives on FP32 encodings (R187, R188, Table 4.9) -/

inductive PrimOp where
  | exp2
  | log2
  | rcp
  | rsqrt
  | sqrt
  deriving DecidableEq, Repr

/-- The exact result of a primitive, and NV where Table 4.9 says so. -/
def PrimOp.exact (p : PrimOp) (x : Val) : Val × Fl :=
  match p, x with
  | _, .nan => (.nan, 0)
  | .exp2, .inf s => (if s then .zero false else .inf false, 0)
  | .exp2, .fin d => (.fin d.exp2, 0)
  | .rcp, .inf s => (.zero s, 0)
  | .rcp, .fin d => (if d.n = 0 then .inf d.neg else .fin d.recip, 0)
  | .log2, .inf s => if s then (.nan, flNV) else (.inf false, 0)
  | .log2, .fin d => if d.n = 0 then (.inf true, 0) else if d.neg then (.nan, flNV) else (.fin d.log2, 0)
  | .rsqrt, .inf s => if s then (.nan, flNV) else (.zero false, 0)
  | .rsqrt, .fin d => if d.n = 0 then (.inf d.neg, 0) else if d.neg then (.nan, flNV) else (.fin d.rsqrt, 0)
  | .sqrt, .inf s => if s then (.nan, flNV) else (.inf false, 0)
  | .sqrt, .fin d => if d.n = 0 then (.zero d.neg, 0) else if d.neg then (.nan, flNV) else (.fin d.sqrt, 0)

/-- A primitive rounded once into FP32 under RNE, SAT and FTZ. -/
def primX (p : PrimOp) (sat ftz : Bool) (x : W32) : W32 × Fl := withFl (p.exact (ofF32 x)) sat ftz

/-! ### Internal helpers: SAT = 0, FTZ = 0, no flag (R190) -/

def fMul (a b : W32) : W32 := (mulX false false a b).1
def fAdd (a b : W32) : W32 := (addX false false a b).1
def fSub (a b : W32) : W32 := (subX false false a b).1
def fFma (a b c : W32) : W32 := (fmaX false false a b c).1
def fFnma (a b c : W32) : W32 := (fnmaX false false a b c).1
def fPrim (p : PrimOp) (a : W32) : W32 := (primX p false false a).1

/-- Round an exact number to an integral value; a zero keeps the operand's sign (R172). -/
def Val.rint (rnd rbits : Nat) : Val → Val × Fl
  | .fin d =>
    if d.n = 0 then (.fin d, 0)
    else
      let (k, up, pos) := roundAt d 0 rnd rbits
      (.fin ⟨d.neg, k + (if up then 1 else 0), 0, false⟩, if pos then flNX else 0)
  | v => (v, 0)

/-- `rint` of the sequences. -/
def fRint (a : W32) : W32 := (toF32 false false ((ofF32 a).rint rNE 0).1).1

/-- The integer that an integral FP32 value holds. -/
def intF (a : W32) : Int :=
  match ofF32 a with
  | .fin d => let n : Int := (d.n * pow2 d.e / pow2 (-d.e) : Nat); if d.neg then -n else n
  | _ => 0

/-! ### Constants (Table 4.10) -/

def K.one : W32 := 0x3F800000#32
def K.half : W32 := 0x3F000000#32
def K.log2e : W32 := 0x3FB8AA3B#32
def K.nlog2e : W32 := 0xBFB8AA3B#32
def K.m2log2e : W32 := 0xC038AA3B#32
def K.ln2 : W32 := 0x3F317218#32
def K.k1 : W32 := 0x3F4C422A#32
def K.k3 : W32 := 0x3D372713#32
def K.rsqrt2 : W32 := 0x3F3504F3#32
def K.twoPiInv : W32 := 0x3F22F983#32
def K.pio2Hi : W32 := 0x3FC90FDB#32
def K.pio2Lo : W32 := 0xB33BBD2E#32
def K.e0 : W32 := 0x3F906EBB#32
def K.e1 : W32 := 0xBEC093A3#32
def K.e2 : W32 := 0x3DE71791#32
def K.e3 : W32 := 0xBCDC1672#32
def K.e4 : W32 := 0x3BAB2DE7#32
def K.e5 : W32 := 0xBA6016DA#32
def K.p : W32 := 0x3EA7BA05#32
def K.a1 : W32 := 0x3E827906#32
def K.a2 : W32 := 0xBE91A98E#32
def K.a3 : W32 := 0x3FB5F0E3#32
def K.a4 : W32 := 0xBFBA00E3#32
def K.a5 : W32 := 0x3F87DC22#32
def K.s1 : W32 := 0xBE2AAAAB#32
def K.s2 : W32 := 0x3C088889#32
def K.s3 : W32 := 0xB9500D01#32
def K.s4 : W32 := 0x3638EF1D#32
def K.c1 : W32 := 0xBF000000#32
def K.c2 : W32 := 0x3D2AAAAB#32
def K.c3 : W32 := 0xBAB60B61#32
def K.c4 : W32 := 0x37D00D01#32
def K.c5 : W32 := 0xB493F27E#32
def K.tiny : W32 := 0x39800000#32

/-! ### The sequences (R194); `sat` and `ftz` act on the final step only -/

def seqExp (sat ftz : Bool) (x : W32) : W32 × Fl := primX .exp2 sat ftz (fMul x K.log2e)
def seqLog (sat ftz : Bool) (x : W32) : W32 × Fl := mulX sat ftz (fPrim .log2 x) K.ln2
def seqDiv (sat ftz : Bool) (a b : W32) : W32 × Fl := mulX sat ftz a (fPrim .rcp b)
def seqSigmoid (sat ftz : Bool) (x : W32) : W32 × Fl :=
  primX .rcp sat ftz (fAdd (fPrim .exp2 (fMul x K.nlog2e)) K.one)
def seqSilu (sat ftz : Bool) (x : W32) : W32 × Fl := mulX sat ftz x (seqSigmoid false false x).1

def seqTanh (sat ftz : Bool) (x : W32) : W32 × Fl :=
  let a := absF x
  let e := fPrim .exp2 (fMul a K.m2log2e)
  let m := mulX sat ftz (fSub K.one e) (fPrim .rcp (fAdd K.one e))
  if ltF a K.tiny then (x, 0) else (copysignF m.1 x, m.2)

def seqSoftplus (sat ftz : Bool) (x : W32) : W32 × Fl :=
  let e := fPrim .exp2 (fMul (absF x) K.nlog2e)
  addX sat ftz (maxF x 0) (fMul (fPrim .log2 (fAdd K.one e)) K.ln2)

def seqGeluT (sat ftz : Bool) (x : W32) : W32 × Fl :=
  let u := fMul x (fFma (fMul x x) K.k3 K.one)
  let t := (seqTanh false false (fMul u K.k1)).1
  let h := fMul x K.half
  fmaX sat ftz h t h

def seqErf (sat ftz : Bool) (x : W32) : W32 × Fl :=
  let w := fMul x x
  let q := fFma w K.e5 K.e4
  let q := fFma w q K.e3
  let q := fFma w q K.e2
  let q := fFma w q K.e1
  let q := fFma w q K.e0
  let small := mulX sat ftz x q
  let a := absF x
  let t := fPrim .rcp (fFma a K.p K.one)
  let p := fFma t K.a5 K.a4
  let p := fFma t p K.a3
  let p := fFma t p K.a2
  let p := fFma t p K.a1
  let p := fMul p t
  let e := fPrim .exp2 (fMul w K.nlog2e)
  let large := fnmaX sat ftz p e K.one
  if ltF a K.half then small else (copysignF large.1 x, large.2)

def seqGeluE (sat ftz : Bool) (x : W32) : W32 × Fl :=
  let g := (seqErf false false (fMul x K.rsqrt2)).1
  let h := fMul x K.half
  fmaX sat ftz h g h

/-- c = 0 sine, c = 1 cosine. -/
def seqSincos (c : Int) (sat ftz : Bool) (x : W32) : W32 × Fl :=
  let k := fRint (fMul x K.twoPiInv)
  let r := fFnma k K.pio2Hi x
  let r := fFnma k K.pio2Lo r
  let w := fMul r r
  let p := fFma w K.s4 K.s3
  let p := fFma w p K.s2
  let p := fFma w p K.s1
  let sv := fmaX sat ftz (fMul w r) p r
  let p := fFma w K.c5 K.c4
  let p := fFma w p K.c3
  let p := fFma w p K.c2
  let p := fFma w p K.c1
  let cv := fmaX sat ftz w p K.one
  let q := (intF k + c) % 4
  let v := if q = 0 ∨ q = 2 then sv else cv
  if 2 ≤ q then (negF v.1, v.2) else v

/-! ### Special functions by FN (Table 4.8) -/

/-- FN[6:0] values of OPC 0x18. -/
def sfuListed (f : Nat) : Bool := decide (f ≤ 4 ∨ 8 ≤ f ∧ f ≤ 19)

/-- The primitive that FN names. -/
def sfuPrim (f : Nat) : Option PrimOp :=
  match f with
  | 0 => some .exp2 | 1 => some .log2 | 2 => some .rcp | 3 => some .rsqrt | 4 => some .sqrt | _ => none

/-- The FP32 result of a special function of x (and b for DIV), FTZ acting on the inputs first (R191); Table 4.11's
rows are decided in order (R196). -/
def sfu (f : Nat) (sat ftz : Bool) (x0 b0 : W32) : W32 × Fl :=
  let vx := ofF32z ftz x0
  let vb := ofF32z ftz b0
  let x := (toF32 false false vx).1
  let b := (toF32 false false vb).1
  match sfuPrim f with
  | some p => primX p sat ftz x
  | none =>
    if vx.isNan || (f = 19 && vb.isNan) then (f32nan, 0)
    else if f = 9 ∧ Val.lt vx (.zero false) then (f32nan, flNV)
    else if (f = 16 ∨ f = 17) ∧ !Val.lt vx.abs (.fin ⟨false, 65536, 0, false⟩) then (f32nan, flNV)
    else if (f = 12 ∨ f = 13 ∨ f = 14) ∧ vx = .inf true then (0x8000_0000#32, 0)
    else if f = 16 ∧ vx.isZero then (x, 0)
    else match f with
      | 8 => seqExp sat ftz x
      | 9 => seqLog sat ftz x
      | 10 => seqSigmoid sat ftz x
      | 11 => seqTanh sat ftz x
      | 12 => seqGeluT sat ftz x
      | 13 => seqGeluE sat ftz x
      | 14 => seqSilu sat ftz x
      | 15 => seqSoftplus sat ftz x
      | 16 => seqSincos 0 sat ftz x
      | 17 => seqSincos 1 sat ftz x
      | 18 => seqErf sat ftz x
      | _ => seqDiv sat ftz x b

end Sys2Proof.Machine
end

