-- ==== Sys2Proof/Machine/Operands.lean ====
section
/-! DEFINITION. Every operand form: descriptors (02 R53 to R56), the four layouts (08 R318 to R326), tiles and their lines
(R319), predicate lanes (R57), reading elements and writing destinations with their poison (R199, R357). -/

namespace Sys2Proof.Machine

/-! ### Descriptors (Table 2.4) -/

/-- A descriptor from its 256 bits. -/
def Desc.ofBits (b : BitVec 256) : Desc where
  base := b.extractLsb' 0 48
  format := b.extractLsb' 48 4
  layout := b.extractLsb' 52 3
  rank := b.extractLsb' 55 2
  dim0 := b.extractLsb' 57 20
  dim1 := b.extractLsb' 77 20
  dim2 := b.extractLsb' 97 20
  dim3 := b.extractLsb' 117 20
  pitch1 := b.extractLsb' 137 32
  pitch2 := b.extractLsb' 169 32
  pitch3 := b.extractLsb' 201 32
  writeDrop := b.getLsbD 233
  tensorId := b.extractLsb' 234 16
  resv := b.extractLsb' 250 6

def Desc.fmt (d : Desc) : Nat := d.format.toNat
def Desc.w (d : Desc) : Nat := fmtWidth d.fmt
def Desc.rk (d : Desc) : Nat := d.rank.toNat + 1
def Desc.at_ (d : Desc) : Nat := d.base.toNat
/-- Size of dimension `a`. -/
def Desc.n (d : Desc) (a : Nat) : Nat :=
  match a with
  | 0 => d.dim0.toNat + 1 | 1 => d.dim1.toNat + 1 | 2 => d.dim2.toNat + 1 | _ => d.dim3.toNat + 1
def Desc.shape (d : Desc) : List Nat := [d.n 0, d.n 1, d.n 2, d.n 3]
def Desc.pitch (d : Desc) (a : Nat) : Nat :=
  match a with
  | 1 => d.pitch1.toNat | 2 => d.pitch2.toNat | 3 => d.pitch3.toNat | _ => 0
/-- Elements of the tensor. -/
def Desc.count (d : Desc) : Nat := d.n 0 * d.n 1 * d.n 2 * d.n 3
/-- Same rank and dimensions. -/
def Desc.sameShape (a b : Desc) : Bool := a.rank = b.rank && a.shape = b.shape

/-- Elements per BLOCKED tile row (Table 8.1). -/
def Desc.eRow (d : Desc) : Nat :=
  match d.w with
  | 32 => 32 | 16 => 64 | 8 => 128 | 6 => 160 | 4 => 256 | _ => 32
def Desc.w0 (d : Desc) : Nat := cdiv (d.n 0 * d.w) 32
def Desc.tileCols (d : Desc) : Nat := cdiv (d.n 0) d.eRow
def Desc.tileRows (d : Desc) : Nat := cdiv (d.n 1) 32
def Desc.superRows (d : Desc) : Nat := cdiv d.tileRows 8
def Desc.qk (d : Desc) : Nat := cdiv (cdiv (d.n 0 * d.w) 8) 16
def Desc.kw (d : Desc) : Nat := cdiv (d.n 0) (32 / d.w)

/-- An element's index. -/
structure Ix where
  i0 : Nat
  i1 : Nat
  i2 : Nat
  i3 : Nat
  deriving DecidableEq, Repr

def Ix.get (x : Ix) (a : Nat) : Nat := match a with | 0 => x.i0 | 1 => x.i1 | 2 => x.i2 | _ => x.i3
def Ix.ofFn (f : Nat → Nat) : Ix := ⟨f 0, f 1, f 2, f 3⟩

/-- Every index of the shape (n0, n1, n2, n3) in linear index order (R124). -/
def ixsOf (n0 n1 n2 n3 : Nat) : List Ix :=
  (List.range n3).flatMap fun c => (List.range n2).flatMap fun b => (List.range n1).flatMap fun a =>
    (List.range n0).map fun i => ⟨i, a, b, c⟩
def Desc.ixs (d : Desc) : List Ix := ixsOf (d.n 0) (d.n 1) (d.n 2) (d.n 3)
/-- The linear index (R124). -/
def Desc.lin (d : Desc) (x : Ix) : Nat := x.i0 + d.n 0 * (x.i1 + d.n 1 * (x.i2 + d.n 2 * x.i3))
/-- The index a broadcast source is read at (R159). -/
def Desc.bcast (d : Desc) (x : Ix) : Ix := Ix.ofFn (fun a => if d.n a = 1 then 0 else x.get a)

/-- The bit address of an element: 8 × byte address + bit in the byte (R109, R320 to R323). -/
def Desc.bitAddr (d : Desc) (x : Ix) : Nat :=
  let w := d.w
  match d.layout.toNat with
  | 1 =>
    let E := d.eRow
    let tx := x.i0 / E
    let c := x.i0 % E
    let ty := x.i1 / 32
    let r := x.i1 % 32
    let sy := ty / 8
    let y := ty % 8
    let sx := tx / 8
    let xx := tx % 8
    let h := min 8 (d.tileRows - 8 * sy)
    let wd := min 8 (d.tileCols - 8 * sx)
    let k := 8 * sx * h + y * wd + xx
    8 * (d.at_ + 4 * (sy * d.pitch 1 + x.i2 * d.pitch 2 + x.i3 * d.pitch 3) + 4096 * k + 128 * r) + w * c
  | 2 =>
    let b := w * x.i0 / 8
    8 * (d.at_ + 4 * (x.i1 / 8 * d.pitch 1 + x.i2 * d.pitch 2) + 128 * (b / 16) + 16 * (x.i1 % 8) + b % 16)
  | 3 =>
    let e := 32 / w
    8 * (d.at_ + 4 * (x.i1 / 32 * d.pitch 1 + x.i2 * d.pitch 2) + 128 * (x.i0 / e) + 4 * (x.i1 % 32)) + w * (x.i0 % e)
  | _ => 8 * (d.at_ + 4 * (x.i1 * d.pitch 1 + x.i2 * d.pitch 2 + x.i3 * d.pitch 3)) + w * x.i0

/-! ### Validity (R53, R54, R324, R325) -/

def Desc.units1 (d : Desc) : Nat :=
  match d.layout.toNat with
  | 1 => d.superRows | 2 => cdiv (d.n 1) 8 | 3 => cdiv (d.n 1) 32 | _ => d.n 1

/-- Bytes of the last unit (Table 8.2). -/
def Desc.lastX (d : Desc) : Nat :=
  match d.layout.toNat with
  | 1 => 4096 * d.tileCols * (d.tileRows - 8 * (d.superRows - 1))
  | 2 => 128 * d.qk
  | 3 => 128 * d.kw
  | _ => cdiv (d.n 0 * d.w) 8

/-- Bytes of the extent (R325). -/
def Desc.extent (d : Desc) : Nat :=
  4 * ((if 2 ≤ d.rk then (d.units1 - 1) * d.pitch 1 else 0) + (if 3 ≤ d.rk then (d.n 2 - 1) * d.pitch 2 else 0)
    + (if 4 ≤ d.rk then (d.n 3 - 1) * d.pitch 3 else 0)) + d.lastX
def Desc.hi (d : Desc) : Nat := d.at_ + d.extent

/-- The least pitches of Table 8.2. -/
def Desc.minPitch (d : Desc) (a : Nat) : Nat :=
  match d.layout.toNat, a with
  | 0, 1 => d.w0 | 0, 2 => d.n 1 * d.pitch 1 | 0, _ => d.n 2 * d.pitch 2
  | 1, 1 => 8192 * d.tileCols | 1, 2 => d.superRows * d.pitch 1 | 1, _ => d.n 2 * d.pitch 2
  | 2, 1 => 32 * d.qk | 2, _ => cdiv (d.n 1) 8 * d.pitch 1
  | _, 1 => 32 * d.kw | _, _ => cdiv (d.n 1) 32 * d.pitch 1

/-- R53 and R324 but for the base and the region. -/
def Desc.valid (d : Desc) : Bool :=
  d.layout.toNat ≤ 3 && d.fmt ≤ 14 && d.resv = 0
  && [1, 2, 3].all (fun a => a < d.rk || (d.n a = 1 && d.pitch a = 0))
  && (d.layout.toNat < 2 || (d.fmt ≤ 4 && (d.rk = 2 || d.rk = 3)))
  && [1, 2, 3].all (fun a => !decide (a < d.rk) ||
      (d.minPitch a ≤ d.pitch a && (d.layout = 0 || d.pitch a % 32 = 0)))

/-- Regions of Table 2.5. -/
inductive Region where
  | spad
  | package
  | remote
  | host
  deriving DecidableEq, Repr

/-- The region the base lies in. -/
def Desc.region (d : Desc) : Option Region :=
  let b := d.at_
  if b < Config.spadSize then some .spad
  else if Config.pkgBase ≤ b ∧ b < Config.pkgEnd then some .package
  else if Config.remoteBase ≤ b ∧ b < Config.remoteEnd then some .remote
  else if Config.hostBase ≤ b ∧ b < Config.hostEnd then some .host else none

def Desc.inSpad (d : Desc) : Bool := d.region = some .spad

/-- The whole extent lies within one region, of those allowed (R53, R56). -/
def State.inRegion (s : State) (d : Desc) (allowed : List Region) : Bool :=
  match d.region with
  | none => false
  | some r => allowed.contains r && (match r with
    | .spad => decide (d.hi ≤ s.yardBase)
    | .package => decide (d.hi ≤ Config.pkgEnd)
    | .remote => decide (d.at_ / 2 ^ 27 = (d.hi - 1) / 2 ^ 27)
    | .host => decide (d.hi ≤ Config.hostEnd))

/-- The base keeps R54 and Table 8.2. -/
def Desc.baseOk (d : Desc) : Bool :=
  if d.layout = 0 then (!d.inSpad || d.at_ % 4 = 0) else d.at_ % 128 = 0

/-- An operand: its role (operand code of info format A), descriptor number, descriptor. -/
structure Opnd where
  role : Nat
  num : Nat
  d : Desc
  deriving DecidableEq, Repr

/-- A failed check: fault code and info word. -/
abbrev Flt := Nat × W64

/-- The first `n` slots of a group are all served. -/
def State.allServed (s : State) (kind grp n : Nat) : Bool := (List.range n).all (fun i => (s.serving kind grp i).isSome)

/-- A platform with its district is in service: every bank slot and every DPU slot is served (R584). -/
def State.platformOk (s : State) (p : Nat) : Bool := s.allServed 1 p 64 && s.allServed 2 p 8

/-- Districts in service (R380, R584): in LIMP all but those that left service with a bank or a DPU. -/
def State.districtOk (s : State) (k : Nat) : Bool := !s.svc.limp || s.platformOk k

/-- Groups an extent touches. -/
def Desc.groups (d : Desc) : List Nat := strided (groupOf d.at_) 1 (groupOf (d.hi - 1) - groupOf d.at_ + 1)
/-- The first byte of the extent in group `g`. -/
def Desc.firstIn (d : Desc) (g : Nat) : Nat := max d.at_ (g * 2 ^ 21)

/-- Head-of-issue checks of one operand (R53, R54, R56, R324, R543). -/
def State.checkOpnd (s : State) (w : InsWord) (allowed : List Region) (o : Opnd) : List Flt :=
  (if o.d.valid then [] else [(0x1002, w.low64)])
  ++ (if o.d.baseOk then [] else [(0x2002, infoA false o.role o.num o.d.at_)])
  ++ (if s.inRegion o.d allowed then [] else [(0x2001, infoA false o.role o.num o.d.at_)])
  ++ (if s.svc.limp && o.d.inSpad then
        ((o.d.groups.filter (fun g => !s.districtOk (g / 2))).take 1).map
          (fun g => (0x2004, infoA false o.role o.num (o.d.firstIn g)))
      else [])

/-- The order of R518 at head of issue. -/
def hoiOrder : List Nat := [0x1001, 0x1002, 0x1005, 0x1006, 0x2002, 0x2001, 0x2004, 0x6001]

/-- The code's info word has format A (Table 14.2). -/
def formatA (c : Nat) : Bool := c = 0x2001 || c = 0x2002 || c = 0x2004

/-- Of the failures of one check on one descriptor, the one that names the lowest operand code (R520). -/
def lowestRole (fs : List Flt) (f : Flt) : Flt :=
  if formatA f.1 then
    (fs.filter (fun g => decide (g.1 = f.1 ∧ g.2.setWidth 56 = f.2.setWidth 56))).foldl
      (fun b g => if g.2.toNat < b.2.toNat then g else b) f
  else f

/-- The first failing check (R518), with the lowest operand code where it fails for one descriptor in several roles (R520). -/
def firstFlt (fs : List Flt) : Option Flt := ((hoiOrder.filterMap (fun c => fs.find? (·.1 = c))).head?).map (lowestRole fs)

/-- Two scratchpad extents overlap. -/
def Desc.overlaps (a b : Desc) : Bool := decide (a.at_ < b.hi ∧ b.at_ < a.hi)
/-- Two tensors share a bit that both hold as an element's. -/
def Desc.meets (a b : Desc) : Bool :=
  a.overlaps b && a.ixs.any (fun x => b.ixs.any (fun y =>
    decide (a.bitAddr x < b.bitAddr y + b.w ∧ b.bitAddr y < a.bitAddr x + a.w)))
/-- Two descriptors coincide exactly (R99): each element of one has the bits of the element of the other at the same position. Their format
codes may differ (R164, R167), where the width is the same (log 67). -/
def Desc.coincides (a b : Desc) : Bool :=
  a.at_ = b.at_ && a.w = b.w && a.layout = b.layout && a.sameShape b && [1, 2, 3].all (fun k => a.pitch k = b.pitch k)

/-! ### Tiles (R319) -/

/-- The tiles that hold an element: one, or two where it spans two words. -/
def Desc.tilesOf (d : Desc) (x : Ix) : List Tile :=
  if d.layout = 1 then [⟨x.i1 / 32, x.i0 / d.eRow, x.i2, x.i3⟩]
  else
    let a := d.w * x.i0 / 1024
    let b := (d.w * x.i0 + d.w - 1) / 1024
    if a = b then [⟨x.i1 / 32, a, x.i2, x.i3⟩] else [⟨x.i1 / 32, a, x.i2, x.i3⟩, ⟨x.i1 / 32, b, x.i2, x.i3⟩]

/-- Lines of a byte range [lo, hi). -/
def linesIn (lo hi : Nat) : List Nat :=
  if hi ≤ lo then [] else (strided (lo / 128) 1 ((hi - 1) / 128 - lo / 128 + 1)).map (· * 128)

/-- Rows of a tile within the tensor. -/
def Desc.tileI1 (d : Desc) (t : Tile) : List Nat := strided (32 * t.tr) 1 (min 32 (d.n 1 - 32 * t.tr))

/-- The lines of a tile. -/
def Desc.tileLines (d : Desc) (t : Tile) : List Nat :=
  match d.layout.toNat with
  | 1 => let a := d.bitAddr ⟨t.tc * d.eRow, 32 * t.tr, t.i2, t.i3⟩ / 8
         strided a 128 32
  | 0 => (d.tileI1 t).flatMap (fun i1 =>
      let row := d.bitAddr ⟨0, i1, t.i2, t.i3⟩ / 8
      linesIn (row + 128 * t.tc) (row + min (128 * (t.tc + 1)) (cdiv (d.n 0 * d.w) 8)))
  | _ => (d.tileI1 t).flatMap (fun i1 =>
      (strided (1024 * t.tc / d.w) 1 (min (1024 / d.w) (d.n 0 - 1024 * t.tc / d.w))).map (fun i0 =>
        lineOf (d.bitAddr ⟨i0, i1, t.i2, t.i3⟩ / 8)))

/-- Every tile of the tensor. -/
def Desc.tiles (d : Desc) : List Tile :=
  let cols := if d.layout = 1 then d.tileCols else cdiv (d.n 0 * d.w) 1024
  (ixsOf cols d.tileRows (d.n 2) (d.n 3)).map (fun x => ⟨x.i1, x.i0, x.i2, x.i3⟩)

/-- The number of tiles of the destination grid (R62). -/
def Desc.tileCount (d : Desc) : Nat :=
  (if d.layout = 1 then d.tileCols else cdiv (d.n 0 * d.w) 1024) * d.tileRows * d.n 2 * d.n 3

/-- The line lies in a tile of the tensor. -/
def Desc.hasLine (d : Desc) (l : Nat) : Bool :=
  decide (lineOf d.at_ ≤ l ∧ l < d.hi) && d.tiles.any (fun t => (d.tileLines t).contains l)

/-- The lines of the scratchpad whose poison bit is set, in increasing address. -/
def Spad.psnLines (sp : Spad) : List Nat := (sp.poison.filter (fun p => majority p.2)).map (·.1)

/-- A tile holds a poisoned line. -/
def State.tilePsn (s : State) (d : Desc) (t : Tile) : Bool := s.sp.psnLines.any (fun l => (d.tileLines t).contains l)
/-- A tile that holds the element holds a poisoned line. -/
def State.elemPsn (s : State) (d : Desc) (x : Ix) : Bool := (d.tilesOf x).any (s.tilePsn d)
/-- Any line of the tensor is poisoned. -/
def State.anyPsn (s : State) (d : Desc) : Bool := s.sp.psnLines.any d.hasLine

/-! ### Elements -/

/-- The stored bits of an element. -/
def State.raw (s : State) (d : Desc) (x : Ix) : Nat := s.sp.mem.readBits (d.bitAddr x) d.w
/-- The value of an element, before any scale. -/
def State.elem (s : State) (d : Desc) (uns ftz : Bool) (x : Ix) : Val := decodeElem d.fmt uns ftz (s.raw d x)

/-- The lane of an element (R57). -/
def Desc.lane (d : Desc) (x : Ix) : Nat :=
  if d.layout = 1 then d.w * (x.i0 % d.eRow) / 32 else d.w * x.i0 / 32 % 32
/-- A predicate register of a copied file; p0 reads all-ones (R58). -/
def predOf (ps : AL W32) (i : Nat) : W32 := if i = 0 then 0xFFFF_FFFF#32 else AL.getD ps i 0
/-- The predicate lets the element be written: PRED's register as it stood when the instruction was issued, so that no timing
changes what is stored (R28, R57, log 54). -/
def QEntry.gate (q : QEntry) (d : Desc) (x : Ix) : Bool := (predOf q.preds q.w.pred.toNat).getLsbD (d.lane x)

/-- One element of a destination and its new bits. -/
def Desc.bitW (d : Desc) (x : Ix) (v : Nat) : BitW := ⟨d.bitAddr x, d.w, v⟩

/-- The line that holds an element's first bit, and the line of its last. -/
def Desc.elemLines (d : Desc) (x : Ix) : List Nat := BitW.lines (d.bitW x 0)

/-- The lines that hold the elements `xs` of the tensor, rising. -/
def Desc.linesOf (d : Desc) (xs : List Ix) : List Nat := (xs.flatMap d.elemLines).foldl insNat []

/-- Bits of the tensor's elements on a line. -/
def Desc.bitsOn (d : Desc) (l : Nat) : Nat :=
  (d.ixs.map (fun x => (d.bitW x 0).overlap (8 * l) (8 * l + 1024))).sum

/-- Bits of line `l` that the writes cover. -/
def coverOn (bws : List BitW) (l : Nat) : Nat := (bws.map (fun b => b.overlap (8 * l) (8 * l + 1024))).sum

/-- An uncorrectable error stands in a word of line `l` that holds elements of the tensor and that these writes do not touch. -/
def State.decayLeft (s : State) (d : Desc) (bws : List BitW) (l : Nat) : Bool :=
  s.sp.decay.any (fun e =>
    let on := fun (b : BitW) => decide (0 < b.overlap (8 * e.1) (8 * e.1 + 64))
    e.2 && decide (lineOf e.1 = l) && !bws.any on && d.ixs.any (fun x => on (d.bitW x 0)))

/-- Make an instruction's writes into tensor `d`; `before l` bits of a line come from earlier writes of the same instruction. A line
takes `bad`. Where the instruction has not written all of it that holds an element, or a word it wrote before has decayed since,
the line keeps its old bit as well: R357 over the second sentence of R199, as R522 has it (log 70). Under POISON_OK the lines are
written unpoisoned (R43). -/
def State.putLines (s : State) (d : Desc) (bws : List BitW) (bad : Nat → Bool) (before : Nat → Nat) (poisonOk : Bool) : State :=
  s.store bws (fun l => bad l && !poisonOk) (fun l => !poisonOk
    && (decide (before l + coverOn bws l < d.bitsOn l) || (decide (0 < before l) && s.decayLeft d bws l)))

/-- Write elements of a destination at once; `bad` says which of its tiles are poisoned. A line that a poisoned tile shares with
an unpoisoned one is poisoned, the model's choice (log 69). -/
def State.putElems (s : State) (d : Desc) (ws : List (Ix × Nat)) (bad : Tile → Bool) (poisonOk : Bool) : State :=
  let psn := (((ws.flatMap (fun p => d.tilesOf p.1)).eraseDups).filter bad).flatMap d.tileLines
  s.putLines d (ws.map (fun p => d.bitW p.1 p.2)) psn.contains (fun _ => 0) poisonOk

/-- The tiles of the destination that the listed elements poison. -/
def badTiles (d : Desc) (bad : List Ix) : List Tile := (bad.flatMap d.tilesOf).eraseDups

/-! ### Lines sent to a port (R327, R328) -/

/-- The 128 bytes of a line of memory. -/
def State.lineBytes (s : State) (l : Nat) : List Byte := s.sp.mem.readBytes l 128

/-- The number of a line of an AINT or BINT operand, as if its pitches were the least (R327). -/
def Desc.lineNo (d : Desc) (grp line i2 : Nat) : Nat :=
  let per := if d.layout = 2 then d.qk else d.kw
  (i2 * d.units1 + grp) * per + line

end Sys2Proof.Machine
end

