-- ==== Sys2Proof/Machine/Chain.lean ====
section
/-! DEFINITION. Express-chain steps: encoding, validity, and evaluation on one element (07 R286 to R297); the fields of a
T.XPR and its streams (Tables 7.2 to 7.5). -/

namespace Sys2Proof.Machine

/-! ### Encoding (Table 7.7) -/

def stOp (w : W64) : Nat := bitsOf w.toNat 58 6
def stDst (w : W64) : Nat := bitsOf w.toNat 55 3
def stSa (w : W64) : Nat := bitsOf w.toNat 50 5
def stSb (w : W64) : Nat := bitsOf w.toNat 45 5
def stSc (w : W64) : Nat := bitsOf w.toNat 40 5
def stRnd (w : W64) : Nat := bitsOf w.toNat 37 3
def stSat (w : W64) : Bool := bitOf w.toNat 36
def stPred (w : W64) : Nat := bitsOf w.toNat 32 4
def stImm (w : W64) : W32 := w.setWidth 32

/-- The steps before the first END, at most 16 (R287). -/
def chainActive (c : List W64) : List W64 := (c.take 16).takeWhile (fun w => stOp w ≠ 0)

/-- How a step is made up (Table 7.8). -/
inductive StepKind where
  | rounds
  | func
  | exact
  | sel
  | compare
  | diag
  | smx
  | st
  deriving DecidableEq, Repr

/-- Kind and operand count of an op; none for a reserved one. -/
def stepKind (op : Nat) : Option (StepKind × Nat) :=
  if 1 ≤ op ∧ op ≤ 3 then some (.rounds, 2)
  else if op = 4 then some (.rounds, 3)
  else if op = 5 ∨ op = 6 then some (.exact, 2)
  else if op = 7 then some (.sel, 2)
  else if 8 ≤ op ∧ op ≤ 18 then some (.func, 1)
  else if 20 ≤ op ∧ op ≤ 22 then some (.compare, 2)
  else if op = 23 then some (.diag, 0)
  else if op = 32 then some (.smx, 1)
  else if op = 33 then some (.st, 1)
  else none

/-- The selectors a step reads. -/
def stepReads (w : W64) : List Nat :=
  match stepKind (stOp w) with
  | some (_, n) => [stSa w, stSb w, stSc w].take n
  | none => []

/-- The chain reads an operand selector. -/
def chainReads (c : List W64) (sel : Nat) : Bool := (chainActive c).any (fun w => (stepReads w).contains sel)
def chainSmx (c : List W64) : Bool := (chainActive c).any (fun w => stOp w = 32)
/-- The ST step: the last before END in a valid chain. -/
def chainSt (c : List W64) : W64 := ((chainActive c).find? (fun w => stOp w = 33)).getD 0
/-- The last step before END is an ST (R297). -/
def chainEndsSt (c : List W64) : Bool := (chainActive c).getLast?.any (fun w => stOp w = 33)

/-- A step breaks R289 to R291, has a reserved selector, or a non-zero field that its op does not use (R297). -/
def stepBad (w : W64) : Bool :=
  match stepKind (stOp w) with
  | none => true
  | some (k, n) =>
    let ops := [stSa w, stSb w, stSc w]
    let usesDst := k = .rounds || k = .func || k = .exact || k = .sel || k = .smx
    let usesRnd := k = .rounds || k = .st
    let usesSat := k = .rounds || k = .func || k = .st
    let usesImm := k = .diag || k = .st || (ops.take n).contains 8
    (ops.take n).any (fun s => decide (15 < s)) || (ops.drop n).any (· ≠ 0)
    || (!usesDst && stDst w ≠ 0) || (!usesRnd && stRnd w ≠ 0) || (!usesSat && stSat w) || (!usesImm && stImm w ≠ 0)
    || (usesRnd && (stRnd w = 5 || stRnd w = 6)) || ((k = .compare || k = .diag) && stPred w = 0)

/-- R297: `one` says that the chain belongs to stream 1. The rule's second bullet does not say that it means steps before the first END,
as its first does: what stands after the END step makes no chain invalid, the model's choice (log 93). -/
def chainBad (c : List W64) (one : Bool) : Bool :=
  let act := chainActive c
  let sts := act.filter (fun w => stOp w = 33)
  let smx := act.filter (fun w => stOp w = 32)
  act.any stepBad || decide (act.length < 16 ∧ (c.getD act.length 0 ≠ 0))
  || sts.length ≠ 1 || !chainEndsSt c || decide (1 < smx.length) || (one && !smx.isEmpty)

/-! ### Evaluation -/

/-- One element of a tile on its way through a chain: its chain registers, its lane's bits of p0 to p15, row and column, the
operands AUX, ROWV and COLV (each as stored, and as FTZ flushes it in its own format), its row's entry, the flags so far, and
what ST stores: value, rounding, saturate, step index. -/
structure Elem where
  c : List W32
  p : List Bool
  row : Nat
  col : Nat
  aux : W32 × W32
  rowv : W32 × W32
  colv : W32 × W32
  rs : W32 × W32 × W32
  fl : Fl
  out : Option (W32 × Nat × Bool × Nat)
  deriving DecidableEq, Repr

/-- An operand as stored (Table 7.9). -/
def Elem.operand (e : Elem) (sel : Nat) (imm : W32) : W32 :=
  if sel < 8 then e.c[sel]?.getD 0
  else match sel with
    | 8 => imm | 9 => e.rs.1 | 10 => e.rs.2.1 | 11 => e.rs.2.2 | 12 => e.aux.1 | 13 => e.rowv.1 | 14 => e.colv.1 | _ => 0

/-- An operand as every step but SMX reads it (R288). -/
def Elem.read (e : Elem) (ftz : Bool) (sel : Nat) (imm : W32) : W32 :=
  let x := match sel with | 12 => e.aux.2 | 13 => e.rowv.2 | 14 => e.colv.2 | _ => e.operand sel imm
  if ftz then (toF32 false false (ofF32z true x)).1 else x

/-- FN of OPC 0x18 for the ops 8 to 18. -/
def stepFn (op : Nat) : Nat :=
  match op with
  | 13 => 8 | 14 => 10 | 15 => 14 | 16 => 11 | 17 => 12 | 18 => 13 | _ => op - 8

/-- What the steps of a stream take from the instruction: FTZ, the profile's default rounding, the hash of an element. -/
structure StepCtx where
  ftz : Bool
  dflt : Nat
  rbits : Nat → Nat

/-- The rounding a step names. -/
def StepCtx.rnd (x : StepCtx) (w : W64) : Nat := if stRnd w = 7 then x.dflt else stRnd w

def Elem.set (e : Elem) (k : Nat) (v : W32 × Fl) : Elem := { e with c := e.c.set k v.1, fl := e.fl ||| v.2 }

/-- The exact result of a rounding step. -/
def stepExact (op : Nat) (rdn : Bool) (a b c : Val) : Val × Fl :=
  match op with
  | 1 => a.add rdn b
  | 2 => a.add rdn b.negate
  | 3 => a.mul b
  | _ => Val.fma rdn a b c

/-- One step, other than SMX, of index `k` (R288 to R292). Under SR the rounding of ST is number k = its step index too, the
model's choice: R288 says so of the steps that round into FP32 and R295 names no number (log 63). -/
def runStep (x : StepCtx) (k : Nat) (w : W64) (e : Elem) : Elem :=
  let op := stOp w
  let a := e.read x.ftz (stSa w) (stImm w)
  let b := e.read x.ftz (stSb w) (stImm w)
  let c := e.read x.ftz (stSc w) (stImm w)
  let gate := e.p[stPred w]?.getD true
  match stepKind op with
  | some (.compare, _) =>
    let r := if op = 20 then ltF a b else if op = 21 then ltF a b || (ofF32 a).eq (ofF32 b) else (ofF32 a).eq (ofF32 b)
    { e with p := e.p.set (stPred w) r }
  | some (.diag, _) => { e with p := e.p.set (stPred w) (decide ((e.col : Int) - e.row ≤ (stImm w).toInt)) }
  | some (.sel, _) => e.set (stDst w) (if gate then a else b, 0)
  | some (.st, _) => if gate then { e with out := some (a, x.rnd w, stSat w, k) } else e
  | some (.exact, _) => if gate then e.set (stDst w) (if op = 5 then maxF a b else minF a b, 0) else e
  | some (.func, _) => if gate then e.set (stDst w) (sfu (stepFn op) (stSat w) x.ftz a 0) else e
  | some (.rounds, _) =>
    if gate then
      let (v, f) := stepExact op (x.rnd w = rDN) (ofF32 a) (ofF32 b) (ofF32 c)
      let (r, g) := roundTo 0 false (x.rnd w) (stSat w) x.ftz (if x.rnd w = rSR then x.rbits k else 0) v
      e.set (stDst w) (BitVec.ofNat 32 r, f ||| g)
    else e
  | _ => e

/-- The steps [lo, hi) of a chain. -/
def runSteps (x : StepCtx) (c : List W64) (lo hi : Nat) (e : Elem) : Elem :=
  (((chainActive c).zipIdx.filter (fun p => decide (lo ≤ p.2 ∧ p.2 < hi)))).foldl (fun e p => runStep x p.2 p.1 e) e

/-- Index of the SMX step, 16 without one. -/
def smxAt (c : List W64) : Nat := ((chainActive c).findIdx? (fun w => stOp w = 32)).getD 16

/-! ### The instruction word (Tables 7.2 to 7.5) -/

def xpMerge (w : InsWord) : Bool := w.fn.toNat % 4 = 1
def xpS1 (w : InsWord) : Bool := bitOf w.fn.toNat 6
def xpTag (w : InsWord) : Nat := bitsOf w.imm32.toNat 16 16
def xpRsi (w : InsWord) : Nat := bitsOf w.imm32.toNat 11 2
def xpSpl (w : InsWord) : Bool := bitOf w.imm32.toNat 10
def xpFin (w : InsWord) : Bool := bitOf w.imm32.toNat 9
def xpNrm (w : InsWord) : Bool := bitOf w.imm32.toNat 8
def xpOtag (w : InsWord) : Byte := BitVec.ofNat 8 w.imm32.toNat
def xpX1 (w : InsWord) : Nat := bitsOf w.aux64.toNat 59 5
/-- The network port of the NET kind, in the P numbering. -/
def xpNport (w : InsWord) : Nat := 22 + bitsOf w.aux64.toNat 56 3
def xpTrig (w : InsWord) : Byte := BitVec.ofNat 8 (bitsOf w.aux64.toNat 48 8)
def xpFeedEn (w : InsWord) : Bool := bitOf w.aux64.toNat 5
def xpFeedPort (w : InsWord) : Nat := bitsOf w.aux64.toNat 4 1
/-- Lowest bits of the descriptor fields of AUX64: rowv, colv, spill, lse, scl0, scl1, feed. -/
def xpAuxLo : List Nat := [42, 36, 30, 24, 18, 12, 6]

/-- A descriptor named in AUX64 at bit `lo`, the k-th copied. -/
def QEntry.oAux (q : QEntry) (lo k : Nat) : Opnd := ⟨4, bitsOf q.w.aux64.toNat lo 6, q.aux[k]?.getD default⟩
def QEntry.xRowv (q : QEntry) : Opnd := q.oAux 42 0
def QEntry.xColv (q : QEntry) : Opnd := q.oAux 36 1
def QEntry.xSpill (q : QEntry) : Opnd := q.oAux 30 2
def QEntry.xLse (q : QEntry) : Opnd := q.oAux 24 3
def QEntry.xFeed (q : QEntry) : Opnd := q.oAux 6 6

/-- One stream: whether it is stream 1, store kind (0 SPAD, 1 APORT, 2 BPORT, 3 NET), destination, auxiliary tensor, scale
tensor, chain number and steps. -/
structure XStream where
  one : Bool
  kind : Nat
  o : Opnd
  aux : Opnd
  scl : Opnd
  chainNo : Nat
  chain : List W64
  deriving Repr

/-- The streams of a STREAM-mode T.XPR. -/
def QEntry.streams (q : QEntry) : List XStream :=
  let f := q.w.fn.toNat
  if xpMerge q.w then []
  else ⟨false, bitsOf f 2 2, ⟨0, q.w.dst.toNat, q.dst⟩, ⟨1, q.w.sa.toNat, q.sa⟩, q.oAux 18 4, q.w.xs.toNat, q.chain0⟩ ::
    (if xpS1 q.w then
      [⟨true, bitsOf f 4 2, ⟨2, q.w.sb.toNat, q.sb⟩, ⟨3, q.w.sc.toNat, q.sc⟩, q.oAux 12 5, xpX1 q.w, q.chain1⟩] else [])

def XStream.d (x : XStream) : Desc := x.o.d
/-- The store options of ST (R296). -/
def XStream.opts (x : XStream) : Nat := (stImm (chainSt x.chain)).toNat
/-- ST quantises under a per-tensor scale. -/
def XStream.dscl (x : XStream) : Bool := isScalable x.d.fmt && bitOf x.opts 10
def XStream.pol (x : XStream) : Nat := bitsOf x.opts 8 2
/-- The stream's store targets a scaled format. -/
def XStream.scaled (x : XStream) : Bool := isMX x.d.fmt || x.dscl
def XStream.auxUsed (x : XStream) : Bool := chainReads x.chain 12
/-- Tile columns, rows and batches of the stream's grid (R270, R271). -/
def XStream.cols (x : XStream) : Nat := cdiv (x.d.n 0) 32
def XStream.rows (x : XStream) : Nat := cdiv (x.d.n 1) 32
def XStream.tiles (x : XStream) : Nat := x.cols * x.rows * x.d.n 2
/-- Tiles of the stream that arrive on intake port `i` (R271). -/
def XStream.onPort (x : XStream) (i : Nat) : Nat := (x.tiles + 3 - i) / 4

def XprProg.stream (g : XprProg) (one : Bool) : XprStream := if one then g.st1 else g.st0

/-- A chain has SMX or reads RM, RL or RA. -/
def XStream.usesRow (x : XStream) : Bool := chainSmx x.chain || [9, 10, 11].any (chainReads x.chain)
/-- The instruction uses the row-state file (R281). -/
def QEntry.usesRow (q : QEntry) : Bool :=
  xpMerge q.w || xpRsi q.w ≠ 0 || xpSpl q.w || xpFin q.w || q.streams.any XStream.usesRow

/-- The destinations of a T.XPR. -/
def QEntry.xDests (q : QEntry) : List Opnd :=
  if xpMerge q.w then [⟨0, q.w.dst.toNat, q.dst⟩] else q.streams.map (·.o)
/-- The trow count T (R300). -/
def QEntry.trows (q : QEntry) : Nat := (q.xDests.map (fun o => cdiv (o.d.n 1) 32)).foldl max 0

/-- The scratchpad tensors a T.XPR writes. -/
def QEntry.xOuts (q : QEntry) : List Opnd :=
  (if xpMerge q.w then [⟨0, q.w.dst.toNat, q.dst⟩] else [])
  ++ q.streams.flatMap (fun x => (if x.kind = 0 then [x.o] else []) ++ (if x.scaled then [x.scl] else []))
  ++ (if xpSpl q.w then [q.xSpill] else []) ++ (if xpFin q.w then [q.xLse] else [])

end Sys2Proof.Machine
end

