-- ==== Sys2Proof/Machine/Faults.lean ====
section
/-! DEFINITION. Raising a halt fault, abandoning instructions, and the halt (02 R44, R70, R71, R96; 14 R513 to R518). -/

namespace Sys2Proof.Machine

/-- The next free value (log 2). -/
def State.freeWord (s : State) : W64 × State := (Config.freeWord s.freeCtr, { s with freeCtr := s.freeCtr + 1 })

/-- Every element of a destination, and the poison bits of its lines, become free values (R70, log 7). -/
def State.scrambleDesc (s : State) (d : Desc) : State :=
  let k := s.freeCtr
  let bws := d.ixs.zipIdx.map (fun p =>
    d.bitW p.1 (leNat ((List.range 4).map (fun j => Config.freeByte (k + 4 * p.2 + j)))))
  let s := { s with freeCtr := k + 4 * d.count }
  s.store bws (fun l => Config.freeBit (k + l)) (fun _ => false)

/-- The scratchpad destinations of an instruction by its opcode. -/
def QEntry.dests (q : QEntry) : List Desc :=
  let f := q.w.fn.toNat
  let ds := match q.w.opc.toNat with
    | 0x28 => if isMX q.w.dfmt.toNat || bitOf f 3 then [q.dst, q.sc] else [q.dst]
    | 0x21 => q.dst :: q.aux
    | 0x22 => q.dst :: q.aux
    | 0x38 => q.xOuts.map Opnd.d
    | 0x49 => if f % 128 = 1 ∨ f % 128 = 3 then [q.dst] else if f % 128 = 2 then [q.sb] else []
    | 0x70 => if f = 0 then [q.sb] else []
    | 0x58 => if f = 2 then [q.dst] else []
    | 0x40 => if bitsOf f 4 2 = 0 then [q.dst] else []
    | o => if o = 0x10 ∨ o = 0x11 ∨ o = 0x12 ∨ o = 0x13 ∨ o = 0x18 ∨ o = 0x20 ∨ o = 0x23 ∨ o = 0x30 ∨ o = 0x41
        ∨ o = 0x42 ∨ o = 0x48 then [q.dst] else []
  ds.filter Desc.inSpad

/-- Tiles still credited to an abandoned T.XPR are accepted and discarded (R535). -/
def Xpr.discardTiles (x : Xpr) (g : List Nat) : Xpr :=
  { x with discard := (g.zipIdx).foldl (fun m p =>
      if p.1 = 0 then m else AL.put m (2 + p.2) (AL.getD m (2 + p.2) 0 + p.1)) x.discard }

/-- Messages of the abandoned instructions leave no port; a trigger not yet handed over is dropped. -/
def State.dropMessages (s : State) (gone : Nat → Bool) : State :=
  { s with
    ports := s.ports.map (fun p => (p.1, { p.2 with txq := p.2.txq.filter (fun i => match i.owner with
      | some o => !gone o | none => true) }))
    yd := { s.yd with trigs := s.yd.trigs.filter (fun t => match t.owner with | some o => !gone o | none => true) } }

/-- Abandon every instruction from sequence number `k` on (R70, R96): what has started leaves free destinations, but for the
instruction `own` that raises the fault, unless its transfer was under way. A T.SPAD's group transitions run on. `refused`:
`own` is a refused commit, whose destinations keep their values (R525, R526). -/
def State.abandonFrom (s : State) (k : Nat) (own : Option Nat) (refused : Bool) : State :=
  let gone := s.fl.filter (fun f => decide (k ≤ f.q.seq))
  let s := { s with
    tq := s.tq.filter (fun q => decide (q.seq < k))
    fl := s.fl.filter (fun f => decide (f.q.seq < k))
    sb := { s.sb with wait := none, waitReg := none } }
  let s := gone.foldl (fun s f =>
    let s := (if decide (some f.q.seq = own) && (refused || match f.prog with | .dma _ => false | _ => true) then [] else f.q.dests).foldl
      State.scrambleDesc s
    match f.prog with
    | .xpr x => { s with xp := s.xp.discardTiles x.granted }
    | _ => s) s
  s.dropMessages (fun o => decide (k ≤ o))

/-- Every instruction earlier than a recorded halt fault has completed: the signal box halts (R44, R70, R514, R637). -/
def State.settleHalt (s : State) : State :=
  match s.ft.halting with
  | none => s
  | some h =>
    if s.fl.any (fun f => decide (f.q.seq < h.seq)) || s.tq.any (fun q => decide (q.seq < h.seq)) then s
    else
      let s := { s with ft := { s.ft with halting := none }, sb := { s.sb with pc := h.pc, wait := none, waitReg := none } }
      (s.toState stFaulted).reportState h.code 0 0

/-- The KILL in progress abandoned the instruction (R517). -/
def State.killed (s : State) (seq : Nat) : Bool := s.job.kill.any (fun l => l.contains seq)

/-- The faults that abandon every instruction, none of which raises them (Table 14.2). -/
def abandonsAll (code : Nat) : Bool := code = 0x8005 || code = 0x9004

/-- Raise a fault with the Halt response; during a KILL the instructions that it abandons raise none, but no instruction raises
those that abandon every one (R517, R531). It is raised at the instruction of sequence number `seq` (R70, R71, R514 to R517);
`seqReg` is what FAULT_SEQ shows. -/
def State.raiseHaltAs (s : State) (seq : Nat) (seqReg : W32) (pc : BitVec 19) (code : Nat) (info : W64) : State :=
  if !s.active then s.logFault code 1 s.logPc seqReg.toNat info
  else if s.job.kill.isSome && !abandonsAll code then s.suppress
  else
    let rec_ := fun (s : State) => { s with ft := { s.ft with
      valid := true, pc := pc, code := BitVec.ofNat 16 code, tick := s.tickW, info := info, seq := seqReg
      halting := some ⟨seq, pc, BitVec.ofNat 16 code⟩ } }
    let own := if abandonsAll code then none else some seq
    match s.ft.halting with
    | none => ((rec_ (s.logFault code 0 pc seqReg.toNat info)).abandonFrom seq own (code == 0x5001)).settleHalt
    | some h =>
      if seq < h.seq then ((rec_ (s.logFault code 0 pc seqReg.toNat info)).suppress.abandonFrom seq own (code == 0x5001)).settleHalt
      else (s.logFault code 0 pc seqReg.toNat info).suppress

/-- A fault of a tensor instruction. -/
def State.raiseHalt (s : State) (seq : Nat) (pc : BitVec 19) (code : Nat) (info : W64) : State :=
  s.raiseHaltAs seq (BitVec.ofNat 32 seq) pc code info

/-- A fault of a scalar instruction at the PC: it follows every tensor instruction issued, and has no number of its own,
so FAULT_SEQ is a free value (log 13). -/
def State.raiseScalar (s : State) (code : Nat) (info : W64) : State :=
  let (r, s') := s.freeWord
  s'.raiseHaltAs s.sb.nextSeq (r.setWidth 32) s.sb.pc code info

/-- A fault of a tensor instruction at head of issue: its number is the next to be issued. -/
def State.raiseIssue (s : State) (f : Flt) : State := s.raiseHalt s.sb.nextSeq s.sb.pc f.1 f.2

/-- A fault that abandons every instruction, as R96 states (0x8005, 0x9004). -/
def State.raiseAll (s : State) (code : Nat) (info : W64) : State :=
  let (r, s') := s.freeWord
  s'.raiseHaltAs 0 (r.setWidth 32) s.sb.pc code info

end Sys2Proof.Machine
end

