-- ==== Sys2Proof/Machine/Time.lean ====
section
/-! DEFINITION. Time: the timebase's advance and what counts with it (12 R492, R493, R502, R506; 09 R400, R401). -/

namespace Sys2Proof.Machine

/-! ### What instructions occupy -/

/-- What a tensor instruction executes on (R62, R68, R242). -/
inductive UnitKind where
  | none
  | vc
  | dpu
  deriving DecidableEq, Repr

/-- T.DOT occupies DPUs; the classes from OPC 0x48 on and T.WAITT occupy no unit (R68). -/
def unitsOf (w : InsWord) : UnitKind := if w.opc = 0x30 then .dpu else if w.opc.toNat < 0x48 then .vc else .none

/-- Array work takes the tick in which its instruction starts, and a chain the tick in which it runs on a tile (logs 6, 9): the
instruction executes then. -/
def State.executes (s : State) (f : Inflight) : Bool :=
  unitsOf f.q.w ≠ .none && ((f.prog = .idle && f.started = s.tickW) || f.worked = some s.tickW)

/-- The tiles of an instruction, which are dealt to its units: of the destination grid (R62, R242), of SA's (R207), or of the
larger stream's (R271). -/
def QEntry.tiles (q : QEntry) : Nat :=
  let o := q.w.opc.toNat
  if 0x20 ≤ o ∧ o ≤ 0x23 then q.sa.tileCount
  else if o = 0x38 ∧ xpMerge q.w = false then (q.streams.map XStream.tiles).foldl max 0
  else q.dst.tileCount

/-- The units of a kind that are in service. For a T.DOT the lattice slice of a platform counts as one unit: how the slice deals
elements to its DPUs (R242), and so when one DPU is free for a later T.DOT (R68), is open, and the model's choice (log 100). -/
def State.unitsOfKind (s : State) (k : UnitKind) : Nat :=
  match k with | .none => 0 | .vc => s.svc.vcs.toNat | .dpu => s.svc.platforms.toNat

/-- The units that an instruction's tiles are dealt to: those numbered below this (R62, R242). -/
def QEntry.unitCount (q : QEntry) (s : State) : Nat := min q.tiles (s.unitsOfKind (unitsOf q.w))

/-- Tile `t` of a stream has come and has run: neither its SMX group nor the scrub holds it back. -/
def XprProg.ran (g : XprProg) (x : XStream) (t : Nat) : Bool :=
  decide (t < (g.stream x.one).next.getD (t % 4) 0)
  && !(g.held ++ g.waiting).any (fun h => h.stream = x.one && decide (h.tcol + x.cols * (h.trow + x.rows * h.batch) = t))

/-- Unit `v` has not finished its tiles of the instruction (R62, R68). -/
def State.keepsBusy (s : State) (f : Inflight) (v : Nat) : Bool :=
  match f.prog with
  | .xpr g => let N := s.svc.vcs.toNat
    f.q.streams.any (fun x => (strided v N (cdiv (x.tiles - v) N)).any (fun t => !g.ran x t))
  | .scrub => decide (v < f.q.unitCount s)
  | _ => s.executes f && decide (v < f.q.unitCount s)

/-- At least one of the units of the instruction has finished its tiles of those in flight (R68, R74). -/
def State.unitFree (s : State) (q : QEntry) : Bool :=
  let n := q.unitCount s
  n = 0 || (List.range n).any (fun v => s.fl.all (fun f => unitsOf f.q.w ≠ unitsOf q.w || !s.keepsBusy f v))

/-- The destination tensor ids of R138. -/
def QEntry.destTids (q : QEntry) : List (BitVec 16) :=
  let o := q.w.opc.toNat
  if o = 0x38 then q.dst.tensorId :: (if bitOf q.w.fn.toNat 6 then [q.sb.tensorId] else [])
  else if o = 0x22 then q.dst.tensorId :: (if q.w.fn.toNat % 128 = 0 then q.aux.map Desc.tensorId else [])
  else if o ≤ 0x49 ∨ (o = 0x58 ∧ q.w.fn = 2) then [q.dst.tensorId] else []

/-- An earlier instruction in flight has a destination of the same tensor id (R138). -/
def State.sameTid (s : State) (q : QEntry) : Bool :=
  s.fl.any (fun f => f.q.destTids.any (fun t => q.destTids.contains t))

/-! ### Counters -/

/-- Add `k` ACLK to one counter of R506: 0 BUSY_ARRAY, then the eight IDLE counters in Table 12.6's order. -/
def Counters.bump (c : Counters) (which k : Nat) : Counters :=
  let c := { c with run := satAdd c.run k }
  match which with
  | 0 => { c with busyArray := satAdd c.busyArray k }
  | 1 => { c with idleMatrix := satAdd c.idleMatrix k }
  | 2 => { c with idleNet := satAdd c.idleNet k }
  | 3 => { c with idleWindow := satAdd c.idleWindow k }
  | 4 => { c with idleYard := satAdd c.idleYard k }
  | 5 => { c with idleMem := satAdd c.idleMem k }
  | 6 => { c with idleTime := satAdd c.idleTime k }
  | 7 => { c with idlePower := satAdd c.idlePower k }
  | _ => { c with idleIssue := satAdd c.idleIssue k }

/-- The counter for a port on which an instruction moves or waits. -/
def idleOfPort (p : Nat) : Nat :=
  match portClass p with
  | .aport => 1 | .bport => 1 | .intake => 1 | .mem => 5 | .host => 5 | _ => 2

/-- The counter of what an instruction in flight moves or waits on at a port, at the yard or for a trigger; none where it
does not. -/
def State.idleMoving (s : State) (seq : Nat) : Option Nat :=
  match s.ports.find? (fun p => p.2.txq.any (fun i => i.owner = some seq)) with
  | some p => some (idleOfPort p.1)
  | none => match s.reqs.find? (fun r => r.waits && r.owner = some seq) with
    | some r => some (idleOfPort r.port)
    | none => if s.yd.trigs.any (fun t => t.owner = some seq) then some 2
      else if s.yd.held.any (fun h => h.owner = some seq) then some 4
      else if s.xf.parked.any (fun p => match p with | .chunk o .. => o = some seq | _ => false) then some 5 else none

/-- The first chunk of a COLLECT or FWD (11 Table 11.2). -/
def yC0 (w : InsWord) : Nat := bitsOf w.aux64.toNat 0 20

/-- The frame that holds the complete chunk that a COLLECT or FWD reads next. -/
def State.chunkReady (s : State) (q : QEntry) (c : CollProg) : Option Nat :=
  let k := yC0 q.w + c.next
  let f := s.frameOf k
  let fr := (s.slot q.w.ys.toNat).frame f
  if fr.index = k && fr.crc.isSome then some f else none

/-- The counter of a class that occupies no unit, once it waits for nothing: a T.SPAD's, a T.WAITT's, else IDLE_ISSUE. -/
def idleKind (w : InsWord) : Nat :=
  if w.opc = 0x68 then 7 else if w.opc = 0x60 ∧ w.fn = 1 then 6 else if w.opc = 0x60 ∧ w.fn = 2 then 3 else 8

/-- The idle counter of an instruction in flight, 0 where it executes array work (Table 12.4). -/
def State.idleOf (s : State) (f : Inflight) : Nat :=
  if s.executes f then 0
  else match f.prog with
  | .untilTick _ => 6
  | .waitcl _ => 3
  | .trigWait .. => 2
  | .claim .. => 4
  | .spad _ => 7
  | .scrub => 5
  | .xpr g => if g.waiting.isEmpty && g.left.any (· ≠ 0) then 1 else 5
  | .lastTrig .. => (s.idleMoving f.q.seq).getD 2
  | .coll c => (s.idleMoving f.q.seq).getD (if (s.chunkReady f.q c).isSome then 5 else 4)
  | .dma _ => 5
  | .offl .. => 5
  | .presence .. => 3
  | .idle => (s.idleMoving f.q.seq).getD (idleKind f.q.w)

/-- Waits that count as IDLE_ISSUE although an earlier instruction is incomplete (R68, R138, R280): the front of the queue waits
for room beside the four in flight or for a unit, for an instruction in flight with its tensor id, or for the T.XPR before it
(log 51). -/
def State.issueHeld (s : State) : Bool :=
  match s.tq with
  | [] => false
  | q :: _ => q.readyAt.isNone && (s.sameTid q || (q.w.opc = 0x38 && s.fl.any (fun f => f.q.w.opc = 0x38))
      || (q.w.ovl && (decide (Config.inFlightMax ≤ s.fl.length) || !s.unitFree q)))

/-- The counter of R506 that runs now. -/
def State.idleCause (s : State) : Nat :=
  if s.fl.any (fun f => s.idleOf f = 0) then 0
  else if s.issueHeld then 8
  else match s.fl with
    | f :: _ => s.idleOf f
    | [] => match s.tq with
      | [] => 8
      | q :: _ =>
        if s.now < (q.startAt.getD 0).toNat then 6
        else if !q.short.isEmpty then 3 else 8

/-- A chain step that the special-function pipes take part in: the primitives, the sequences and SMX (Table 7.8). -/
def stepPipe (w : W64) : Bool := decide ((8 ≤ stOp w ∧ stOp w ≤ 18) ∨ stOp w = 32)

/-- The instruction uses the special-function pipes (04, 05, 07): OPC 0x18 but for SIN and COS, which the lanes compute alone
(Table 4.12), T.NORM, SMAX and LSE, and a T.XPR that has such a step, merges or computes LSE2. -/
def usesSfp (q : QEntry) : Bool :=
  let f := q.w.fn.toNat % 128
  match q.w.opc.toNat with
  | 0x18 => f ≠ 16 && f ≠ 17
  | 0x21 => true
  | 0x23 => true
  | 0x38 => xpMerge q.w || xpFin q.w || q.streams.any (fun x => (chainActive x.chain).any stepPipe)
  | _ => false

/-- BUSY_SFP and BUSY_LATTICE over `k` ACLK: in how many of them a pipe delivers or a DPU takes a pass is timing, so each grows
by a free value up to `k` while an instruction that uses the unit executes (R507, log 51). So do the bank cycles and the reads
of JUNC_STAT while any is in flight (09 Table 9.8). -/
def State.unitsBusy (s : State) (k : Nat) : State :=
  let grow := fun (s : State) (b : Bool) (f : Counters → Nat → Counters) =>
    if b then { s with freeCtr := s.freeCtr + 1, live := f s.live ((Config.freeWord s.freeCtr).toNat % (k + 1)) } else s
  let s := grow s (s.fl.any (fun f => usesSfp f.q && s.executes f)) (fun c n => { c with busySfp := satAdd c.busySfp n })
  let s := grow s (s.fl.any (fun f => s.executes f && unitsOf f.q.w = .dpu)) (fun c n => { c with busyLattice := satAdd c.busyLattice n })
  if s.fl.isEmpty then s
  else
    let r := Config.freeWord s.freeCtr
    { s with freeCtr := s.freeCtr + 1
             sp := { s.sp with conflict := satAdd s.sp.conflict (r.toNat / 2 ^ 32), broadcast := satAdd s.sp.broadcast (r.toNat % 2 ^ 32) } }

/-- WIN_EVENT records of the window boundaries in (old, now] (12 Table 12.3): a scheduled close and the end of a drain. -/
def State.windowEvents (s : State) (old : Nat) : State :=
  s.wins.foldl (fun s p =>
    let x := p.2
    if !x.trace || x.openTs = none64 || x.closeTs = none64 then s
    else
      let c := x.closeTs.toNat
      let e := c + x.drain.toNat
      let s := if old < c ∧ c ≤ s.now then s.traceAt x.closeTs 5 (p.1 * 2 ^ 55 + 2 ^ 53) else s
      if old < e ∧ e ≤ s.now then s.traceAt (BitVec.ofNat 64 e) 5 (p.1 * 2 ^ 55 + 2 * 2 ^ 53) else s) s

/-- The tick after `n` TCLK: it stands until start-up step 6 (R493, R569). -/
def Timebase.after (t : Timebase) (n : Nat) : BitVec 88 := if t.on then t.acc + BitVec.ofNat 88 (n * t.inc.toNat) else t.acc

/-- The counters of R506 over `n` TCLK: what executes now is array work in the first of them. -/
def State.booked (s : State) (c : Counters) (n : Nat) : Counters :=
  (c.bump s.idleCause (4 * min n 1)).bump ({ s with tb := { s.tb with acc := s.tb.after 1 } } : State).idleCause (4 * (n - 1))

/-- Advance the timebase by `n` TCLK: the tick, the counters of R506 and R507, the scrub watermark, the trace records' entry
and the windows' boundaries. Where the tick stands, a record of it enters after a TCLK has passed (R502, log 86). -/
def State.elapse (s : State) (n : Nat) : State :=
  let u := if s.job.state = stRunning then s.unitsBusy (4 * n) else s
  State.windowEvents (old := s.now) { u with
    tb := { s.tb with acc := s.tb.after n, stood := if s.tb.on then s.tb.stood else s.tb.stood + n * s.tb.inc.toNat }
    live := if s.job.state = stRunning then s.booked u.live n else s.live
    sp := if s.sp.scrubRun then { u.sp with scrubWm := min 32768 (s.sp.scrubWm + 96 * n) } else u.sp
    tr := s.tr.pass n (((s.tb.after n).extractLsb' 24 64).toNat + if s.tb.on then 0 else 1) }

/-- Advance to the first TCLK whose tick is at or above `t` (R493). -/
def State.elapseTo (s : State) (t : Nat) : State :=
  let goal := t * 2 ^ 24
  let a := s.tb.acc.toNat
  if goal ≤ a ∨ s.tb.inc = 0#32 ∨ s.tb.on = false then s else s.elapse (cdiv (goal - a) s.tb.inc.toNat)

/-- The ticks of time that have passed since reset, while the tick stood too: a port's attempt in start-up step 5 is timed by it
(15 R567, log 14). -/
def State.clock (s : State) : Nat := s.now + s.tb.stood / 2 ^ 24

/-- Advance until `clock` is at or above `c`. -/
def State.elapseClock (s : State) (c : Nat) : State :=
  if s.tb.on then s.elapseTo (c - s.tb.stood / 2 ^ 24)
  else if c ≤ s.clock ∨ s.tb.inc = 0#32 then s
  else s.elapse (cdiv ((c - s.now) * 2 ^ 24 - s.tb.stood) s.tb.inc.toNat)

/-- The tick 2^64 − 1 or sooner at which a wait that began at `since` has lasted `limit` (R527). -/
def deadline (since : W64) (limit : Nat) : Nat := since.toNat + limit

/-- `widen40` of R497. -/
def widen40 (st : BitVec 40) (r : Nat) : Nat :=
  let d := (st.toNat + 2 ^ 40 - r % 2 ^ 40) % 2 ^ 40
  if d < 2 ^ 39 then r + d else r - (2 ^ 40 - d)

/-- `before40` of R432: the half-range comparison of two 40-bit stamps. -/
def before40 (a b : Nat) : Bool := decide ((a + 2 ^ 40 - b % 2 ^ 40) % 2 ^ 40 ≥ 2 ^ 39)

end Sys2Proof.Machine
end

