-- ==== Sys2Proof/Machine/Issue.lean ====
section
/-! DEFINITION. Issue and start of instructions (02 R33, R36, R44, R55, R61 to R80; 14 R518, R524): what every instruction
row shares. A `TOp` holds what a class says of its own. -/

namespace Sys2Proof.Machine

abbrev Out := Host.Outcome State Fault Refusal

/-! ### Encoding checks -/

def InsWord.blank : InsWord :=
  ⟨0, 0, 0, 0, 0, 0, 0, 0, 0, false, false, 0, false, 0, 0, 0, false, false, false, 0, 0, 0, 0, 0⟩

/-- A field that the instruction does not use, or a reserved field, is not zero (R36): `rest` is the word with every used
field cleared. -/
def unused (rest : InsWord) : Bool := decide (rest ≠ InsWord.blank)

/-- A failed encoding check: 0x1001 with the word (format I). -/
def illegal (w : InsWord) (bad : Bool) : List Flt := if bad then [(0x1001, w.low64)] else []
def badShape (w : InsWord) (bad : Bool) : List Flt := if bad then [(0x1002, w.low64)] else []
def badFmt (w : InsWord) (bad : Bool) : List Flt := if bad then [(0x1005, w.low64)] else []

/-- R41 and R40's reserved RND codes. -/
def badBits (w : InsWord) : Bool := (w.commit && w.poisonOk) || decide (5 ≤ w.rnd.toNat)

/-! ### The signal box takes an instruction -/

/-- The signal box is at its head of issue: RUNNING, not waiting, no halt pending, no KILL. -/
def State.canIssue (s : State) : Bool :=
  s.job.state = stRunning && s.sb.wait.isNone && s.sb.waitReg.isNone && s.ft.halting.isNone && s.job.kill.isNone

/-- The next address PC + 32 is out of range (R33). -/
def State.nextBad (s : State) : Bool := decide (0x7_FFE0 < s.sb.pc.toNat + 32)
def State.nextInfo (s : State) : W64 := infoA false 5 0 (s.sb.pc.toNat + 32)
def State.advance (s : State) : State := { s with sb := { s.sb with pc := s.sb.pc + 32 } }

/-- What every instruction row does first: the word belongs to the row, and the signal box can issue. -/
def instrRow (i : Instr) (w : InsWord) (s : State) (k : State → State) : Out :=
  if !w.ofRow i then .fault .wordOfAnotherRow else if !s.canIssue then .next s else .next (k s)

/-- A scalar instruction that does not branch: head-of-issue checks, then R33's, then the effect. -/
def scalarRun (fs : List Flt) (s : State) (k : State → State) : State :=
  match firstFlt fs with
  | some f => s.raiseScalar f.1 f.2
  | none => if s.nextBad then s.raiseScalar 0x1003 s.nextInfo else k s

/-- The array is empty: every earlier tensor instruction has completed. -/
def State.drained (s : State) : Bool := s.fl.isEmpty && s.tq.isEmpty

/-- An instruction that begins only after every earlier tensor instruction has completed (R50, R92, R153). -/
def State.whenDrained (s : State) (w : InsWord) (k : State → State) : State :=
  if s.drained then k s else { s with sb := { s.sb with wait := some w } }

/-! ### Tensor instructions -/

/-- What a class of tensor instruction says: its source and output operands, the windows of its presence check (window,
expected bytes), its start checks in R518's order, what holds its start besides R67 and R68, whether it makes its own
commit check, its effect, which lines of a source it reads (`none`: all of them), and the bytes of the scratchpad, whole lines, that
the effect writes when it is made; a class that writes later than that tests those lines then. -/
structure TOp where
  srcs : QEntry → List Opnd
  outs : QEntry → List Opnd
  present : QEntry → State → List (Nat × Nat)
  startChk : QEntry → State → List Flt
  hold : QEntry → State → Bool
  ownCommit : Bool
  run : QEntry → State → State
  lines : QEntry → State → Opnd → Option (List Nat)
  writes : QEntry → State → List (Nat × Nat)

/-- Operands in increasing role (R520). -/
def byRole (os : List Opnd) : List Opnd := [0, 1, 2, 3, 4].flatMap (fun r => os.filter (fun o => o.role = r))

def spadOnly (os : List Opnd) : List Opnd := os.filter (·.d.inSpad)

/-- A window's local region overlaps [lo, hi). -/
def Window.overlaps (x : Window) (lo hi : Nat) : Bool :=
  decide (x.base.toNat < hi ∧ lo < x.base.toNat + 128 * (x.linesM1.toNat + 1))

/-- The windows that R76 checks for a list of sources, with their expected counts. -/
def presentOf (os : List Opnd) (s : State) : List (Nat × Nat) :=
  ((List.range Config.windows).filter (fun i =>
    let x := s.window i
    x.expected ≠ 0 && (spadOnly os).any (fun o => x.overlaps o.d.at_ o.d.hi))).map (fun i =>
      (i, (s.window i).expected.toNat))

/-- Windows that are short. -/
def State.short (s : State) (ws : List (Nat × Nat)) : List (Nat × Nat) :=
  ws.filter (fun p => decide ((s.window p.1).received.toNat < p.2))

/-- A window in OPEN or DRAINING state now (10 Table 10.4). -/
def Window.live (x : Window) (now : Nat) : Bool :=
  x.openTs ≠ none64 && (x.closeTs = none64 || decide (now < x.closeTs.toNat + x.drain.toNat))

/-- Start checks common to all: groups not ON (R399), then writes into a live window (R425). -/
def State.commonStart (s : State) (srcs outs : List Opnd) : List Flt :=
  let opnds := byRole (spadOnly (outs ++ srcs))
  let off : List Flt := (opnds.filterMap (fun o => (o.d.groups.find? (fun g => !s.groupOn g)).map
    (fun g => (0x2004, infoA false o.role o.num (o.d.firstIn g))))).take 1
  let win := ((List.range Config.windows).filter (fun i =>
    let x := s.window i
    x.live s.now && (spadOnly outs).any (fun o => x.overlaps o.d.at_ o.d.hi))).take 1
  off ++ win.map (fun i => (0x3005, infoW 0 i))

/-- The order of R518 at the start. -/
def startOrder : List Nat := [0x2004, 0x2005, 0x3005, 0x3001, 0x4001, 0x4003, 0x1002, 0x4002]
def firstStart (fs : List Flt) : Option Flt := (startOrder.filterMap (fun c => fs.find? (·.1 = c))).head?

/-- INSTR_START and INSTR_DONE payload (Table 12.3). -/
def QEntry.tracePayload (q : QEntry) : Nat :=
  q.pc.toNat * 2 ^ 41 + q.w.opc.toNat * 2 ^ 33 + (if q.w.ovl then 2 ^ 32 else 0) + q.seq % 2 ^ 32

def State.updInst (s : State) (seq : Nat) (f : Inflight → Inflight) : State :=
  { s with fl := s.fl.map (fun x => if x.q.seq = seq then f x else x) }
def State.setProg (s : State) (seq : Nat) (p : Prog) : State := s.updInst seq (fun x => { x with prog := p })

/-- A source with the lines of it that are read. -/
abbrev Src := Opnd × Option (List Nat)

/-- The instruction reads line `l` of the source. -/
def Src.has (p : Src) (l : Nat) : Bool := p.1.d.hasLine l && p.2.all (fun ls => ls.contains l)

/-- The scratchpad sources of an instruction, in increasing role. -/
def TOp.reads (op : TOp) (q : QEntry) (s : State) : List Src := (byRole (spadOnly (op.srcs q))).map (fun o => (o, op.lines q s o))

/-- The first poisoned source line: the lowest role that has one, and its lowest line. -/
def firstPsn (srcs : List Src) (lines : List Nat) : Option (Opnd × Nat) :=
  (srcs.filterMap (fun p => (lines.find? p.has).map (fun l => (p.1, l)))).head?

/-- The instruction's chapter lets its output `o` coincide exactly with its source `a` (R99, R167, R213, R216, R218, R219, R221,
R248, R353). T.DOT alone asks for the same format (R248). -/
def QEntry.mayCoincide (q : QEntry) (a o : Opnd) : Bool :=
  match q.w.opc.toNat with
  | 0x20 => false
  | 0x41 => false
  | 0x42 => false
  | 0x23 => q.w.fn.toNat % 128 = 0 && a.role = 1
  | 0x21 => o.role = 0 && a.role = 1
  | 0x22 => o.role = 0
  | 0x30 => a.role = 3 && a.d.fmt = o.d.fmt
  | _ => true

/-- Operands that software must keep apart share bits (R99 and its chapters' rules): the result is unspecified (R3, log 47). -/
def QEntry.misread (q : QEntry) (srcs outs : List Opnd) : Bool :=
  let outs := spadOnly outs
  let srcs := spadOnly srcs
  let pairs := fun (l : List Opnd) => l.zipIdx.any (fun a => l.zipIdx.any (fun b => decide (a.2 < b.2) && a.1 ≠ b.1 && a.1.d.meets b.1.d))
  outs.any (fun o => srcs.any (fun a => a ≠ o && a.d.meets o.d && !(a.d.coincides o.d && q.mayCoincide a o)))
  || pairs outs || ((q.w.opc = 0x41 || q.w.opc = 0x42) && pairs srcs)

/-- The result of an instruction whose operands break such a rule: its outputs, the amax values it is to append, and which
arithmetic flags it sets are free values (R3, log 47). -/
def State.unspecify (s : State) (q : QEntry) (outs : List Opnd) : State :=
  let s := (spadOnly outs).foldl (fun s o => s.scrambleDesc o.d) s
  let k := s.freeCtr
  let n := (s.fl.map (fun f => f.amax.length)).sum
  let s := s.updInst q.seq (fun x =>
    { x with amax := x.amax.zipIdx.map (fun p => (p.1.1, (Config.freeWord (k + 1 + p.2)).setWidth 32)) })
  { s with freeCtr := k + 1 + n, ar := { s.ar with flags := s.ar.flags ||| (Config.freeWord k).setWidth 10 } }

/-- The first source line that an error reaches after the check pass (R525). -/
def State.spoiltLine (s : State) (srcs : List Src) : Option (Opnd × Nat) :=
  firstPsn srcs ((s.sp.spoil.map lineOf).foldl insNat [])

/-- The ECC words that go bad between the two passes now hold their errors. -/
def Spad.spoilNow (sp : Spad) : Spad :=
  { sp with decay := sp.decay.filter (fun d => !sp.spoil.contains d.1) ++ sp.spoil.map (fun a => (a, true)), spoil := [] }

/-- The lines `ls` hold all that they held in `old`: bytes, poison copies, latent errors, and what awaits a write-back. -/
def State.takeBack (s old : State) (ls : List Nat) : State :=
  let sp := ls.foldl (fun sp l => { sp with
    mem := sp.mem.writeBytes l (old.lineBytes l)
    poison := match AL.get? old.sp.poison l with
      | some c => AL.put sp.poison l c
      | none => AL.del sp.poison l }) s.sp
  { s with sp := { sp with
    decay := sp.decay.filter (fun d => !ls.contains (lineOf d.1)) ++ old.sp.decay.filter (fun d => ls.contains (lineOf d.1))
    wb := (old.sp.wb.filter ls.contains).foldl insNat (sp.wb.filter (fun l => !ls.contains l)) } }

/-- The yard's lines hold what they held in `old`. -/
def Spad.yardOf (sp old : Spad) (base : Nat) : Spad :=
  { sp with
    mem := sp.mem.filter (fun c => decide (c.1 < base)) ++ old.mem.filter (fun c => decide (base ≤ c.1))
    poison := sp.poison.filter (fun p => decide (p.1 < base)) ++ old.poison.filter (fun p => decide (base ≤ p.1))
    decay := sp.decay.filter (fun d => decide (d.1 < base)) ++ old.decay.filter (fun d => decide (base ≤ d.1))
    wb := sp.wb.filter (fun l => decide (l < base)) ++ old.wb.filter (fun l => decide (base ≤ l)) }

/-- The output lines whose writes a data pass that fails at line `l` does not make: those that depend on the bad line, which are the lines
that it alone would poison, and any that had not been written yet, which the spec leaves open (R525, log 50). -/
def State.unmade (s : State) (run : State → State) (outs : List Opnd) (l : Nat) : List Nat :=
  let alone := run { s with sp := { s.sp with poison := s.sp.poison.filter (fun p => p.1 = l) } }
  ((outs.flatMap (fun o => o.d.tiles.flatMap o.d.tileLines)).foldl insNat []).filter (fun x =>
    alone.psn x || Config.freeBit (s.freeCtr + x))

/-- The data pass meets an uncorrectable error in line `l` (R525): it poisons the line, the writes that `run` does not make leave their
lines with all that they held, ECC errors among them, and no chunk reaches the yard; 0x5001 is raised with bit 63 of FAULT_INFO. Which
flags the rest has set is open (log 50). -/
def State.dataPassFails (s : State) (q : QEntry) (run : State → State) (outs : List Opnd) (role num l : Nat) : State :=
  let s := { s with sp := s.sp.spoilNow }
  let s := s.readLines (fun x => decide (x = l))
  let ls := s.unmade run (spadOnly outs) l
  let kept := fun x => ls.contains x || decide (s.yardBase ≤ x)
  let t := (run { s with freeCtr := s.freeCtr + Config.spadSize
                         sp := { s.sp with decay := s.sp.decay.filter (fun d => !kept (lineOf d.1)) } }).takeBack s ls
  let t := { t with sp := t.sp.yardOf s.sp s.yardBase }
  let k := t.freeCtr
  let t := { t with freeCtr := k + 1, ports := s.ports, yd := s.yd, reqs := s.reqs, out := s.out, xf := s.xf, xp := s.xp
                    wins := s.wins, tr := s.tr
                    ar := { s.ar with flags := s.ar.flags ||| ((Config.freeWord k).setWidth 10 &&& t.ar.flags) } }
  t.raiseHalt q.seq q.pc 0x5001 (infoA true role num l)

/-- An instruction with POISON_OK = 1 has read `n` poisoned lines: ok_reads grows, and the instruction's trace record is written
with the first of them (R43). Which record, its payload, and that it is written once, are open: an INSTR_START record (log 53). -/
def State.noteOkReads (s : State) (q : QEntry) (n : Nat) : State :=
  if n = 0 then s
  else
    let t := { s with ft := { s.ft with okReads := satAdd s.ft.okReads n } }
    if s.fl.any (fun f => decide (f.q.seq = q.seq) && f.noted) then t
    else (t.updInst q.seq (fun f => { f with noted := true })).trace 1 q.tracePayload

/-- The accesses and the effect of an instruction that has started: the check pass of COMMIT, POISON_OK's count, the effect (R42, R43,
R524), which operands that must not overlap leave unspecified (R3, R99). -/
def State.work (s : State) (op : TOp) (q : QEntry) : State :=
  let srcs := op.reads q s
  let sel := fun l => srcs.any (fun p => Src.has p l)
  let s := s.readLines sel
  let lines := s.sp.psnLines.filter sel
  match (if q.w.commit && !op.ownCommit then firstPsn srcs lines else none : Option (Opnd × Nat)) with
  | some (o, l) => s.raiseHalt q.seq q.pc 0x5001 (infoA false o.role o.num l)
  | none =>
    let s := if lines.isEmpty then s
      else if q.w.poisonOk then s.noteOkReads q lines.length
      else s.updInst q.seq (fun x => { x with readPoison := true })
    match (if q.w.commit && !op.ownCommit then s.spoiltLine srcs else none : Option (Opnd × Nat)) with
    | some (o, l) => s.dataPassFails q (op.run q) (op.outs q) o.role o.num l
    | none =>
      let s := op.run q s
      if q.misread (op.srcs q) (op.outs q) then s.unspecify q (op.outs q) else s

/-- The lines that an operand names: those listed, or all of its tiles. -/
def Src.lines (p : Src) : List Nat := p.2.getD (p.1.d.tiles.flatMap p.1.d.tileLines)

/-- An operand has a line that the scrub has not reached (R402). -/
def State.scrubHolds (s : State) (p : Src) : Bool :=
  p.1.d.inSpad && s.scrubRange p.1.d.at_ p.1.d.hi && p.lines.any (fun l => s.scrubRange l (l + 128))

/-- One of the lines has not been reached by the scrub. -/
def State.scrubLines (s : State) (ls : List Nat) : Bool := s.sp.scrubRun && ls.any (fun l => s.scrubRange l (l + 128))

/-- An instruction that has started reads, or writes as its effect is made, a line that the scrub has not reached. All that it does then
waits until the scrub has passed each such line, since the model makes it at one tick: the model's choice (R402, logs 6, 95). -/
def State.scrubWaits (s : State) (op : TOp) (q : QEntry) : Bool :=
  s.sp.scrubRun && (((op.srcs q).map (fun o => (o, op.lines q s o))).any s.scrubHolds
    || (op.writes q s).any (fun r => s.scrubRange r.1 r.2))

/-- Start an instruction that has left the queue: start checks, a set YARD_TAINT (R481, R526), then its accesses and its effect, or the
wait for the scrub (R77, R402). -/
def State.startTensor (s : State) (op : TOp) (q : QEntry) : State :=
  match firstStart (s.commonStart (op.srcs q) (op.outs q) ++ op.startChk q s) with
  | some f => s.raiseHalt q.seq q.pc f.1 f.2
  | none =>
    let s := if q.w.tmark then s.trace 1 q.tracePayload else s
    let waits := s.scrubWaits op q
    let s := { s with fl := s.fl ++ [(⟨q, s.tickW, none, false, false, [], if waits then .scrub else .idle⟩ : Inflight)] }
    if q.w.commit && s.yd.taintAny then
      s.raiseHalt q.seq q.pc 0x5001 (infoA false 0x7E 0 s.yd.taintColl.toNat)
    else if waits then s else s.work op q

/-- A tick barrier or a T.SPAD in flight holds every later instruction (R393, R636). -/
def Inflight.holdsLater (f : Inflight) : Bool :=
  (f.q.w.opc = 0x60 && f.q.w.fn = 1) || f.q.w.opc = 0x68

/-- The groups g0 to g0 + n − 1 of a T.SPAD (Table 9.6). -/
def spadGroups (w : InsWord) : List Nat := strided (bitsOf w.imm32.toNat 0 8) 1 (bitsOf w.imm32.toNat 8 8 + 1)

/-- R67, R68, R74, R138, R280, R393, R636 and the class's own holds let the front of the queue be ready. -/
def State.allowed (s : State) (op : TOp) (q : QEntry) : Bool :=
  (q.w.ovl || s.fl.isEmpty) && decide (s.fl.length < Config.inFlightMax) && !s.fl.any Inflight.holdsLater
  && s.unitFree q && !s.sameTid q && !op.hold q s

/-- The tick at which the entry became ready (R74): its start tick where nothing else held it, also where a TCLK steps over that tick
(R493), the model's choice (log 75). -/
def QEntry.readyTick (q : QEntry) : Nat := max (q.readyAt.getD 0).toNat (q.startAt.getD 0).toNat

/-- PRESENCE records as a wait ends. -/
def State.presenceEnd (s : State) (q : QEntry) (still : List Nat) : State :=
  q.short.foldl (fun s i => s.trace 8 (i * 2 ^ 55 + (if still.contains i then 2 ^ 54 else 0)
    + min (s.now - q.readyTick) (2 ^ 22 - 1) * 2 ^ 32 + q.seq % 2 ^ 32)) s

/-- 0x3004 at an entry of the queue. -/
def State.raiseShort (s : State) (q : QEntry) (ws : List (Nat × Nat)) : State :=
  let i := (ws.head?.getD (0, 0)).1
  let missing := (ws.head?.getD (0, 0)).2 - (s.window i).received.toNat
  s.raiseHalt q.seq q.pc 0x3004 (infoW (min missing (2 ^ 32 - 1)) i)

def State.setFront (s : State) (q : QEntry) : State :=
  { s with tq := match s.tq with | [] => [] | _ :: r => q :: r }
def State.popFront (s : State) : State := { s with tq := s.tq.tail }

/-- The lateness of an entry that becomes ready (R74, R75): the count and maximum, a LATE record, and 0x9001. That an
instruction which 0x9001 stops is counted and recorded as late first is the model's choice (log 48). -/
def State.late (s : State) (q : QEntry) : State × Bool :=
  match q.startAt with
  | none => (s, false)
  | some t =>
    let l := q.readyTick - t.toNat
    if l = 0 then (s, false)
    else
      let lim := q.lateLim.getD s.job.lateLimit.toNat
      let s := { s with job := { s.job with
        lateCount := satAdd s.job.lateCount 1
        lateMax := BitVec.ofNat 32 (max s.job.lateMax.toNat (min l (2 ^ 32 - 1))) } }
      let s := s.trace 7 (min l (2 ^ 28 - 1) * 2 ^ 32 + q.seq % 2 ^ 32)
      if lim ≠ 0 ∧ lim < l then (s.raiseHalt q.seq q.pc 0x9001 (BitVec.ofNat 64 l), true) else (s, false)

/-- Note the tick from which the front of the queue is allowed to start. -/
def State.noteAllowed (s : State) (op : TOp) : State :=
  match s.tq with
  | [] => s
  | q :: _ => if q.readyAt.isNone && s.allowed op q then s.setFront { q with readyAt := some s.tickW } else s

/-- The front of the queue: become ready, make the presence check, start or wait (R73 to R80). -/
def State.tryStart (s : State) (op : TOp) : State :=
  let s := s.noteAllowed op
  match s.tq with
  | [] => s
  | q :: _ =>
    if q.readyAt.isNone || !s.allowed op q || decide (s.now < (q.startAt.getD 0).toNat) then s
    else
      let sh := s.short (op.present q s)
      match q.short with
      | [] =>
        let (s, dead) := s.late q
        if dead then s
        else if sh.isEmpty then s.popFront.startTensor op q
        else if s.job.grace = 0 then s.raiseShort q sh
        else s.setFront { q with short := sh.map (·.1), grace := s.job.grace.toNat }
      | _ :: _ =>
        if sh.isEmpty then (s.presenceEnd q []).popFront.startTensor op { q with short := [] }
        else s

/-- The presence wait of the front has lasted its grace (R78): 0x3004, unless every count is met. -/
def State.presenceDue (s : State) (op : TOp) : State :=
  match s.tq with
  | [] => s
  | q :: _ =>
    if q.short.isEmpty || decide (s.now < q.readyTick + q.grace) then s
    else
      let sh := s.short (op.present q s)
      if sh.isEmpty then s else (s.presenceEnd q (sh.map (·.1))).raiseShort q sh

/-- Bits [8k + 5 : 8k] of AUX64 as a descriptor number. -/
def auxDesc (w : InsWord) (lo : Nat) : Nat := bitsOf w.aux64.toNat lo 6

/-- The queue entry of a tensor instruction at head of issue (R55, R72, R124); `aux` are descriptors named in AUX64. -/
def State.entry (s : State) (w : InsWord) (aux : List Nat) : QEntry :=
  let g := fun i => Desc.ofBits (s.getD i)
  let chain := fun c => if c = 0 then [] else (List.range 16).map (fun j => AL.getD s.xp.chains (16 * c + j) 0)
  { w := w, pc := s.sb.pc, seq := s.sb.nextSeq, dst := g w.dst.toNat, sa := g w.sa.toNat, sb := g w.sb.toNat,
    sc := g w.sc.toNat, aux := aux.map g, chain0 := chain w.xs.toNat, chain1 := chain (bitsOf w.aux64.toNat 59 5), preds := s.sb.p,
    startAt := if w.start40 = 0 then none else some (s.sb.epoch + w.start40.setWidth 64)
    epoch := s.sb.epoch, step := s.sb.step, readyAt := none, short := [], grace := 0, lateLim := none, barLim := none }

/-- A tensor instruction row: head-of-issue checks (R44, R518), the next address (R33), the queue (R61), and the start
when nothing holds it. -/
def tensorRow (i : Instr) (w : InsWord) (s : State) (aux : List Nat) (chk : QEntry → State → List Flt) (op : TOp) : Out :=
  instrRow i w s (fun s =>
    let q := s.entry w aux
    match firstFlt (chk q s) with
    | some f => s.raiseIssue f
    | none =>
      if s.nextBad then s.raiseIssue (0x1003, s.nextInfo)
      else if Config.queueRoom ≤ s.tq.length then { s with sb := { s.sb with wait := some w } }
      else
        let first := s.tq.isEmpty
        let s := { s.advance with
          tq := s.tq ++ [q]
          live := { s.live with issued := s.live.issued + 1 } }
        let s := { s with sb := { s.sb with nextSeq := s.sb.nextSeq + 1 } }
        if first then s.tryStart op else s)

/-- The operands a word names, by role. -/
def QEntry.oDst (q : QEntry) : Opnd := ⟨0, q.w.dst.toNat, q.dst⟩
def QEntry.oSa (q : QEntry) : Opnd := ⟨1, q.w.sa.toNat, q.sa⟩
def QEntry.oSb (q : QEntry) : Opnd := ⟨2, q.w.sb.toNat, q.sb⟩
def QEntry.oSc (q : QEntry) : Opnd := ⟨3, q.w.sc.toNat, q.sc⟩

/-- Operands under a condition. -/
def when (b : Bool) (o : Opnd) : List Opnd := if b then [o] else []

/-- The lines that hold an element that the instruction writes of an output: of DST those that PRED lets it write (R57), of any
other all. -/
def QEntry.written (q : QEntry) (o : Opnd) : List Nat := o.d.linesOf (o.d.ixs.filter (fun x => o ≠ q.oDst || q.gate o.d x))

/-- Lines as byte ranges. -/
def lineRanges (ls : List Nat) : List (Nat × Nat) := ls.map (fun l => (l, l + 128))

/-- A class that reads and writes the scratchpad and has no rule of its own at its start. -/
def plainOp (srcs outs : QEntry → List Opnd) (run : QEntry → State → State) : TOp :=
  { srcs := srcs, outs := outs, present := fun q s => presentOf (srcs q) s, startChk := fun _ _ => [],
    hold := fun _ _ => false, ownCommit := false, run := run, lines := fun _ _ _ => none,
    writes := fun q _ => lineRanges ((spadOnly (outs q)).flatMap q.written) }

/-- Head-of-issue checks of operands that describe the scratchpad, and R39. -/
def spadChecks (q : QEntry) (s : State) (os : List Opnd) : List Flt :=
  badShape q.w (q.w.dfmt ≠ q.dst.format || q.w.sfmt ≠ q.sa.format)
  ++ os.flatMap (s.checkOpnd q.w [.spad])

/-- The hash context of a destination (R124). -/
def QEntry.sr (q : QEntry) (s : State) : SrCtx := ⟨s.sb.seed, q.dst.tensorId, q.step⟩

end Sys2Proof.Machine
end

