-- ==== Sys2Proof/Machine/Job.lean ====
section
/-! DEFINITION. How a job's life ends and what follows it: windows and slots close, the scrub, entering IDLE, the launch
(02 R85 to R96; 09 R400 to R406; 10 R426; 16 R582). -/

namespace Sys2Proof.Machine

/-! ### Yard sizes (11 R450, R451) -/

def State.yardSlots (s : State) : Nat := min 256 (s.yardBytes / 65536)
/-- First byte of leaf area `m` of frame `f` of slot `i`. -/
def State.leafAddr (s : State) (i f m : Nat) : Nat :=
  s.yardBase + 65536 * s.yardFrames * i + 65536 * f + 4096 * m

/-! ### Answers (10 Table 10.6, 11 R463) -/

def answerWord (code win chip : Nat) (stamp : BitVec 40) : W64 :=
  BitVec.ofNat 64 (code % 8 * 2 ^ 61 + win % 32 * 2 ^ 56 + chip % 2 ^ 12 * 2 ^ 44 + stamp.toNat)

/-- Buffers of a chunk message (R600). -/
def chunkCost (payload : List Byte) : Nat := cdiv (32 + payload.length) 128

/-- Answer a remote write or a chunk on its port, and return its credits. -/
def State.answerOn (s : State) (port code win : Nat) (stamp : BitVec 40) (cost : Nat) : State :=
  (s.sendFree port (.answer (answerWord code win s.job.chipId.toNat stamp))).giveBack port cost

/-- A NACK of code 1 counts toward the interval of R437; above the limit 0x3002 is recorded once. -/
def State.nackOne (s : State) (win : Nat) : State :=
  let iv := s.now / 65536
  let fresh := s.xf.nack1Iv ≠ iv
  let c := (if fresh then 0 else s.xf.nack1Cnt) + 1
  let done := if fresh then false else s.xf.nack1Rec
  let fire := s.xf.nack1Limit.toNat < c && !done
  let s := { s with xf := { s.xf with nack1Iv := iv, nack1Cnt := c, nack1Rec := done || fire } }
  if fire then s.logOnly 0x3002 (infoW c win) else s

/-! ### Remote writes that are judged (10 R433 to R435) -/

/-- An accepted write stores its words; a line written whole takes the write's poison bit, a line written in part the OR of
it and its own (R433, R357). -/
def State.storeWrite (s : State) (a : Nat) (psn : Bool) (words : List W32) : State :=
  let s := if psn then s.enterPoison 6 (lineOf a) else s
  s.store (words.zipIdx.map (fun p => ⟨8 * (a + 4 * p.2), 32, p.1.toNat⟩)) (fun _ => psn) (fun _ => decide (words.length < 32))

/-- The effect of a judged write, whose first byte is `a`, on its window and the scratchpad (R433 to R435). -/
def State.applyWrite (s : State) (h : RwHdr) (words : List W32) (code a : Nat) : State :=
  let i := bitsOf h.addr.toNat 27 5
  let x := s.window i
  let n := 4 * (h.lenM1.toNat + 1)
  if code = 0 then
    (s.storeWrite a h.psn words).setWindow i { x with received := x.received + BitVec.ofNat 64 n, lastStamp := h.stamp }
  else if code = 5 then
    (s.enterPoison 5 (lineOf a)).setWindow i { x with
      received := x.received + BitVec.ofNat 64 n, psnBytes := satAdd x.psnBytes n
      nackCount := satAdd x.nackCount 1, lastNack := 5 }
  else if x.openTs ≠ none64 then
    s.setWindow i { x with
      rejBytes := satAdd x.rejBytes n, nackCount := satAdd x.nackCount 1, lastNack := BitVec.ofNat 3 code }
  else s

/-- A judged write takes effect and is answered on its port. -/
def State.landWrite (s : State) (p : Nat) (h : RwHdr) (words : List W32) (code a : Nat) : State :=
  (s.applyWrite h words code a).answerOn p code (bitsOf h.addr.toNat 27 5) h.stamp 1

/-! ### Windows and slots at a job's end -/

/-- The accepted writes that still wait for the scrub take effect. -/
def State.landParked (s : State) : State :=
  let mine := s.xf.parked
  let s := { s with xf := { s.xf with parked := mine.filter (fun x => match x with | .write .. => false | _ => true) } }
  mine.foldl (fun s x => match x with | .write p h ws code a => s.landWrite p h ws code a | _ => s) s

/-- R426: every window becomes CLOSED at once; the writes that it accepted stand. -/
def State.closeWindows (s : State) : State :=
  let s := s.landParked
  let s := s.wins.foldl (fun s p =>
    if p.2.trace && p.2.openTs ≠ none64 then s.trace 5 (p.1 * 2 ^ 55 + 3 * 2 ^ 53) else s) s
  { s with wins := s.wins.map (fun p => (p.1, { p.2 with openTs := none64, closeTs := none64 })) }

/-- The payload of a YARD record (12 Table 12.3). -/
def yardRec (slot kind chip chunk : Nat) : Nat := slot * 2 ^ 52 + kind * 2 ^ 49 + chip * 2 ^ 37 + chunk * 2 ^ 17
/-- A YARD record of now. -/
def State.yardTrace (s : State) (slot kind chip chunk : Nat) : State := s.trace 9 (yardRec slot kind chip chunk)
/-- The YARD record of a judged chunk, with the tick of its arrival (R496): of now, or, where it has waited since tick `t`, in the
place that was kept for it. -/
def State.yardJudged (s : State) (since : Option W64) (slot kind chip chunk : Nat) : State :=
  match since with
  | none => s.yardTrace slot kind chip chunk
  | some t => { s with tr := s.tr.fillPlace 9 t (yardRec slot kind chip chunk) }
/-- A chunk that arrives now is not judged yet: its record keeps its place. -/
def State.yardKept (s : State) (since : Option W64) : State :=
  match since with
  | none => { s with tr := s.tr.keepPlace 9 s.tickW }
  | some _ => s

/-- Every slot becomes FREE; chunks held at their ports, or waiting for the scrub there, are answered with code 1 (R465, R535). -/
def State.releaseSlots (s : State) : State :=
  let held := s.yd.held ++ s.xf.parked.filterMap (fun x => match x with
    | .chunk own p h pl since => some ⟨own, p, h, pl, since, 0⟩
    | _ => none)
  let s := { s with yd := { s.yd with slots := [], held := [] }
                    xf := { s.xf with parked := s.xf.parked.filter (fun x => match x with | .chunk .. => false | _ => true) } }
  held.foldl (fun s h =>
    let s := { s with yd := { s.yd with refused := satAdd s.yd.refused 1 } }
    let s := s.yardJudged (some h.since) h.hdr.slot.toNat 1 h.hdr.sender.toNat h.hdr.chunk.toNat
    if h.owner.isSome then s else s.answerOn h.port 1 0 h.hdr.stamp (chunkCost h.payload)) s

/-! ### The scrub (R400 to R402) -/

/-- Every line whose group `sel` names becomes zero, with a clear poison bit and fresh check bits. -/
def Spad.zeroGroups (sp : Spad) (sel : Nat → Bool) : Spad :=
  { sp with
    mem := sp.mem.filter (fun c => !sel (groupOf c.1))
    poison := sp.poison.filter (fun p => !sel (groupOf p.1))
    decay := sp.decay.filter (fun d => !sel (groupOf d.1))
    wb := sp.wb.filter (fun l => !sel (groupOf l)) }

/-- Groups that are ON. -/
def State.onGroups (s : State) : List Nat := (List.range 256).filter s.groupOn

/-- The scrub begins: its lines read as zero from here on, and accesses above the watermark wait (R402). -/
def State.beginScrub (s : State) : State :=
  let s := { s with sp := { s.sp.zeroGroups s.groupOn with scrubRun := true, scrubWm := 0, scrubOn := s.onGroups } }
  s.toState stScrubbing

/-- R93: the job ends in PRESERVED or SCRUBBING. -/
def State.endJob (s : State) : State :=
  let s := s.closeWindows.releaseSlots
  if s.job.preserve then s.toState stPreserved else s.beginScrub

/-! ### Units and marks (16 R582, R588) -/

/-- A unit that is marked failed, in service or a spare. The mark of a RETIRED unit, which no pass can act on any more, counts no
longer: the model's reading of 'any unit' (log 98). -/
def UnitRec.failedMark (u : UnitRec) : Bool := u.failed && u.state ≠ 2
/-- One that is marked warned only. -/
def UnitRec.warnedMark (u : UnitRec) : Bool := u.warned && !u.failed && u.state ≠ 2

/-- The policy of the active profile: 0 PREDICT, 1 FAIL, 2 HOLD. -/
def State.policy (s : State) : Nat := bitsOf s.cfg.active.rsv.toNat 0 2
def State.lends (s : State) : Bool := bitOf s.cfg.active.rsv.toNat 2

def State.anyFailed (s : State) : Bool := s.hl.units.any (fun p => p.2.failedMark)
/-- A mark awaits a pass. -/
def State.markPending (s : State) : Bool :=
  s.anyFailed || (s.policy = 0 && s.hl.units.any (fun p => p.2.warnedMark))

/-- Entering IDLE starts a substitution pass where a mark awaits one: its snapshot lists the failed units by kind and
index, then the warned ones by rem_h and index (R582). -/
def insRem (x : Nat × Nat) : List (Nat × Nat) → List (Nat × Nat)
  | [] => [x]
  | y :: r => if x.2 < y.2 ∨ (x.2 = y.2 ∧ x.1 % 32768 < y.1 % 32768) then x :: y :: r else y :: insRem x r

def State.enterIdle (s : State) : State :=
  if s.markPending then
    let failed := (s.hl.units.filter (fun p => p.2.failedMark)).map (fun p => (p.1, true))
    let warned := if s.policy = 0 then
        (((s.hl.units.filter (fun p => p.2.warnedMark)).map (fun p => (p.1, p.2.remH.toNat))).foldl
          (fun l x => insRem x l) []).map (fun p => (p.1, false))
      else []
    { s with hl := { s.hl with
      pass := true, snap := failed ++ warned
      snapMarks := (s.hl.units.filter (fun p => p.2.failed || p.2.warned)).map (·.1) } }
  else s

/-- R85: a load ends without a job. -/
def State.endLoad (s : State) : State :=
  if s.sp.scrubRun then s.toState stScrubbing else (s.toState stIdle).enterIdle

/-! ### LAUNCH (R87, R94; every register that Table 18.5 sets at L) -/

/-- The reset of LAUNCH: Table 2.1 and every register marked L. Requests of an earlier job that are still unanswered belong to no
instruction from here on, since the sequence numbers begin again at 0. -/
def State.launchReset (s : State) (tick : W64) : State :=
  let m := s.job.manifest
  let s0 : SigBox := { s.sb with
    s := if s.job.chipId = 0 then (if m.arg = 0 then [] else [(1, m.arg)])
         else (if m.arg = 0 then [(2, s.job.chipId.setWidth 64)] else [(1, m.arg), (2, s.job.chipId.setWidth 64)])
    d := [], p := [], pc := m.entry.setWidth 19, fmem := s.sb.mem, wait := none, waitReg := none, epoch := tick, step := 0,
    seed := m.seed, nextSeq := 0 }
  { s with
    sb := s0
    tq := [], fl := [], reqs := s.reqs.map (fun r => { r with owner := none })
    job := { s.job with launch := tick, lateLimit := 0, grace := 1600, lateMax := 0, lateCount := 0, wdogDone := false }
    ar := { s.ar with margin := 1, hist := [], flags := 0, fcMiss := 0, appends := 0 }
    xp := { s.xp with chains := [], rows := [], rowPsn := [], stall := 400000, hdrErr := 0, tiles := 0, hdr := 0 }
    sp := { s.sp with conflict := 0, broadcast := 0 }
    xf := { Xfer.reset with
      nack1Iv := s.xf.nack1Iv, nack1Cnt := s.xf.nack1Cnt, nack1Rec := s.xf.nack1Rec, parked := s.xf.parked }
    wins := []
    yd := { s.yd with
      waitTicks := 80000, claimTicks := 20000, crcBad := 0, refused := 0, accepted := 0, taintAny := false,
      taintCount := 0, taintColl := 0, ovf := false, log := [], events := 0, posts := 0, evts := [], slots := [],
      trigs := [] }
    tr := { Trace.reset with ring := [], lost := 0, written := 0 }
    live := Counters.zero, snap := Counters.zero
    ft := { s.ft with okReads := 0, marked := 0, pfValid := false, pfSource := 0, pfAddr := 0, halting := none }
    bankJ := Banked.zero }

end Sys2Proof.Machine
end

