-- ==== Sys2Proof/Machine/Link.lean ====
section
/-! DEFINITION. The Nirile message layer at the receiver: dropped messages, link errors, credits (17 R600 to R602, R619),
and lines sent to the matrix ports (08 R327, R328). -/

namespace Sys2Proof.Machine

/-- Credits the Skokin grants as receiver (Table 17.1). -/
def rxDepth (p : Nat) : Nat :=
  match portClass p with
  | .aport => 0 | .bport => 0 | .intake => 16 | .mem => 64 | .net => 256 | .peer => 1024 | .host => 64 | .cmd => 16 | .ptb => 4

/-- The port fails: its credits are written off, and what waits at it waits for its timeout (R602). -/
def State.failPort (s : State) (p : Nat) : State :=
  (s.setPort p { s.port p with state := 3, broken := true, txCred := 0, rxFree := 0, rxOut := 0 }).flush p

/-- A link error found here: LINK_ERROR with its reason, unless the port has failed before and sends no more, then FAILED (R549,
R602, R619). -/
def State.linkError (s : State) (p : Nat) (reason : Nat) : State :=
  (if (s.port p).state = 3 && !s.portSends p then s else s.emit p (.linkError (BitVec.ofNat 8 reason))).failPort p

/-- The block attends to port `p`: not while reset holds (R545), and once a start-up fault has stopped it to the command port
alone (14 Table 14.1). -/
def State.hears (s : State) (p : Nat) : Bool :=
  match s.boot.phase with | .inReset => false | .stopped => decide (p = 33) | _ => true

/-- A received message is dropped: counted, logged, and the 16th of one aligned interval is a link error (R619). -/
def State.dropMsg (s : State) (p : Nat) (reason : Nat) : State :=
  if !s.hears p then s else
  let q := s.port p
  let iv := s.now / 65536
  let n := if q.dropIv = iv then q.drops + 1 else 1
  let s := s.setPort p { q with crcErr := satAdd q.crcErr 1, drops := n, dropIv := iv }
  let s := s.logOnly 0x6007 (infoP p s.now)
  if 16 ≤ n then s.linkError p reason else s

/-- The partner must hold a credit for what it sends (R619); an intake tile without one is R274's, and R619 names no
consequence on the PTB port. -/
def creditBound (p : Nat) : Bool :=
  match portClass p with
  | .mem => true | .net => true | .peer => true | .host => true | .cmd => true | _ => false

/-- A well-formed message of a type that Table 17.8 lists for the port classes `cls`: what R619 checks before it acts. The
buffers it takes are `cost`; `k` returns them. -/
def State.receive (s : State) (p : Nat) (cls : List PortClass) (cost : Nat) (k : State → State) : State :=
  if !s.hears p then s
  else if !cls.contains (portClass p) then s.dropMsg p 2
  else if !(s.port p).up then s.dropMsg p 1
  else if decide ((s.port p).rxOut < cost) && creditBound p && decide (2 ≤ (s.port p).version) then s.linkError p 3
  else k (s.setPort p { s.port p with rxOut := (s.port p).rxOut - cost })

/-- A message on the command port: in the base mode it needs no credit (R549, R550, R595, R619). -/
def State.receiveCmd (s : State) (k : State → State) : State :=
  if !s.hears 33 then s
  else if (s.port 33).up then s.receive 33 [.cmd] 1 k
  else if s.cmdBase then k s
  else s.dropMsg 33 1

/-- A command message's buffer is free again. -/
def State.doneCmd (s : State) : State := s.giveBack 33 1

/-- The buffer of the first of `n` waiting commands is free again: only the last of them hold credits of the port's present mode, as
many as are neither out nor free; what came before a new negotiation, or in the base mode, returns none (R600, R601). -/
def State.doneWaiting (s : State) (n : Nat) : State :=
  if n ≤ rxDepth 33 - (s.port 33).rxFree - (s.port 33).rxOut then s.doneCmd else s

/-- An instruction needs a port that is not in service (R543, R599). -/
def State.needPort (s : State) (p : Nat) : List Flt := if (s.port p).up then [] else [(0x6001, infoP p s.now)]

/-- An instruction that posts a trigger needs a network port that is UP (R599). -/
def State.needTrig (s : State) : List Flt := if s.trigPort.isSome then [] else [(0x6001, infoP 22 s.now)]

/-- A matrix port lists a format in its negotiated mode (R339, 15 R564). A port that is not UP has no mode to judge by:
its absence is the fault (0x6001). -/
def State.portFormat (s : State) (p code : Nat) : Bool := !(s.port p).up || bitOf (s.port p).mode.toNat (32 + code)

/-! ### Lines for the matrix ports (R327, R328) -/

/-- The tensor at base 0 with the least pitches of Table 8.2. -/
def Desc.least (d : Desc) : Desc :=
  let d := { d with base := 0, pitch1 := 0, pitch2 := 0, pitch3 := 0 }
  let d := { d with pitch1 := if 2 ≤ d.rk then BitVec.ofNat 32 (d.minPitch 1) else 0 }
  { d with pitch2 := if 3 ≤ d.rk then BitVec.ofNat 32 (d.minPitch 2) else 0 }

/-- A line of an AINT or BINT tensor: index along dimension 2, group of rows or columns, line of the group. -/
structure MLine where
  i2 : Nat
  grp : Nat
  line : Nat
  deriving DecidableEq, Repr

/-- Every line of the tensor in increasing address. -/
def Desc.mLines (d : Desc) : List MLine :=
  let per := if d.layout = 2 then d.qk else d.kw
  (List.range (d.n 2)).flatMap (fun b => (List.range d.units1).flatMap (fun g => (List.range per).map (fun l => ⟨b, g, l⟩)))

/-- The element that holds byte `j` of a line, if one does. -/
def Desc.mElem (d : Desc) (m : MLine) (j : Nat) : Option Ix :=
  let (i1, i0) := if d.layout = 2 then (8 * m.grp + j / 16, (16 * m.line + j % 16) * 8 / d.w)
    else (32 * m.grp + j / 4, m.line * (32 / d.w) + j % 4 * 8 / d.w)
  if i1 < d.n 1 ∧ i0 < d.n 0 then some ⟨i0, i1, m.i2, 0⟩ else none

def Desc.mAddr (d : Desc) (m : MLine) : Nat :=
  d.at_ + 4 * (m.grp * d.pitch 1 + m.i2 * d.pitch 2) + 128 * m.line

/-- The message that carries a line of a tensor in the scratchpad. -/
def State.operandMsg (s : State) (d : Desc) (otag : Byte) (m : MLine) : OutMsg :=
  let es := (List.range 128).map (d.mElem m)
  let bs := (List.range 128).map (fun j => if (d.mElem m j).isSome then s.sp.mem.read (d.mAddr m + j) else 0)
  .operand (!s.sp.psnLines.isEmpty && (es.filterMap id).eraseDups.any (s.elemPsn d)) otag
    (BitVec.ofNat 32 (d.lineNo m.grp m.line m.i2)) bs

/-- Send every line of a tensor to a matrix port. -/
def State.sendTensor (s : State) (p : Nat) (seq : Nat) (d : Desc) (otag : Byte) : State :=
  d.mLines.foldl (fun t m => t.send p (some seq) (s.operandMsg d otag m)) s

/-! ### Remote writes and bus lines (R422, R635) -/

/-- The chip of a remote descriptor (Table 9.1). -/
def Desc.chip (d : Desc) : Nat := bitsOf d.at_ 32 12
/-- The DST is the peer chip's, which the peer port alone reaches (00 R2). -/
def State.peerDst (s : State) (d : Desc) : Bool := d.region = some .remote && d.chip = s.job.chipId.toNat ^^^ 1

/-- The bytes that a list of bit writes makes, on zero. -/
def bitsImage (ws : List BitW) : Mem := ws.foldl (fun m w => m.writeBits w.at_ w.width w.val) []

/-- The 32-bit words a bit write touches. -/
def BitW.words (w : BitW) : List Nat :=
  if w.width = 0 then [] else strided (w.at_ / 32) 1 ((w.at_ + w.width - 1) / 32 - w.at_ / 32 + 1)

/-- Cut a rising list of words into runs that stay within one line. -/
def wordRuns : List Nat → List (Nat × Nat)
  | [] => []
  | x :: r => match wordRuns r with
    | (y, n) :: q => if y = x + 1 ∧ x / 32 = y / 32 then (x, n + 1) :: q else (x, 1) :: (y, n) :: q
    | [] => [(x, 1)]

/-- The remote writes that carry the bit writes: byte address and words, in increasing address (R422). A bit of such a word that no
write holds (past a row's end, or of a gated element that shares the word) is zero, the model's choice (log 94). -/
def remoteRuns (ws : List BitW) : List (Nat × List W32) :=
  let m := bitsImage ws
  (wordRuns ((ws.flatMap BitW.words).foldl insNat [])).map (fun r =>
    (4 * r.1, (List.range r.2).map (fun k => BitVec.ofNat 32 (m.readLE (4 * (r.1 + k)) 4))))

/-- A remote write's message; its stamp is taken when it leaves. -/
def State.rwriteMsg (s : State) (psn : Bool) (addr : Nat) (words : List W32) : OutMsg :=
  .rwrite ⟨0, 0, s.job.chipId, psn, BitVec.ofNat 5 (words.length - 1), 0, BitVec.ofNat 48 addr⟩ words

/-! ### The bytes of a message sent (17 R616, R617) -/

/-- A remote write's header (10 Table 10.5). -/
def rwHdrBits (h : RwHdr) : BitVec 128 :=
  h.resHi ++ h.stamp ++ h.sender ++ BitVec.ofBool h.psn ++ h.lenM1 ++ h.resLo ++ h.addr

/-- The type of a message (Table 17.8). -/
def OutMsg.type (m : OutMsg) : Nat :=
  match m with
  | .cap _ => 0x01 | .confirm _ => 0x02 | .credit _ => 0x03 | .operand .. => 0x04 | .rwrite .. => 0x06 | .answer _ => 0x07
  | .chunk .. => 0x08 | .trigger .. => 0x09 | .mread .. => 0x0B | .mwrite .. => 0x0C | .completion .. => 0x10
  | .imageReq _ => 0x12 | .linkError _ => 0x3F

/-- The contents of its body (Table 17.8). -/
def OutMsg.contents (m : OutMsg) : List Byte :=
  let token := fun (t : BitVec 6) (psn : Bool) (a : BitVec 48) =>
    leBytes 8 (t.toNat * 2 ^ 56 + (if psn then 2 ^ 55 else 0) + a.toNat)
  match m with
  | .cap w => leBytes 8 w.toNat
  | .confirm w => leBytes 8 w.toNat
  | .credit n => leBytes 8 n
  | .operand psn tag line data => leBytes 8 ((if psn then 2 ^ 40 else 0) + tag.toNat * 2 ^ 32 + line.toNat) ++ data
  | .rwrite h ws => leBytes 16 (rwHdrBits h).toNat ++ wordsToBytes ws
  | .answer w => leBytes 8 w.toNat
  | .chunk h pl => leBytes 32 (chunkHdrBits h).toNat ++ pl
  | .trigger id v => leBytes 16 (id.toNat * 2 ^ 64 + v.toNat)
  | .mread t a => token t false a
  | .mwrite t psn a data => token t psn a ++ data
  | .completion st vals => leBytes 8 st.toNat ++ vals.flatMap (fun v => leBytes 8 v.toNat)
  | .imageReq b => leBytes 8 (if b then 1 else 0)
  | .linkError r => leBytes 8 r.toNat

/-- The body: the contents, padded with zero bytes to whole 8-byte units (R616). -/
def OutMsg.body (m : OutMsg) : List Byte :=
  m.contents ++ List.replicate (8 * cdiv m.contents.length 8 - m.contents.length) 0

/-- The link word: type, length in 8-byte units, and the CRC-32C of its bytes 4 to 7 and of the body (Table 17.7). -/
def OutMsg.link (m : OutMsg) : W64 :=
  let hi := m.type * 2 ^ 26 + m.body.length / 8
  BitVec.ofNat 32 hi ++ crc32c (leBytes 4 hi ++ m.body)

end Sys2Proof.Machine
end

