-- ==== Sys2Proof/Machine/Ports.lean ====
section
/-! DEFINITION. Port negotiation, credit returns, link errors and dropped messages (15 R564 to R567; 17 R593 to R602, R616
to R619, R634). -/

namespace Sys2Proof.Machine

/-! ### CAP words (15 Table 15.7, 17 Tables 17.1, 17.2) -/

/-- Option bits [26:24] of the Skokin's CAP word: stamp40, trig, psn (Table 17.1). -/
def ownOptions (p : Nat) : Nat :=
  match portClass p with
  | .net => 7 | .peer => 5 | .cmd => 0 | .ptb => 0 | _ => 1
/-- The formats of the Skokin's CAP word (R597). -/
def ownFmt (p : Nat) : Nat :=
  match portClass p with
  | .aport => 0x1F | .bport => 0x1F | .intake => 1 | _ => 0xFFFF

/-- A CAP or confirm word by its fields. -/
def capWord (hi lo width fmt opts kind depth : Nat) : W64 :=
  BitVec.ofNat 64 (hi % 16 * 2 ^ 60 + lo % 16 * 2 ^ 56 + width % 16 * 2 ^ 52 + fmt % 2 ^ 16 * 2 ^ 32 + opts % 8 * 2 ^ 24
    + kind % 256 * 2 ^ 16 + depth % 2 ^ 16)

/-- The CAP word that the Skokin sends on port `p` (R594, R595, R597, Table 17.1). -/
def ownCap (p : Nat) : W64 := capWord 3 1 3 (ownFmt p) (ownOptions p) p (rxDepth p)

/-- The least depth that a partner may advertise (R634). -/
def leastDepth (p : Nat) : Nat :=
  match portClass p with
  | .net => 33 | .peer => 33 | .intake => 0 | .ptb => 0 | _ => 1

/-- The confirm word of the mode that R565 gives for a partner's CAP word; none where the versions or the kinds differ. -/
def modeOf (p : Nat) (w : W64) : Option W64 :=
  let x := w.toNat
  let v := min 3 (bitsOf x 60 4)
  if v < max 1 (bitsOf x 56 4) ∨ bitsOf x 16 8 ≠ p then none
  else
    let base := v = 1
    some (capWord v v (if base then 0 else min 3 (bitsOf x 52 4)) (ownFmt p &&& bitsOf x 32 16)
      (if base then 0 else ownOptions p &&& bitsOf x 24 3) p (rxDepth p))

/-- The floor of a port under the active profile: lowest version, lowest width code (Table 15.3). -/
def State.floorOf (s : State) (p : Nat) : Nat × Nat :=
  match (portClass p).index with
  | none => (0, 0)
  | some c => (bitsOf s.cfg.active.floors.toNat (8 * c + 4) 4, bitsOf s.cfg.active.floors.toNat (8 * c) 4)

/-- A mode that no case of R566, R596, R597 or R634 rules out; `cap` is the partner's CAP word. -/
def State.modeOk (s : State) (p : Nat) (mode cap : W64) : Bool :=
  let m := mode.toNat
  let v := bitsOf m 60 4
  let cls := portClass p
  decide ((s.floorOf p).1 ≤ v ∧ (s.floorOf p).2 ≤ bitsOf m 52 4)
  && (cls = .cmd || cls = .ptb || decide (2 ≤ v))
  && (!(cls = .mem || cls = .net || cls = .peer || cls = .host) || bitOf m 24)
  && (cls ≠ .net || (bitOf m 25 && bitOf m 26))
  && (cls ≠ .peer || bitOf m 26)
  && (cls ≠ .intake || bitOf m 32)
  && decide (leastDepth p ≤ bitsOf cap.toNat 0 16)

/-! ### Attempts -/

/-- Begin an attempt: the CAP word leaves (R564). -/
def State.startAttempt (s : State) (p : Nat) : State :=
  let q := s.port p
  (s.setPort p { q with state := 1, attempts := q.attempts + 1, confirmed := false, negAt := s.tickW, negFrom := s.clock,
                        txCred := 0, rxFree := 0, rxOut := 0 }).emit p (.cap (ownCap p))

/-- Begin the negotiation of a port. -/
def State.negotiate (s : State) (p : Nat) : State := (s.setPort p { s.port p with attempts := 0 }).startAttempt p

/-- No port negotiates. -/
def State.negotiated (s : State) : Bool := s.ports.all (fun p => p.2.state ≠ 1)

/-- SVC_STAT.port_ok's bit of a port's class (Table 14.8). -/
def State.setClass (s : State) (p : Nat) (b : Bool) : State :=
  match (portClass p).index with
  | none => s
  | some c =>
    let m : BitVec 8 := 1#8 <<< c
    { s with svc := { s.svc with portOk := if b then s.svc.portOk ||| m else s.svc.portOk &&& ~~~m } }

/-- The bit of a port's class clears where no port of the class is UP (R567). -/
def State.dropClass (s : State) (p : Nat) : State :=
  if s.ports.any (fun x => decide (portClass x.1 = portClass p) && x.2.up) then s else s.setClass p false

/-- The bits of a CAP word that hold a field; PORT_CAP reads zero in the others (00 R9, Table 15.7). -/
def capFields : W64 := 0xFFF0_FFFF_07FF_FFFF#64

/-- The partner's CAP word: the mode is computed and the confirm word leaves (R564, R565). -/
def State.capArrives (s : State) (p : Nat) (w : W64) : State :=
  let q := s.port p
  if !s.hears p then s
  else if q.state ≠ 1 then s.logOnly 0x6007 (infoP p s.now)
  else match modeOf p w with
    | none => s.setPort p { q with cap := w &&& capFields, confirmed := false }
    | some m => (s.setPort p { q with cap := w &&& capFields, mode := m, confirmed := true }).emit p (.confirm m)

/-- The port is UP with the depths of R565; an intake port grants nothing yet (R273), and no credit of an earlier negotiation is out
there, those of an abandoned T.XPR among them (R535, R601). -/
def State.portUp (s : State) (p : Nat) : State :=
  let q := s.port p
  let d := bitsOf q.cap.toNat 0 16
  let intake := portClass p = .intake
  let s := s.setPort p { q with state := 2, confirmed := false, txDepth := BitVec.ofNat 16 d, txCred := d
                                rxFree := if intake then rxDepth p else 0, rxOut := if intake then 0 else rxDepth p }
  ({ s with xp := { s.xp with discard := AL.del s.xp.discard p } }.setClass p true).flush p

/-- The partner's confirm word: where it matches the own mode and R566 rules nothing out, the attempt succeeds. -/
def State.confirmArrives (s : State) (p : Nat) (w : W64) : State :=
  let q := s.port p
  if !s.hears p then s
  else if q.state ≠ 1 then s.logOnly 0x6007 (infoP p s.now)
  else if q.confirmed && w.toNat / 2 ^ 16 = q.mode.toNat / 2 ^ 16 && s.modeOk p q.mode q.cap then s.portUp p
  else s

/-! ### CREDIT, TICK, LINK_ERROR -/

/-- A credit return: credits above the negotiated depth are ignored and the message counts as dropped (R600, R619,
Table 14.6). -/
def State.creditArrives (s : State) (p : Nat) (w : W64) : State :=
  let q := s.port p
  let n := w.toNat
  if !s.hears p then s
  else if !q.up then s.dropMsg p 1
  else if q.version < 2 then s.dropMsg p 2
  else if n = 0 ∨ (if q.version = 2 then 1 else 8) < n then s.logOnly 0x6007 (infoP p s.now)
  else
    let s := s.setPort p { q with txCred := min (q.txCred + n) q.txDepth.toNat }
    let s := if q.txDepth.toNat < q.txCred + n then s.dropMsg p 1 else s
    s.flush p

/-- The PTB's message announces the tick of the next pulse (12 R494); its buffer is free at once. -/
def State.tickArrives (s : State) (t : W64) : State :=
  ({ s with tb := { s.tb with ann := some (t, s.tickW) } }).credits 34 1
def execTick (port : Fin 35) (t : W64) (s : State) : Out :=
  .next (s.receive port.val [.ptb] 0 (fun s => s.tickArrives t))

/-- LINK_ERROR: the port is FAILED at once and sends none in reply (R602, R619). -/
def State.linkErrorArrives (s : State) (p : Nat) : State :=
  if !s.hears p then s else if (s.port p).up then s.failPort p else s.dropMsg p 1
def execLinkError (port : Fin 35) (_word : W64) (s : State) : Out := .next (s.linkErrorArrives port.val)

/-! ### MESSAGE_DROP (R616, R619, Tables 17.7, 17.8) -/

/-- A type that Table 17.8 lists as received on a port class. -/
def typeListed (t : Nat) (c : PortClass) : Bool :=
  match t with
  | 0x01 => true | 0x02 => true | 0x03 => true | 0x3F => true
  | 0x05 => c = .intake
  | 0x06 => c = .net || c = .peer
  | 0x07 => c = .net || c = .peer
  | 0x08 => c = .net || c = .peer
  | 0x0A => c = .net
  | 0x0D => c = .mem || c = .host
  | 0x0E => c = .ptb
  | 0x0F => c = .cmd
  | 0x11 => c = .cmd
  | _ => false

/-- The length in 8-byte units that a COMMAND's code asks for (R618); an unknown code leaves it open. -/
def commandLen (code len : Nat) : Bool :=
  match code with
  | 0x01 => len = 17 | 0x02 => len = 2 | 0x03 => len = 1 | 0x04 => len = 1 | 0x05 => len = 1 | 0x06 => len = 1
  | 0x07 => len = 2 | 0x08 => decide (2 ≤ len) | _ => decide (1 ≤ len)

/-- The length matches the type (Table 17.8): an RWRITE's len_m1, a CHUNK's wire format and an MRESP's ack say what follows. -/
def lenOk (t len : Nat) (body : List Byte) : Bool :=
  match t with
  | 0x05 => len = 513
  | 0x06 => len = 2 + (bitsOf (leNat (body.take 16)) 62 5 + 2) / 2
  | 0x08 => len = if bitsOf (leNat (body.take 32)) 216 4 = 1 then 260 else 516
  | 0x0A => len = 2
  | 0x0D => len = if bitOf (leNat (body.take 8)) 53 then 1 else 17
  | 0x0F => commandLen (body.head?.getD 0).toNat len && decide (len ≤ 1024)
  | 0x11 => decide (1 ≤ len ∧ len ≤ 1024)
  | _ => len = 1

/-- Why R619 drops a received message, in the order check, reserved bits, type, length, port (log 32); none: it does not. -/
def State.dropReason (s : State) (p : Nat) (link : W64) (body : List Byte) : Option Nat :=
  let x := link.toNat
  let t := bitsOf x 58 6
  let len := bitsOf x 32 16
  if crc32c (leBytes 4 (x / 2 ^ 32) ++ body) ≠ link.setWidth 32 ∨ bitsOf x 48 10 ≠ 0 then some 1
  else if !typeListed t (portClass p) || !lenOk t len body || body.length ≠ 8 * len then some 2
  else if (s.port p).up || t = 0x01 || t = 0x02 || ((t = 0x0F || t = 0x11) && s.cmdBase) then none
  else some 1

end Sys2Proof.Machine
end

