-- ==== Sys2Proof/Machine/Clock.lean ====
section
/-! DEFINITION. The timebase's discipline (12 R492 to R495; 15 R568, R569; 14 Table 14.6). -/

namespace Sys2Proof.Machine

/-- TB_INC's nominal value (R492). -/
def nominalInc (rootMhz : BitVec 16) : W32 := if rootMhz = 4200 then 0x0124_9249 else 0x0100_0000

/-- The active profile's tb_src is free-running (15 Table 15.3). -/
def State.tbFree (s : State) : Bool := bitOf s.cfg.active.flags.toNat 0

/-- TIMEBASE payload (12 Table 12.3). -/
def State.tbRecord (s : State) (step : Bool) (size : Nat) : State :=
  s.trace 12 (s.tb.lock.toNat * 2 ^ 58 + (if step then 2 ^ 57 else 0) + size % 2 ^ 40)

/-- A change of the lock state, with its TIMEBASE record. -/
def State.setLock (s : State) (l : BitVec 2) : State :=
  if s.tb.lock = l then s else ({ s with tb := { s.tb with lock := l } }).tbRecord false 0

/-- The largest correction of TB_INC (R494). -/
def State.slewMax (s : State) : Nat := (nominalInc s.cfg.active.rootMhz).toNat * s.tb.slew.toNat / 1000000

/-- TB_STAT.offset in 1/256 tick; a free value where the field cannot hold it (log 2). -/
def State.setOffset (s : State) (off : Int) : State :=
  let v := off / 65536
  if -(2 : Int) ^ 31 ≤ v ∧ v < (2 : Int) ^ 31 then { s with tb := { s.tb with offset := BitVec.ofInt 32 v } }
  else
    let (r, s) := s.freeWord
    { s with tb := { s.tb with offset := r.setWidth 32 } }

/-- TB_INC until the next pulse, for an offset within step_limit: corrected toward it by an amount that the spec leaves open
up to slew_ppm (R494, log 2). -/
def State.slewToward (s : State) (off : Int) : State :=
  let n := (nominalInc s.cfg.active.rootMhz).toNat
  let (r, s) := s.freeWord
  let k := if off = 0 then 0 else r.toNat % (s.slewMax + 1)
  { s with tb := { s.tb with inc := BitVec.ofNat 32 (if 0 < off then n + k else n - k) } }

/-- An instruction whose start tick a step from `old` to `t` skips becomes ready at the tick `t`, late (R74, R75, the text under R495). -/
def QEntry.skipTo (q : QEntry) (old t : W64) : QEntry :=
  if q.readyAt.isSome && q.startAt.any (fun x => decide (old.toNat < x.toNat ∧ x.toNat < t.toNat)) then { q with readyAt := some t } else q

/-- The tick becomes `t`; window boundaries and start ticks that the step skips act as passed. -/
def State.setTick (s : State) (t : W64) : State :=
  State.windowEvents (old := s.now)
    { s with tb := { s.tb with acc := t.setWidth 88 <<< 24 }, tq := s.tq.map (fun q => q.skipTo s.tickW t) }

/-- Two consecutive pulses within step_limit lock the timebase (R495, R568). -/
def State.goodPulse (s : State) : State :=
  let s := { s with tb := { s.tb with good := s.tb.good + 1, ahead := false } }
  if 2 ≤ s.tb.good then s.setLock 2 else s

/-- A pulse judged under R494; `t` is its tick. -/
def State.judgePulse (s : State) (t : W64) : State :=
  let off : Int := (t.toNat * 2 ^ 24 : Nat) - (s.tb.acc.toNat : Int)
  let lim : Int := (s.tb.stepLimit.toNat * 2 ^ 24 : Nat)
  let s := s.setOffset off
  if -lim ≤ off ∧ off ≤ lim then (s.slewToward off).goodPulse
  else if lim < off then
    let size := t.toNat - s.now
    let s := s.setTick t
    let s := { s with tb := { s.tb with steps := satAdd s.tb.steps 1, good := 0, ahead := false } }
    (s.tbRecord true size).logOnly 0x9002 (BitVec.ofNat 64 size)
  else
    let first := !s.tb.ahead
    let s := { s with tb := { s.tb with
      good := 0, ahead := true, inc := BitVec.ofNat 32 ((nominalInc s.cfg.active.rootMhz).toNat - s.slewMax) } }
    if first then s.logOnly 0x9002 0 else s

/-- No valid pulse has come for holdover_ticks since the last one (R495). -/
def State.pulsesLost (s : State) : Bool := s.tb.lastPulse.any (fun p => decide (p.2.toNat + s.tb.holdLim ≤ s.now))

/-- The pulse has its tick message, and its tick follows the last valid pulse's (Table 14.6). After a loss of pulses the last is too
far back, and the next pulse counts as a first one: the model's reading, by which R495's return to LOCKED can happen (log 58). -/
def State.pulseTick (s : State) : Option W64 :=
  match s.tb.ann with
  | none => none
  | some (t, at_) =>
    let near := decide (s.now ≤ at_.toNat + 65536)
    let next := s.tb.lastPulse.all (fun p => decide (t.toNat = p.1.toNat + 65536)) || s.pulsesLost
    if near && next then some t else none

/-- The timebase waits for its lock: start-up step 6, or the last change of a profile switch. -/
def State.locking (s : State) : Bool :=
  decide (s.boot.phase = .step 6) || (match s.cfg.switching with | some (_, 5) => true | _ => false)

/-- The first valid pulse of a lock sets the tick and raises nothing (R568); the lock's time runs on the scale of the new tick. A PTB
tick below the own one leaves the tick, which never decreases, as it is (R493, log 14). -/
def State.firstPulse (s : State) (t : W64) : State :=
  let s := s.setOffset ((t.toNat * 2 ^ 24 : Nat) - (s.tb.acc.toNat : Int))
  let s := if s.now < t.toNat then
      { s with boot := { s.boot with lockFrom := s.boot.lockFrom + t.toNat - s.now } }.setTick t else s
  { s with tb := { s.tb with good := 0 } }

/-- A valid pulse: the first of a lock, or any other, judged under R494. One whose tick does not follow the last valid one's by 65,536, as
after a loss of pulses, is consecutive to none before it (R494, R495). -/
def State.validPulse (s : State) (t : W64) : State :=
  let s := if s.tb.lastPulse.any (fun p => decide (t.toNat ≠ p.1.toNat + 65536)) then { s with tb := { s.tb with good := 0 } } else s
  let s := if s.locking && s.tb.lastPulse.isNone then s.firstPulse t else s.judgePulse t
  { s with tb := { s.tb with ann := none, lastPulse := some (t, s.tickW), holdLim := s.tb.holdover.toNat } }

/-- A filtered PTB pulse, from the start of step 6 on and with tb_src = PTB. -/
def State.pulse (s : State) : State :=
  let heard := match s.boot.phase with
    | .ready => true | .stopped => false | .step k => decide (k = 6) | .inReset => false
  if !heard || s.tbFree then s
  else match s.pulseTick with
    | some t => s.validPulse t
    | none => s.logOnly 0x6007 (infoP 34 s.now)

/-- No valid pulse for holdover_ticks (R495). -/
def State.holdover (s : State) : State :=
  match s.tb.lastPulse with
  | none => s
  | some (_, own) =>
    if s.tb.lock = 0 ∨ s.tb.lock = 3 then s
    else
      let s := (s.elapseTo (own.toNat + s.tb.holdLim)).setLock 3
      ({ s with tb := { s.tb with good := 0 } }).logOnly 0x9003 (BitVec.ofNat 64 (s.now - own.toNat))

def execHoldover (s : State) : Out := .next s.holdover

/-- The lock of start-up step 6 or of a profile switch begins (R568, R569): free-running ends at once, PTB waits in LOCKING. -/
def State.beginLock (s : State) : State :=
  let s := { s with boot := { s.boot with lockFrom := s.now, lockLim := s.tb.holdover.toNat }
                    tb := { s.tb with inc := nominalInc s.cfg.active.rootMhz, lastPulse := none, good := 0, ahead := false } }
  s.setLock (if s.tbFree then 0 else 1)

/-- The tick at which the lock's time ends (R528, R568). -/
def State.lockEnd (s : State) : Nat := (s.boot.lockFrom + s.boot.lockLim).toNat

/-- The lock's time ends without LOCKED: 0x9003, and HOLDOVER where no valid pulse has come (R568, R569). -/
def State.lockLate (s : State) : State :=
  let s := s.elapseTo s.lockEnd
  let since : Int := match s.tb.lastPulse with | some (_, own) => own.toNat | none => s.boot.lockFrom
  let s := if s.tb.lastPulse.isNone then s.setLock 3 else s
  s.logOnly 0x9003 (BitVec.ofInt 64 (s.now - since))

end Sys2Proof.Machine
end

