-- ==== Sys2Proof/Machine/Regs.lean ====
section
/-! DEFINITION. The register map: what a read returns and clears, who may write, and what a write does
(00 R18, R19; 18 R620 to R629 and the tables of each chapter). -/

namespace Sys2Proof.Machine

/-- A 64-bit word from fields (lowest bit, value). -/
def pk (fs : List (Nat × Nat)) : W64 := BitVec.ofNat 64 (fs.map (fun p => p.2 * 2 ^ p.1)).sum
def b2n (b : Bool) : Nat := if b then 1 else 0

def State.bank (s : State) (by_ : Party) : Banked := match by_ with | .job => s.bankJ | .kpc => s.bankK
def State.setBank (s : State) (by_ : Party) (b : Banked) : State :=
  match by_ with | .job => { s with bankJ := b } | .kpc => { s with bankK := b }

/-! ### Amax history (03 R135, R136, R155, R156) -/

/-- Append an entry to the history of a tensor id below 1,024. -/
def State.appendAmax (s : State) (tid : Nat) (v : W32) : State :=
  if Config.amaxIds ≤ tid then s
  else
    let h := AL.getD s.ar.hist tid [] ++ [v]
    { s with ar := { s.ar with
      hist := AL.put s.ar.hist tid (h.drop (h.length - Config.amaxEntries))
      appends := satAdd s.ar.appends 1 } }

/-! ### Health (16 Tables 16.4 to 16.6) -/

/-- Units of a kind in a state: the factory count, corrected by the units whose record differs. -/
def State.unitCount (s : State) (kind : Nat) (st : BitVec 2) : Nat :=
  let per := unitPer kind
  let groups := unitInstalled kind / per
  let spareVc := if kind = 3 then 128 * 8 else 0
  let factory := if st = 0 then groups * unitActive kind - spareVc
    else if st = 1 then groups * (per - unitActive kind) + spareVc else 0
  let mine := s.hl.units.filter (fun p => p.1 / 32768 = kind)
  factory + (mine.filter (fun p => p.2.state = st)).length
    - (mine.filter (fun p => (UnitRec.factory kind (p.1 % 32768)).state = st)).length

/-- The unit entry of Table 16.5. -/
def UnitRec.entry (u : UnitRec) : W64 :=
  pk [(62, u.state.toNat), (61, b2n u.failed), (60, b2n u.warned), (48, u.slot.toNat), (40, u.borrower.toNat),
      (0, u.baseline.toNat)]

/-- Kind and physical index of unit entry number `n` of the wear record. -/
def unitOfEntry (n : Nat) : Option (Nat × Nat) :=
  if n < 2176 then some (0, n) else if n < 10880 then some (1, n - 2176) else if n < 12032 then some (2, n - 10880)
  else if n < 31616 then some (3, n - 12032) else if n < 31625 then some (4, n - 31616)
  else if n < 31627 then some (5, n - 31625) else none

/-- 8-byte word `j` of the wear record (Table 16.4). -/
def State.wearWord (s : State) (j : Nat) : W64 :=
  if j = 0 then pk [(0, 1), (32, 31627)] else if j = 1 then 0
  else if j < 130 then AL.getD s.hl.stress (j - 2) 0
  else match unitOfEntry (j - 130) with
    | some (k, i) => (s.unit k i).entry
    | none => 0

/-! ### Reading -/

/-- PG_STAT.state (09 Table 9.5). A group of a POWER_UP that still waits for its ramp shows POWERING_UP, the model's choice (R396, R611,
log 105). -/
def Group.code (g : Group) : Nat :=
  if g.held then 4
  else match g.phase with
    | .off => 0 | .on => 1 | .down => 2 | .waitRamp => 3 | .ramp => 3 | .zeroing => 3

/-- WIN_STAT.state (10 Table 10.7). -/
def Window.state (x : Window) (now : Nat) : Nat :=
  if x.openTs = none64 then 0
  else if x.closeTs = none64 ∨ now < x.closeTs.toNat then 1
  else if now < x.closeTs.toNat + x.drain.toNat then 2 else 0

def State.tokenSum (s : State) (ps : List Nat) : Nat := (ps.map (fun p => 64 - (s.tokensUsed p).length)).sum

/-- One window register (Table 10.12). -/
def State.readWindow (s : State) (i k : Nat) : W64 :=
  let x := s.window i
  match k with
  | 0 => pk [(52, x.sndHi.toNat), (40, x.sndLo.toNat), (16, x.drain.toNat), (1, b2n x.trace), (0, b2n x.psnOk)]
  | 1 => pk [(36, x.linesM1.toNat), (0, x.base.toNat)]
  | 2 => x.openTs
  | 3 => x.closeTs
  | 4 => x.expected
  | 5 => x.received
  | 6 => x.psnBytes ++ x.rejBytes
  | _ => pk [(24, x.lastStamp.toNat), (21, x.lastNack.toNat), (2, x.nackCount.toNat), (0, x.state s.now)]

/-- A LOAD is held under R587, or waits behind a profile switch (R633). -/
def State.loadHeld (s : State) : Bool :=
  s.cmd.heldLoad.isSome
  || (s.cfg.switching.isSome && s.cmd.queue.any (fun c => match c with | .load _ _ => true | _ => false))

/-- The value of a register as it stands, for the reader's own copies (R624). Offsets that Table 18.5 does not list read zero
(R621). So does DIST_DATA where DIST_SEL.row is 144 to 255, rows that R381's table does not have: the model's choice (R407, log
107). -/
def State.readReg (s : State) (by_ : Party) (off : Nat) : W64 :=
  let bk := s.bank by_
  if 0x800 ≤ off ∧ off < 0x1000 then s.readWindow ((off - 0x800) / 64) ((off - 0x800) % 64 / 8)
  else if 0x780 ≤ off ∧ off < 0x800 then
    let e := AL.getD s.yd.evts ((off - 0x780) / 8) ⟨0, false, false, 0⟩
    pk [(48, e.coll.toNat), (47, b2n e.refused), (46, b2n e.taint), (0, e.count.toNat)]
  else if 0x1080 ≤ off ∧ off < 0x2000 then
    AL.getD s.xp.chains (16 * ((off - 0x1080) / 128 + 1) + (off - 0x1080) % 128 / 8) 0
  else if 0x10_0000 ≤ off then
    if by_ = .kpc && !s.active then BitVec.ofNat 64 (s.sb.mem.readLE (off - 0x10_0000) 8) else 0
  else match off with
  | 0x0000 => Config.skvId
  | 0x0008 => pk [(52, s.svc.vcs.toNat), (40, Config.vcDesign), (32, s.svc.platforms.toNat), (24, Config.platDesign),
      (20, Config.dpuPerPlat), (16, Config.sfpPerVc), (12, Config.planesDesign), (6, Config.windows)]
  | 0x0010 => Config.skvParam2
  | 0x0018 => Config.spadSizeReg
  | 0x0020 => pk [(48, s.cmd.lastFault.toNat), (40, s.cmd.lastCode.toNat), (36, if s.loadHeld then 3 else s.cmd.lastResult.toNat),
      (16, (s.cmd.queue.filter (fun c => match c with | .data _ _ => false | _ => true)).length)]
  | 0x0028 => s.cmd.refused ++ s.cmd.accepted
  | 0x0030 => pk [(63, b2n s.job.chipValid), (0, s.job.chipId.toNat)]
  | 0x0100 => pk [(0, b2n s.job.preserve)]
  | 0x0108 => pk [(4, s.job.exitCode.toNat), (0, s.job.state.toNat)]
  | 0x0110 => s.sb.seed
  | 0x0118 => s.sb.pc.setWidth 64
  | 0x0120 => s.sb.step.setWidth 64
  | 0x0128 => s.sb.uncorrected ++ s.sb.corrected
  | 0x0180 => s.sb.epoch
  | 0x0188 => pk [(24, s.job.lateLimit.toNat), (0, s.job.grace.toNat)]
  | 0x0190 => s.job.lateMax ++ s.job.lateCount
  | 0x0198 => s.job.wdog.setWidth 64
  | 0x0200 => s.ar.margin.setWidth 64
  | 0x0208 => pk [(4, bk.amaxTid.toNat), (0, bk.amaxEntry.toNat)]
  | 0x0210 =>
    let h := AL.getD s.ar.hist bk.amaxTid.toNat []
    pk [(32, h.length), (0, (if bk.amaxEntry.toNat < h.length then h.reverse[bk.amaxEntry.toNat]?.getD 0 else 0).toNat)]
  | 0x0218 => s.ar.flags.setWidth 64
  | 0x0220 => s.ar.fcMiss ++ s.ar.appends
  | 0x0300 => s.xp.stall.setWidth 64
  | 0x0308 => s.xp.hdrErr ++ s.xp.tiles
  | 0x0310 => s.xp.hdr
  | 0x0400 => s.xf.dropped ++ s.xf.clamped
  | 0x0408 => s.xf.turntable ++ s.xf.portLines
  | 0x0500 => s.sp.uncorrected ++ s.sp.corrected
  | 0x0508 => pk [(63, b2n s.sp.eccValid), (0, s.sp.eccAddr.toNat)]
  | 0x0510 => s.sp.conflict ++ s.sp.broadcast
  | 0x0518 => s.sp.planeMap.setWidth 64
  | 0x0520 => s.sp.distHash.setWidth 64
  | 0x0528 => pk [(8, bk.distWord.toNat), (0, bk.distRow.toNat)]
  | 0x0530 =>
    let row := s.sp.distTab[bk.distRow.toNat]?.getD []
    pk ((List.range 32).map (fun i => (2 * i, row[32 * bk.distWord.toNat + i]?.getD 0)))
  | 0x0538 => bk.pgGroup.setWidth 64
  | 0x0540 => pk [(3, b2n (s.cfg.active.groups.getLsbD bk.pgGroup.toNat)), (0, (s.group bk.pgGroup.toNat).code)]
  | 0x0548 => BitVec.ofNat 64 s.onGroups.length
  | 0x0550 => pk [(16, b2n s.sp.scrubRun), (0, s.sp.scrubWm)]
  | 0x0558 => pk [(63, b2n s.sp.maddrPsn), (0, s.sp.maddr.toNat)]
  | 0x0600 => pk [(40, s.xf.nack1Limit.toNat), (0, s.xf.drain.toNat)]
  | 0x0608 => pk [(63, b2n s.xf.nackHalt), (40, s.xf.hostTicks.toNat), (20, s.xf.netTicks.toNat), (0, s.xf.memTicks.toNat)]
  | 0x0610 => pk (s.xf.nacks.zipIdx.map (fun p => (12 * p.2, p.1.toNat)))
  | 0x0618 => s.xf.nackLog
  | 0x0620 => s.xf.reldBad ++ s.xf.writes
  | 0x0628 => s.xf.genFailed ++ s.xf.genChecked
  | 0x0630 => pk [(63, b2n s.xf.gfValid), (32, s.xf.gfShard.toNat), (2, b2n s.xf.gfPsn), (1, b2n s.xf.gfCrc),
      (0, b2n s.xf.gfGen)]
  | 0x0700 => pk [(20, s.cfg.active.yardMib.toNat), (16, s.yardFrames), (0, s.yardSlots)]
  | 0x0708 => pk [(24, s.yd.waitTicks.toNat), (0, s.yd.claimTicks.toNat)]
  | 0x0710 => pk [(48, s.yd.crcBad.toNat), (32, s.yd.refused.toNat), (0, s.yd.accepted.toNat)]
  | 0x0718 => s.yd.sel.setWidth 64
  | 0x0720 =>
    let x := s.slot s.yd.sel.toNat
    if x.claimed then pk [(48, x.coll.toNat), (44, x.n - 1), (40, x.me.toNat), (36, x.wfmt.toNat), (34, x.op.toNat), (32, 1),
      (0, x.nchM1.toNat)] else 0
  | 0x0728 => pk [(63, b2n s.yd.taintAny), (32, s.yd.taintCount.toNat), (0, s.yd.taintColl.toNat)]
  | 0x0730 => pk [(15, b2n s.yd.ovf), (8, s.yd.log.length), (0, bk.yardLog.toNat)]
  | 0x0738 => match s.yd.log[bk.yardLog.toNat]? with
    | some e => pk [(48, e.coll.toNat), (28, e.chunk.toNat), (16, e.chip.toNat), (8, e.slot.toNat)]
    | none => 0
  | 0x0740 => match s.yd.log[bk.yardLog.toNat]? with
    | some e => e.stamp.setWidth 64
    | none => 0
  | 0x0748 => s.yd.events ++ s.yd.posts
  | 0x2000 => s.tickW
  | 0x2008 => pk [(24, s.tb.holdover.toNat), (12, s.tb.slew.toNat), (0, s.tb.stepLimit.toNat)]
  | 0x2010 => pk [(32, s.tb.offset.toNat), (16, s.tb.steps.toNat), (0, s.tb.lock.toNat)]
  | 0x2018 => s.tb.inc.setWidth 64
  | 0x2020 => pk [(16, b2n s.tr.stop), (1, s.tr.mask.toNat), (0, b2n s.tr.enable)]
  | 0x2028 => s.tr.lo
  | 0x2030 => s.tr.hi
  | 0x2038 => pk [(33, b2n s.tr.full), (32, b2n s.tr.wrapped), (0, s.tr.wr.toNat)]
  | 0x2040 => bk.traceIdx.setWidth 64
  | 0x2048 => (AL.getD s.tr.ring bk.traceIdx.toNat 0).extractLsb' 0 64
  | 0x2050 => bk.latch
  | 0x2058 => s.tr.lost ++ s.tr.written
  | 0x2088 => s.snap.run
  | 0x2090 => s.snap.busyArray
  | 0x2098 => s.snap.busySfp
  | 0x20A0 => s.snap.busyLattice
  | 0x20A8 => s.snap.idleMatrix
  | 0x20B0 => s.snap.idleNet
  | 0x20B8 => s.snap.idleWindow
  | 0x20C0 => s.snap.idleYard
  | 0x20C8 => s.snap.idleMem
  | 0x20D0 => s.snap.idleTime
  | 0x20D8 => s.snap.idlePower
  | 0x20E0 => s.snap.idleIssue
  | 0x20E8 => s.snap.completed ++ s.snap.issued
  | 0x20F0 => pk [(32, s.tokenSum [31, 32]), (0, s.tokenSum (strided 6 1 16))]
  | 0x3000 => pk [(63, b2n s.ft.valid), (32, s.ft.pc.toNat), (0, s.ft.code.toNat)]
  | 0x3008 => s.ft.tick
  | 0x3010 => s.ft.info
  | 0x3018 => s.ft.seq.setWidth 64
  | 0x3020 => s.ft.logged ++ s.ft.suppressed
  | 0x3028 => pk [(15, b2n s.ft.ovf), (8, s.ft.log.length), (0, bk.faultLog.toNat)]
  | 0x3030 => match s.ft.log[bk.faultLog.toNat]? with
    | some e => pk [(48, e.code.toNat), (46, e.response.toNat), (0, e.pc.toNat)]
    | none => 0
  | 0x3038 => match s.ft.log[bk.faultLog.toNat]? with | some e => e.tick | none => 0
  | 0x3040 => match s.ft.log[bk.faultLog.toNat]? with | some e => e.info | none => 0
  | 0x3048 => s.ft.okReads ++ s.ft.marked
  | 0x3050 => pk [(63, b2n s.ft.pfValid), (59, s.ft.pfSource.toNat), (0, s.ft.pfAddr.toNat)]
  | 0x3058 => pk [(63, b2n s.svc.ready), (62, b2n s.svc.limp), (48, s.svc.vcs.toNat), (40, s.svc.platforms.toNat),
      (36, s.svc.planes.toNat), (16, s.svc.portOk.toNat), (0, b2n s.svc.sbCore)]
  | 0x3800 => pk [(32, s.cfg.serial.toNat), (16, b2n s.cfg.distChanged), (12, s.cfg.step.toNat), (8, s.cfg.pins.toNat),
      (4, s.cfg.src.toNat), (3, b2n s.cfg.copy), (0, s.cfg.profile.toNat)]
  | 0x3808 => let a := s.cfg.active
    pk [(48, a.rootMhz.toNat), (32, a.capW.toNat), (24, a.yardMib.toNat), (16, a.rsv.toNat), (8, a.flags.toNat),
      (0, a.dfltRnd.toNat % 8)]
  | 0x3810 => bk.portSel.setWidth 64
  | 0x3818 => if bk.portSel.toNat < 35 then (s.port bk.portSel.toNat).cap else 0
  | 0x3820 => if bk.portSel.toNat < 35 then (s.port bk.portSel.toNat).mode else 0
  | 0x3828 => if bk.portSel.toNat < 35 then
      (let q := s.port bk.portSel.toNat
       pk [(48, q.txDepth.toNat), (24, q.crcErr.toNat), (4, q.attempts.toNat), (0, q.state.toNat)]) else 0
  | 0x3830 => if bk.portSel.toNat < 35 then
      (let q := s.port bk.portSel.toNat
       pk [(48, q.txCred % 65536), (32, q.rxFree % 65536), (16, q.rxOut % 65536)]) else 0
  | 0x4000 => s.hl.warnH.setWidth 64
  | 0x4008 => pk [(32, s.hl.wearGen.toNat), (16, min 65535 (s.hl.units.filter (·.2.warned)).length), (1, b2n s.hl.pass),
      (0, b2n s.markPending)]
  | 0x4010 => pk [(15, bk.hlthKind.toNat), (0, bk.hlthIdx.toNat)]
  | 0x4018 =>
    if bk.hlthIdx.toNat < unitInstalled bk.hlthKind.toNat then
      (let u := s.unit bk.hlthKind.toNat bk.hlthIdx.toNat
       pk [(62, u.state.toNat), (61, b2n u.failed), (60, b2n u.warned), (0, u.remH.toNat)]) else 0
  | 0x4020 =>
    if bk.hlthKind = 6 then AL.getD s.hl.stress bk.hlthIdx.toNat 0
    else if bk.hlthIdx.toNat < unitInstalled bk.hlthKind.toNat then
      (let u := s.unit bk.hlthKind.toNat bk.hlthIdx.toNat
       u.x ++ u.baseline) else 0
  | 0x4028 => if bk.hlthKind.toNat < 6 then
      pk [(32, s.unitCount bk.hlthKind.toNat 0), (16, s.unitCount bk.hlthKind.toNat 1), (0, s.unitCount bk.hlthKind.toNat 2)]
      else 0
  | 0x4030 => s.hl.wearAddr.setWidth 64
  | 0x4038 => if s.hl.wearOn then s.wearWord (s.hl.wearAddr.toNat / 8) else 0
  | 0x4800 => (s.pw.capNew.getD s.pw.capW).setWidth 64
  | 0x4808 => pk [(54, s.pw.estW.toNat), (45, s.pw.capEff.toNat), (40, s.pw.level.toNat), (0, s.pw.thrAclk.toNat)]
  | 0x4810 => pk [(8, s.pw.hardC.toNat), (0, s.pw.softC.toNat)]
  | 0x4818 => pk [(31, b2n s.pw.trip), (30, b2n s.pw.warn), (29, b2n s.pw.hard), (22, s.pw.district.toNat), (0, s.pw.tmax.toNat)]
  | 0x4820 => bk.tempDist.setWidth 64
  | 0x4828 => (AL.getD s.pw.temps bk.tempDist.toNat 0).setWidth 64
  | 0x4830 => pk [(16, s.pw.rootMhz.toNat), (1, b2n s.pw.sclkRoot), (0, b2n s.pw.pllLock)]
  | _ => 0

/-- The read-to-clear fields of a register clear (R18, R509, R625). -/
def State.clearRC (s : State) (off : Nat) : State :=
  match off with
  | 0x0028 => { s with cmd := { s.cmd with refused := 0, accepted := 0 } }
  | 0x0128 => { s with sb := { s.sb with uncorrected := 0, corrected := 0 } }
  | 0x0190 => { s with job := { s.job with lateMax := 0, lateCount := 0 } }
  | 0x0220 => { s with ar := { s.ar with fcMiss := 0, appends := 0 } }
  | 0x0308 => { s with xp := { s.xp with hdrErr := 0, tiles := 0 } }
  | 0x0400 => { s with xf := { s.xf with dropped := 0, clamped := 0 } }
  | 0x0408 => { s with xf := { s.xf with turntable := 0, portLines := 0 } }
  | 0x0500 => { s with sp := { s.sp with uncorrected := 0, corrected := 0 } }
  | 0x0510 => { s with sp := { s.sp with conflict := 0, broadcast := 0 } }
  | 0x0610 => { s with xf := { s.xf with nacks := [0, 0, 0, 0, 0] } }
  | 0x0620 => { s with xf := { s.xf with reldBad := 0, writes := 0 } }
  | 0x0628 => { s with xf := { s.xf with genFailed := 0, genChecked := 0 } }
  | 0x0710 => { s with yd := { s.yd with crcBad := 0, refused := 0, accepted := 0 } }
  | 0x0748 => { s with yd := { s.yd with events := 0, posts := 0 } }
  | 0x2010 => { s with tb := { s.tb with steps := 0 } }
  | 0x2058 => { s with tr := { s.tr with lost := 0, written := 0 } }
  | 0x3020 => { s with ft := { s.ft with logged := 0, suppressed := 0 } }
  | 0x3048 => { s with ft := { s.ft with okReads := 0, marked := 0 } }
  | 0x4808 => { s with pw := { s.pw with thrAclk := 0 } }
  | _ => s

/-- Where a register lies in an info word: format A, operand 6 register, 8 management read or SPAD_MADDR write. -/
def regInfo (off : Nat) : W64 := infoA false 6 0 (Config.regBase + off)
def State.maddrInfo (a : Nat) : W64 := infoA false 8 0 a

/-- A management read of the scratchpad (R404, R405): the word, and a fault of the read. While the scrub runs, as it may in
PRESERVED, it is not served (R402). The state is tested first: a read that no state serves logs nothing and keeps psn, wherever addr lies,
the model's choice (log 106). -/
def State.readMdata (s : State) : State × W64 × Option Flt :=
  if s.sp.scrubRun || !(s.job.state = stPreserved || s.job.state = stIdle) then (s, 0, none)
  else
    let a := s.sp.maddr.toNat
    if Config.spadSize ≤ a then
      ({ s with sp := { s.sp with maddrPsn := false } }, 0, some (0x2001, State.maddrInfo a))
    else if !s.groupOn (groupOf a) || (s.svc.limp && !s.districtOk (a / 2 ^ 22)) then
      ({ s with sp := { s.sp with maddrPsn := false } }, 0, some (0x2004, State.maddrInfo a))
    else
      let s := s.readLine (lineOf a)
      ({ s with sp := { s.sp with maddr := BitVec.ofNat 48 (a + 8), maddrPsn := s.psn (lineOf a) } },
        BitVec.ofNat 64 (s.sp.mem.readLE a 8), none)

/-! ### Signal-box memory through ECC (R31) -/

/-- Read the ECC word at byte offset `a` (a multiple of 8): an error is corrected and counted, or found uncorrectable and
counted; true = uncorrectable. -/
def State.sbEcc (s : State) (a : Nat) : State × Bool :=
  match s.sb.ecc.find? (fun p => p.1 = a) with
  | none => (s, false)
  | some (_, true) => ({ s with sb := { s.sb with uncorrected := satAdd s.sb.uncorrected 1 } }, true)
  | some (_, false) => ({ s with sb := { s.sb with
      corrected := satAdd s.sb.corrected 1, ecc := s.sb.ecc.filter (fun p => p.1 ≠ a) } }, false)

/-- A management read of signal-box memory (R31, R35): a single-bit error is corrected and counted. What a word found uncorrectable
reads as is open: a free value (log 59). -/
def State.readSbWord (s : State) (off : Nat) : State × W64 × Option Flt :=
  if s.active then (s, 0, none)
  else match s.sbEcc (off - 0x10_0000) with
    | (s, true) => let (r, s) := s.freeWord; (s, r, none)
    | (s, false) => (s, s.readReg .kpc off, none)

/-- A register read by a party: new state, value, fault (R19, R404, R504, R591, R622). -/
def State.regRead (s : State) (by_ : Party) (off : Nat) : State × W64 × Option Flt :=
  if off % 8 ≠ 0 then (s, 0, some (0x2002, regInfo off))
  else if 0x18_0000 ≤ off then (s, 0, some (0x2001, regInfo off))
  else if off = 0x0560 then (match by_ with | .kpc => s.readMdata | .job => (s, 0, none))
  else if 0x10_0000 ≤ off ∧ by_ = .kpc then s.readSbWord off
  else
    let v := s.readReg by_ off
    let s := s.clearRC off
    if off = 0x2048 then
      let b := s.bank by_
      (s.setBank by_ { b with latch := (AL.getD s.tr.ring b.traceIdx.toNat 0).extractLsb' 64 64 }, v, none)
    else if off = 0x4038 ∧ by_ = .kpc then ({ s with hl := { s.hl with wearAddr := s.hl.wearAddr + 8 } }, v, none)
    else (s, v, none)

/-! ### Writing -/

/-- "Writable by" of Table 18.5. -/
inductive Writer where
  | nobody
  | job
  | banked
  | kpc
  | kpcBoundary
  | kpcNotActive
  deriving DecidableEq, Repr

def writerOf (off : Nat) : Writer :=
  if 0x1080 ≤ off ∧ off < 0x2000 then .job
  else if 0x10_0000 ≤ off then .kpcNotActive
  else match off with
  | 0x0030 => .kpcBoundary
  | 0x0100 => .kpc
  | 0x0120 => .job | 0x0180 => .job | 0x0188 => .job
  | 0x0198 => .kpcNotActive
  | 0x0200 => .job
  | 0x0208 => .banked
  | 0x0210 => .job | 0x0218 => .job
  | 0x0300 => .job
  | 0x0508 => .kpc
  | 0x0528 => .banked | 0x0538 => .banked
  | 0x0558 => .kpc
  | 0x0600 => .job | 0x0608 => .job
  | 0x0630 => .kpc
  | 0x0708 => .job
  | 0x0718 => .kpc
  | 0x0728 => .kpc
  | 0x0730 => .banked
  | 0x2008 => .kpc
  | 0x2020 => .job | 0x2028 => .job | 0x2030 => .job
  | 0x2040 => .banked
  | 0x2080 => .job
  | 0x3028 => .banked
  | 0x3050 => .job
  | 0x3810 => .banked
  | 0x4000 => .kpc
  | 0x4010 => .banked
  | 0x4030 => .kpc
  | 0x4800 => .kpc | 0x4810 => .kpc
  | 0x4820 => .banked
  | _ => .nobody

/-- R623, R624: the party may write the register now. -/
def State.mayWrite (s : State) (by_ : Party) (off : Nat) : Bool :=
  match writerOf off, by_ with
  | .nobody, _ => false
  | .job, .job => true
  | .job, .kpc => !s.active
  | .banked, _ => true
  | .kpc, .kpc => true
  | .kpcBoundary, .kpc => s.job.state = stIdle || s.job.state = stScrubbing
  | .kpcNotActive, .kpc => !s.active
  | _, .job => false

/-- A limit field of Table 14.5: zero sets the reset value (R529). -/
def orReset {n : Nat} (v d : BitVec n) : BitVec n := if v = 0 then d else v

/-- A tick barrier's tick: TT_EPOCH at head of issue + AUX64[39:0] (Table 2.6). -/
def QEntry.barrierTick (q : QEntry) : W64 := q.epoch + (q.w.aux64.extractLsb' 0 40).setWidth 64

/-- A wait that has begun, at the start tick or at a tick barrier's tick, keeps the late limit as it stood (R528). -/
def QEntry.keepLimit (now limit : Nat) (q : QEntry) : QEntry :=
  let keep := fun (o : Option Nat) (begun : Bool) => if begun && o.isNone then some limit else o
  { q with lateLim := keep q.lateLim (q.startAt.any (fun t => decide (t.toNat ≤ now)))
           barLim := keep q.barLim (q.w.opc = 0x60 && q.w.fn = 1 && decide (q.barrierTick.toNat ≤ now)) }

/-- The effect of a write that the party may make; RO and reserved bits are ignored. WEAR_ADDR drops the low bits of a value
that is not a multiple of 8, the model's choice (log 59). -/
def State.writeReg (s : State) (by_ : Party) (off : Nat) (v : W64) : State :=
  let bk := s.bank by_
  if 0x1080 ≤ off ∧ off < 0x2000 then
    { s with xp := { s.xp with chains := AL.put s.xp.chains (16 * ((off - 0x1080) / 128 + 1) + (off - 0x1080) % 128 / 8) v } }
  else if 0x10_0000 ≤ off then
    let a := off - 0x10_0000
    { s with sb := { s.sb with
      mem := s.sb.mem.writeLE a 8 v.toNat, fmem := s.sb.fmem.writeLE a 8 v.toNat
      ecc := s.sb.ecc.filter (fun p => p.1 ≠ a) } }
  else match off with
  | 0x0030 => { s with job := { s.job with chipValid := v.getLsbD 63, chipId := v.setWidth 12 } }
  | 0x0100 =>
    let s := { s with job := { s.job with preserve := v.getLsbD 0 } }
    if v.getLsbD 1 && s.job.state = stPreserved then s.beginScrub.reportState 0 0 0 else s
  | 0x0120 => { s with sb := { s.sb with step := v.setWidth 32 } }
  | 0x0180 => { s with sb := { s.sb with epoch := v } }
  | 0x0188 => { s with tq := s.tq.map (QEntry.keepLimit s.now s.job.lateLimit.toNat), job := { s.job with lateLimit := v.extractLsb' 24 24, grace := v.setWidth 24 } }
  | 0x0198 => { s with job := { s.job with wdog := v.setWidth 40 } }
  | 0x0200 => { s with ar := { s.ar with
      margin := v.setWidth 2, hist := if v.getLsbD 2 then [] else s.ar.hist } }
  | 0x0208 => s.setBank by_ { bk with amaxTid := v.extractLsb' 4 10, amaxEntry := v.setWidth 4 }
  | 0x0210 => s.appendAmax bk.amaxTid.toNat (v.setWidth 32)
  | 0x0218 => { s with ar := { s.ar with flags := s.ar.flags &&& ~~~(v.setWidth 10) } }
  | 0x0300 => { s with xp := { s.xp with stall := orReset (v.setWidth 24) 400000 } }
  | 0x0508 => if v.getLsbD 63 then { s with sp := { s.sp with eccValid := false } } else s
  | 0x0528 => s.setBank by_ { bk with distWord := v.extractLsb' 8 2, distRow := v.setWidth 8 }
  | 0x0538 => s.setBank by_ { bk with pgGroup := v.setWidth 8 }
  | 0x0558 => { s with sp := { s.sp with maddr := v.setWidth 48 } }
  | 0x0600 => { s with xf := { s.xf with nack1Limit := v.extractLsb' 40 16, drain := orReset (v.setWidth 24) 1600 } }
  | 0x0608 => { s with xf := { s.xf with
      nackHalt := v.getLsbD 63, hostTicks := orReset (v.extractLsb' 40 20) 40000
      netTicks := orReset (v.extractLsb' 20 20) 80000, memTicks := orReset (v.setWidth 20) 8000 } }
  | 0x0630 => if v.getLsbD 63 then { s with xf := { s.xf with gfValid := false } } else s
  | 0x0708 => { s with yd := { s.yd with
      waitTicks := orReset (v.extractLsb' 24 24) 80000, claimTicks := orReset (v.setWidth 24) 20000 } }
  | 0x0718 => { s with yd := { s.yd with sel := v.setWidth 8 } }
  | 0x0728 => if v.getLsbD 63 then { s with yd := { s.yd with taintAny := false } } else s
  | 0x0730 => s.setBank by_ { bk with yardLog := v.setWidth 6 }
  | 0x2008 => { s with tb := { s.tb with
      holdover := orReset (v.extractLsb' 24 24) 4194304, slew := v.extractLsb' 12 12, stepLimit := v.setWidth 12 } }
  | 0x2020 => { s with tr := { s.tr with stop := v.getLsbD 16, mask := v.extractLsb' 1 14, enable := v.getLsbD 0 } }
  | 0x2028 => { s with tr := { s.tr with lo := v } }
  | 0x2030 => { s with tr := { s.tr with hi := v } }
  | 0x2040 => s.setBank by_ { bk with traceIdx := v.setWidth 12 }
  | 0x2080 => if v.getLsbD 0 then { s with snap := s.live } else s
  | 0x3028 => s.setBank by_ { bk with faultLog := v.setWidth 6 }
  | 0x3050 => if v.getLsbD 63 then { s with ft := { s.ft with pfValid := false } } else s
  | 0x3810 => s.setBank by_ { bk with portSel := v.setWidth 6 }
  | 0x4000 => { s with hl := { s.hl with warnH := v.setWidth 32 } }
  | 0x4010 => s.setBank by_ { bk with hlthKind := v.extractLsb' 15 3, hlthIdx := v.setWidth 15 }
  | 0x4030 => { s with hl := { s.hl with wearAddr := v.setWidth 21 &&& 0x1F_FFF8 } }
  | 0x4800 => { s with pw := { s.pw with capNew := some (v.setWidth 9) } }
  | 0x4810 => { s with pw := { s.pw with hardC := v.extractLsb' 8 8, softC := v.setWidth 8 } }
  | 0x4820 => s.setBank by_ { bk with tempDist := v.setWidth 7 }
  | _ => s

/-- A register write by a party: new state, fault (R19, R51, R405, R621 to R623). -/
def State.regWrite (s : State) (by_ : Party) (off : Nat) (v : W64) : State × Option Flt :=
  if off % 8 ≠ 0 then (s, some (0x2002, regInfo off))
  else if 0x18_0000 ≤ off then (s, some (0x2001, regInfo off))
  else if !s.mayWrite by_ off then (s, some (0x2003, regInfo off))
  else if off = 0x0558 ∧ v.toNat % 8 ≠ 0 then
    (s, some (0x2002, State.maddrInfo (v.toNat % 2 ^ 48)))
  else (s.writeReg by_ off v, none)

/-- A fault of an access outside an instruction or a command: a job's halts at the scalar instruction, a KPC's is logged
(R51, R516, R623). -/
def State.accessFault (s : State) (by_ : Party) (f : Option Flt) : State :=
  match f with
  | none => s
  | some (c, i) => match by_ with
    | .job => s.raiseScalar c i
    | .kpc => s.logOnly c i

end Sys2Proof.Machine
end

