-- ==== Sys2Proof/Machine/Scalar.lean ====
section
/-! DEFINITION. The scalar instructions (02 Table 2.3, R30 to R34, R45 to R52, R58, R92; 18 R629). -/

namespace Sys2Proof.Machine

/-- A field that names a scalar register holds 32 to 63 (R37). -/
def badReg (r : BitVec 6) : Bool := decide (32 ≤ r.toNat)

/-- Encoding check of a scalar instruction: FN (R45), unused fields (R36), scalar register fields (R37). -/
def scalarEnc (w : InsWord) (fnOk : Bool) (rest : InsWord) (regs : List (BitVec 6)) : List Flt :=
  illegal w (!fnOk || unused rest || regs.any badReg)

/-- IMM32 sign-extended. -/
def simmOf (w : InsWord) : W64 := w.imm32.signExtend 64

/-! ### Arithmetic (Table 2.3, R46) -/

def aluOp (fn : Nat) (a b : W64) : W64 :=
  let sh := b.toNat % 64
  match fn with
  | 0 => a + b
  | 1 => a - b
  | 2 => a &&& b
  | 3 => a ||| b
  | 4 => a ^^^ b
  | 5 => a <<< sh
  | 6 => a >>> sh
  | 7 => a.sshiftRight sh
  | 8 => a * b
  | 9 => BitVec.ofNat 64 (a.toNat * b.toNat / 2 ^ 64)
  | 10 => if a.slt b then a else b
  | 11 => if a.slt b then b else a
  | 12 => if a.ult b then a else b
  | 13 => if a.ult b then b else a
  | 14 => if a.slt b then 1 else 0
  | _ => if a.ult b then 1 else 0

def divOp (fn : Nat) (a b : W64) : W64 :=
  match fn with
  | 0 => if b = 0 then none64 else a / b
  | 1 => if b = 0 then a else a % b
  | 2 => if b = 0 then none64 else BitVec.ofInt 64 (a.toInt.tdiv b.toInt)
  | _ => if b = 0 then a else BitVec.ofInt 64 (a.toInt.tmod b.toInt)

/-- The condition of S.BR. -/
def brCond (fn : Nat) (a b : W64) : Bool :=
  match fn with
  | 0 => a = b
  | 1 => a ≠ b
  | 2 => a.slt b
  | 3 => !a.slt b
  | 4 => a.ult b
  | _ => !a.ult b

/-- Write a register and go on. -/
def State.put (s : State) (r : BitVec 6) (v : W64) : State := (s.setS r.toNat v).advance

/-! ### Control transfer (R33) -/

/-- The next address that a branch or jump produces; out of range it raises 0x1003 and the instruction has no effect. -/
def State.goTo (s : State) (t : W64) (k : State → State) : State :=
  if t.toNat % 32 ≠ 0 ∨ 0x7_FFE0 < t.toNat then s.raiseScalar 0x1003 (infoA false 5 0 t.toNat)
  else let s := k s
       { s with sb := { s.sb with pc := t.setWidth 19 } }

def State.pc64 (s : State) : W64 := s.sb.pc.setWidth 64

/-! ### Signal-box memory (R30 to R32) -/

/-- Read every ECC word of [a, a + n); the first uncorrectable one stops. -/
def State.sbEccAll (s : State) (a n : Nat) : State × Option Nat :=
  (strided (a / 8 * 8) 8 (max 1 (cdiv n 8))).foldl (fun r w => match r.2 with
    | some _ => r
    | none => let (s, bad) := r.1.sbEcc w; (s, if bad then some w else none)) (s, none)

/-- A scalar access outside signal-box memory or not aligned to its own size (R32). -/
def sbBad (a n : Nat) : Bool := decide (Config.sbSize ≤ a) || decide (a % n ≠ 0)

/-- 0x1004 of an access in the role `operand` (R31, R520): the byte address of an S.LD or S.ST, or the word found uncorrectable. -/
def State.sbFail (s : State) (operand a : Nat) : State := s.raiseScalar 0x1004 (infoA false operand 0 a)

/-- Store whole bytes; a store of whole words gives fresh check bits, a narrower one reads its word first (R31). -/
def State.sbStore (s : State) (a n v : Nat) (k : State → State) : State :=
  if n % 8 = 0 then
    k { s with sb := { s.sb with
      mem := s.sb.mem.writeLE a n v, ecc := s.sb.ecc.filter (fun p => !(decide (a ≤ p.1 ∧ p.1 < a + n))) } }
  else
    let (s, bad) := s.sbEcc (a / 8 * 8)
    if bad then s.sbFail 7 a else k { s with sb := { s.sb with mem := s.sb.mem.writeLE a n v } }

/-! ### Descriptor fields (Table 2.4, R48) -/

/-- Lowest bit and width of a descriptor field by its id. -/
def descField (id : Nat) : Nat × Nat :=
  match id with
  | 0 => (0, 48) | 1 => (48, 4) | 2 => (52, 3) | 3 => (55, 2) | 4 => (57, 20) | 5 => (77, 20) | 6 => (97, 20)
  | 7 => (117, 20) | 8 => (137, 32) | 9 => (169, 32) | 10 => (201, 32) | 11 => (233, 1) | _ => (234, 16)

def setField (d : BitVec 256) (id : Nat) (v : Nat) : BitVec 256 :=
  let (lo, w) := descField id
  let x := d.toNat
  BitVec.ofNat 256 (x % 2 ^ lo + v % 2 ^ w * 2 ^ lo + x / 2 ^ (lo + w) * 2 ^ (lo + w))

def getField (d : BitVec 256) (id : Nat) : Nat := let (lo, w) := descField id; bitsOf d.toNat lo w

/-! ### The instructions -/

/-- S.SYS NOP (and words of unlisted opcodes and FN, which raise 0x1001). -/
def execNop (w : InsWord) (s : State) : Out :=
  instrRow (.nop w) w s fun s =>
    scalarRun (scalarEnc w (w.opc = 0 && w.fn = 0) { w with opc := 0, fn := 0 } []) s State.advance

/-- S.SYS TFENCE waits until every earlier tensor instruction has completed. -/
def doTfence (s : State) : State := s.advance
def execTfence (w : InsWord) (s : State) : Out :=
  instrRow (.tfence w) w s fun s =>
    scalarRun (scalarEnc w true { w with opc := 0, fn := 0 } []) s (fun s => s.whenDrained w doTfence)

/-- S.SYS IFENCE: fetch observes every earlier store (R34). -/
def execIfence (w : InsWord) (s : State) : Out :=
  instrRow (.ifence w) w s fun s =>
    scalarRun (scalarEnc w true { w with opc := 0, fn := 0 } []) s
      (fun s => { s with sb := { s.sb with fmem := s.sb.mem } }.advance)

/-- S.ALU: s[DST] ← s[SA] op s[SB]. -/
def execSAlu (w : InsWord) (s : State) : Out :=
  instrRow (.sAlu w) w s fun s =>
    scalarRun (scalarEnc w (w.fn.toNat ≤ 15) { w with opc := 0, fn := 0, dst := 0, sa := 0, sb := 0 } [w.dst, w.sa, w.sb]) s
      (fun s => s.put w.dst (aluOp w.fn.toNat (s.getS w.sa.toNat) (s.getS w.sb.toNat)))

/-- S.ALUI: s[DST] ← s[SA] op AUX64. -/
def execSAlui (w : InsWord) (s : State) : Out :=
  instrRow (.sAlui w) w s fun s =>
    scalarRun (scalarEnc w (w.fn.toNat ≤ 15) { w with opc := 0, fn := 0, dst := 0, sa := 0, aux64 := 0 } [w.dst, w.sa]) s
      (fun s => s.put w.dst (aluOp w.fn.toNat (s.getS w.sa.toNat) w.aux64))

/-- S.DIV: truncating division. -/
def execSDiv (w : InsWord) (s : State) : Out :=
  instrRow (.sDiv w) w s fun s =>
    scalarRun (scalarEnc w (w.fn.toNat ≤ 3) { w with opc := 0, fn := 0, dst := 0, sa := 0, sb := 0 } [w.dst, w.sa, w.sb]) s
      (fun s => s.put w.dst (divOp w.fn.toNat (s.getS w.sa.toNat) (s.getS w.sb.toNat)))

/-- S.LD: s[DST] ← memory at s[SA] + sext(IMM32), zero- or sign-extended. -/
def execSLd (w : InsWord) (s : State) : Out :=
  instrRow (.sLd w) w s fun s =>
    scalarRun (scalarEnc w (w.fn.toNat ≤ 7) { w with opc := 0, fn := 0, dst := 0, sa := 0, imm32 := 0 } [w.dst, w.sa]) s
      (fun s =>
        let a := (s.getS w.sa.toNat + (simmOf w)).toNat
        let n := 2 ^ (w.fn.toNat % 4)
        if sbBad a n then s.raiseScalar 0x1003 (infoA false 7 0 a)
        else
          let (s, bad) := s.sbEcc (a / 8 * 8)
          if bad then s.sbFail 7 a
          else
            let v := s.sb.mem.readLE a n
            s.put w.dst (if bitOf w.fn.toNat 2 then BitVec.ofInt 64 (sextNat v (8 * n)) else BitVec.ofNat 64 v))

/-- The district of an SPLD's address has no bank in service, in LIMP: 0x2004 at head of issue (R543). An address that R49 rules
out needs no district. -/
def State.spldDistrict (s : State) (w : InsWord) : List Flt :=
  let a := (s.getS w.sa.toNat + (simmOf w)).toNat
  if a % 8 = 0 && decide (a < s.yardBase) && s.svc.limp && !s.districtOk (a / 2 ^ 22) then [(0x2004, infoA false 7 0 a)] else []

/-- SPLD begins once the array is empty and the scrub has passed its line (R49, R50, R399, R402). -/
def doSpld (w : InsWord) (s : State) : State :=
  let a := (s.getS w.sa.toNat + (simmOf w)).toNat
  let info := infoA false 7 0 a
  if a % 8 ≠ 0 then s.raiseScalar 0x2002 info
  else if s.yardBase ≤ a then s.raiseScalar 0x2001 info
  else if !s.groupOn (groupOf a) then s.raiseScalar 0x2004 info
  else if s.scrubRange (lineOf a) (lineOf a + 128) then
    { s with sb := { s.sb with wait := some w } }
  else
    let s := s.readLine (lineOf a)
    if s.psn (lineOf a) then s.raiseScalar 0x5002 (infoA false 7 0 (lineOf a))
    else s.put w.dst (BitVec.ofNat 64 (s.sp.mem.readLE a 8))

def execSpld (w : InsWord) (s : State) : Out :=
  instrRow (.spld w) w s fun s =>
    scalarRun (scalarEnc w true { w with opc := 0, fn := 0, dst := 0, sa := 0, imm32 := 0 } [w.dst, w.sa] ++ s.spldDistrict w) s
      (fun s => s.whenDrained w (doSpld w))

/-- S.ST: memory at s[SA] + sext(IMM32) ← low bits of s[SB]. -/
def execSSt (w : InsWord) (s : State) : Out :=
  instrRow (.sSt w) w s fun s =>
    scalarRun (scalarEnc w (w.fn.toNat ≤ 3) { w with opc := 0, fn := 0, sa := 0, sb := 0, imm32 := 0 } [w.sa, w.sb]) s
      (fun s =>
        let a := (s.getS w.sa.toNat + (simmOf w)).toNat
        let n := 2 ^ (w.fn.toNat % 4)
        if sbBad a n then s.raiseScalar 0x1003 (infoA false 7 0 a)
        else s.sbStore a n (s.getS w.sb.toNat).toNat State.advance)

/-- A branch or jump: its checks are made on the address it produces (R33). -/
def branchRun (fs : List Flt) (s : State) (k : State → State) : State :=
  match firstFlt fs with
  | some f => s.raiseScalar f.1 f.2
  | none => k s

/-- S.BR. -/
def execSBr (w : InsWord) (s : State) : Out :=
  instrRow (.sBr w) w s fun s =>
    branchRun (scalarEnc w (w.fn.toNat ≤ 5) { w with opc := 0, fn := 0, sa := 0, sb := 0, imm32 := 0 } [w.sa, w.sb]) s
      (fun s => s.goTo (if brCond w.fn.toNat (s.getS w.sa.toNat) (s.getS w.sb.toNat) then s.pc64 + 32 * (simmOf w)
        else s.pc64 + 32) id)

/-- S.JMP J, CALL and JR. -/
def execSJmp (w : InsWord) (s : State) : Out :=
  instrRow (.sJmp w) w s fun s =>
    branchRun (scalarEnc w (w.fn.toNat ≤ 2)
        (if w.fn = 2 then { w with opc := 0, fn := 0, sa := 0, imm32 := 0 } else { w with opc := 0, fn := 0, imm32 := 0 })
        [w.sa]) s
      (fun s =>
        if w.fn = 2 then s.goTo (s.getS w.sa.toNat + (simmOf w)) id
        else if w.fn = 1 then s.goTo (s.pc64 + 32 * (simmOf w)) (fun s => s.setS 31 (s.pc64 + 32))
        else s.goTo (s.pc64 + 32 * (simmOf w)) id)

/-- S.DESC DLD: d[DST] ← 32 bytes at s[SA]; the reserved field reads zero (R9, R11). An s[SA] that is no multiple of 32 raises
0x1003, as R32 has it of a misaligned scalar access, and not the 0x1001 that R47 has for a breach of its fields: the model's
choice (log 99). -/
def execDld (w : InsWord) (s : State) : Out :=
  instrRow (.dld w) w s fun s =>
    scalarRun (scalarEnc w (w.fn = 0) { w with opc := 0, fn := 0, dst := 0, sa := 0 } [w.sa]) s
      (fun s =>
        let a := (s.getS w.sa.toNat).toNat
        if sbBad a 32 then s.raiseScalar 0x1003 (infoA false 5 0 a)
        else match s.sbEccAll a 32 with
          | (s, some b) => s.sbFail 5 b
          | (s, none) => (s.setD w.dst.toNat (BitVec.ofNat 256 (s.sb.mem.readLE a 32 % 2 ^ 250))).advance)

/-- S.DESC DSTO: 32 bytes at s[SA] ← d[DST]; a misaligned s[SA] raises 0x1003, the model's choice (log 99). -/
def execDsto (w : InsWord) (s : State) : Out :=
  instrRow (.dsto w) w s fun s =>
    scalarRun (scalarEnc w true { w with opc := 0, fn := 0, dst := 0, sa := 0 } [w.sa]) s
      (fun s =>
        let a := (s.getS w.sa.toNat).toNat
        if sbBad a 32 then s.raiseScalar 0x1003 (infoA false 5 0 a)
        else s.sbStore a 32 (s.getD w.dst.toNat).toNat State.advance)

/-- S.DESC DSETF: field IMM32[3:0] of d[DST] ← s[SB]. -/
def execDsetf (w : InsWord) (s : State) : Out :=
  instrRow (.dsetf w) w s fun s =>
    scalarRun (scalarEnc w (w.imm32.toNat ≤ 12) { w with opc := 0, fn := 0, dst := 0, sb := 0, imm32 := 0 } [w.sb]) s
      (fun s => (s.setD w.dst.toNat (setField (s.getD w.dst.toNat) w.imm32.toNat (s.getS w.sb.toNat).toNat)).advance)

/-- S.DESC DGETF: s[DST] ← field IMM32[3:0] of d[SB]. -/
def execDgetf (w : InsWord) (s : State) : Out :=
  instrRow (.dgetf w) w s fun s =>
    scalarRun (scalarEnc w (w.imm32.toNat ≤ 12) { w with opc := 0, fn := 0, dst := 0, sb := 0, imm32 := 0 } [w.dst]) s
      (fun s => s.put w.dst (BitVec.ofNat 64 (getField (s.getD w.sb.toNat) w.imm32.toNat)))

/-- S.PSET: p[DST] ← s[SA][31:0] in every VC (R58). -/
def execSPset (w : InsWord) (s : State) : Out :=
  instrRow (.sPset w) w s fun s =>
    scalarRun (scalarEnc w (w.fn = 0 && decide (1 ≤ w.dst.toNat ∧ w.dst.toNat ≤ 15))
        { w with opc := 0, fn := 0, dst := 0, sa := 0 } [w.sa]) s
      (fun s => { s with sb := { s.sb with
        p := AL.put s.sb.p w.dst.toNat ((s.getS w.sa.toNat).setWidth 32) } }.advance)

/-- S.TICK NOW. -/
def execNow (w : InsWord) (s : State) : Out :=
  instrRow (.now w) w s fun s =>
    scalarRun (scalarEnc w (w.fn = 0) { w with opc := 0, fn := 0, dst := 0 } [w.dst]) s (fun s => s.put w.dst s.tickW)

/-- S.TICK GETEP. -/
def execGetep (w : InsWord) (s : State) : Out :=
  instrRow (.getep w) w s fun s =>
    scalarRun (scalarEnc w true { w with opc := 0, fn := 0, dst := 0 } [w.dst]) s (fun s => s.put w.dst s.sb.epoch)

/-- S.TICK SETEP. -/
def execSetep (w : InsWord) (s : State) : Out :=
  instrRow (.setep w) w s fun s =>
    scalarRun (scalarEnc w true { w with opc := 0, fn := 0, sa := 0 } [w.sa]) s
      (fun s => { s with sb := { s.sb with epoch := s.getS w.sa.toNat } }.advance)

/-- The registers whose S.REG access waits for every earlier tensor instruction (R153). -/
def regWaits (off : Nat) : Bool := off = 0x200 || off = 0x208 || off = 0x210

/-- S.REG RREG: s[DST] ← register at offset IMM32. -/
def doRreg (w : InsWord) (s : State) : State :=
  let (s, v, f) := s.regRead .job w.imm32.toNat
  match f with
  | some (c, i) => (s.setS w.dst.toNat 0).raiseScalar c i
  | none => s.put w.dst v

def execSRegRreg (w : InsWord) (s : State) : Out :=
  instrRow (.sRegRreg w) w s fun s =>
    scalarRun (scalarEnc w (w.fn = 0) { w with opc := 0, fn := 0, dst := 0, imm32 := 0 } [w.dst]) s
      (fun s => if regWaits w.imm32.toNat then s.whenDrained w (doRreg w) else doRreg w s)

/-- S.REG WREG: register at offset IMM32 ← s[SA]. -/
def doWreg (w : InsWord) (s : State) : State :=
  let (s, f) := s.regWrite .job w.imm32.toNat (s.getS w.sa.toNat)
  match f with
  | some (c, i) => s.raiseScalar c i
  | none => s.advance

def execSRegWreg (w : InsWord) (s : State) : Out :=
  instrRow (.sRegWreg w) w s fun s =>
    scalarRun (scalarEnc w true { w with opc := 0, fn := 0, sa := 0, imm32 := 0 } [w.sa]) s
      (fun s => if regWaits w.imm32.toNat then s.whenDrained w (doWreg w) else doWreg w s)

/-- S.STEP SET, GET, ADD. -/
def execSStep (w : InsWord) (s : State) : Out :=
  instrRow (.sStep w) w s fun s =>
    scalarRun (scalarEnc w (w.fn.toNat ≤ 2)
        (if w.fn = 0 then { w with opc := 0, fn := 0, sa := 0 } else if w.fn = 1 then { w with opc := 0, fn := 0, dst := 0 }
         else { w with opc := 0, fn := 0, imm32 := 0 }) [w.sa, w.dst]) s
      (fun s =>
        if w.fn = 0 then { s with sb := { s.sb with step := (s.getS w.sa.toNat).setWidth 32 } }.advance
        else if w.fn = 1 then s.put w.dst (s.sb.step.setWidth 64)
        else { s with sb := { s.sb with step := s.sb.step + w.imm32 } }.advance)

/-- HALT ends the job with exit code IMM32 once the array is empty (R92, R93, R637). -/
def doHalt (w : InsWord) (s : State) : State :=
  ({ s with job := { s.job with exitCode := w.imm32 } }).endJob.reportState 0 0 w.imm32

def execHalt (w : InsWord) (s : State) : Out :=
  instrRow (.halt w) w s fun s =>
    branchRun (scalarEnc w (w.fn = 0) { w with opc := 0, fn := 0, imm32 := 0 } []) s
      (fun s => s.whenDrained w (doHalt w))

/-- An S.REG write whose row names its register takes effect, and the signal box goes on to the next instruction. -/
def State.jobWrite (s : State) (off : Nat) (v : W64) : State :=
  let (s, f) := s.regWrite .job off v
  match f with
  | some (c, i) => s.raiseScalar c i
  | none => s

/-- An SPLD that waits for the scrub alone can begin: the scrub has passed its line (R402). -/
def State.spldFree (s : State) : Bool :=
  s.drained && s.ft.halting.isNone && s.job.kill.isNone && s.sb.wait.any (fun w => match w.toInstr with
    | .spld _ =>
      let a := lineOf (s.getS w.sa.toNat + (simmOf w)).toNat
      !s.scrubRange a (a + 128)
    | _ => false)

/-- A waiting scalar instruction begins once what it waits for has come (R50, R92, R153, R402). -/
def State.resumeScalar (s : State) : State :=
  match s.sb.wait with
  | none => match s.sb.waitReg with
    | none => s
    | some (off, v) => if !s.drained || s.ft.halting.isSome || s.job.kill.isSome then s
        else ({ s with sb := { s.sb with waitReg := none } }).jobWrite off v
  | some w =>
    if !s.drained || s.ft.halting.isSome || s.job.kill.isSome then s
    else
      let c := { s with sb := { s.sb with wait := none } }
      match w.toInstr with
      | .tfence _ => doTfence c
      | .spld _ => doSpld w c
      | .sRegRreg _ => doRreg w c
      | .sRegWreg _ => doWreg w c
      | .halt _ => doHalt w c
      | _ => s

end Sys2Proof.Machine
end

