-- ==== Sys2Proof/Machine/Elementwise.lean ====
section
/-! DEFINITION. The element-wise operations and the special functions (04): OPC 0x10 to 0x13 and 0x18. -/

namespace Sys2Proof.Machine

/-- Float 0 to 4, MX 5 to 10, integer 11 to 14. -/
inductive Kind where
  | float
  | mx
  | int
  | other
  deriving DecidableEq, Repr

def kindOf (code : Nat) : Kind :=
  if code ≤ 4 then .float else if code ≤ 10 then .mx else if code ≤ 14 then .int else .other

/-- The Kind column of Tables 4.3 to 4.6. -/
inductive EwKind where
  | f
  | i
  | fi
  | cmp
  | isf
  | sel
  | sfu
  deriving DecidableEq, Repr

/-- The functions of a class: kind and number of sources (Tables 4.3 to 4.6, 4.8). -/
def ewTable (opc fn : Nat) : Option (EwKind × Nat) :=
  match opc with
  | 0x10 => if fn ≤ 4 then some (.fi, 2) else if fn ≤ 7 then some (.f, 2) else if fn ≤ 14 then some (.i, 2) else none
  | 0x11 => if fn ≤ 2 then some (.fi, 1) else if fn ≤ 7 then some (.f, 1) else if fn = 8 then some (.fi, 1)
            else if fn ≤ 11 then some (.i, 1) else none
  | 0x12 => if fn = 3 then some (.f, 3) else if fn ≤ 4 then some (.fi, 3) else none
  | 0x13 => if fn ≤ 5 then some (.cmp, 2) else if fn ≤ 8 then some (.isf, 1) else if fn = 16 then some (.sel, 3) else none
  | _ => if sfuListed fn then some (.sfu, if fn = 19 then 2 else 1) else none

def fn7 (w : InsWord) : Nat := w.fn.toNat % 128
def fnU (w : InsWord) : Bool := bitOf w.fn.toNat 7
def bmode (w : InsWord) : Nat := bitsOf w.aux64.toNat 0 2
def cmode (w : InsWord) : Nat := bitsOf w.aux64.toNat 2 2
def cval (w : InsWord) : W32 := w.aux64.extractLsb' 32 32

def ewKind (w : InsWord) : EwKind × Nat := (ewTable w.opc.toNat (fn7 w)).getD (.f, 1)
def ewSb (w : InsWord) : Bool := decide (2 ≤ (ewKind w).2) && bmode w = 0
def ewSc (w : InsWord) : Bool := decide (3 ≤ (ewKind w).2) && cmode w = 0

/-- The fields that every tensor instruction uses, cleared. -/
def clearCommon (w : InsWord) : InsWord :=
  { w with opc := 0, fn := 0, ovl := false, commit := false, poisonOk := false, tmark := false, start40 := 0 }

/-- Clear the fields of an arithmetic instruction from DST and SA with rounding and PRED. -/
def clearArith (w : InsWord) : InsWord :=
  { clearCommon w with dst := 0, sa := 0, dfmt := 0, sfmt := 0, rnd := 0, sat := false, ftz := false, pred := 0 }

/-- R104: FN[7] without an integer operand or destination. -/
def badU (w : InsWord) (codes : List Nat) : Bool := fnU w && !codes.any isInt

/-- The tensor operands of the word. -/
def ewOpnds (q : QEntry) : List Opnd := [q.oSa] ++ when (ewSb q.w) q.oSb ++ when (ewSc q.w) q.oSc

/-- R158 for SB and SC. -/
def bcastOk (d x : Desc) : Bool := x.rank = d.rank && [0, 1, 2, 3].all (fun a => x.n a = d.n a || x.n a = 1)

/-- Whether an integer function takes R166's or R178's zero fields. An F/I function whose operands mix kinds counts by SFMT, and a SEL by
DST also where its selector is a float: the model's choices (log 76). -/
def ewInt (q : QEntry) : Bool :=
  match (ewKind q.w).1 with
  | .i => true
  | .fi => kindOf q.w.sfmt.toNat = .int
  | .sel => kindOf q.w.dfmt.toNat = .int
  | _ => false

/-- R178's functions. -/
def ewNoSat (opc fn : Nat) : Bool :=
  (opc = 0x10 && (fn = 8 || fn = 9 || fn = 10 || fn = 12 || fn = 13)) || (opc = 0x11 && (fn = 9 || fn = 10 || fn = 11))

def ewScalarB (q : QEntry) : Int := if fnU q.w then (q.w.imm32.toNat : Int) else q.w.imm32.toInt

/-- The kind rules of each function (R162, R180, R182, R185). -/
def ewBadKind (q : QEntry) : Bool :=
  let w := q.w
  let kd := kindOf w.dfmt.toNat
  let ka := kindOf w.sfmt.toNat
  let kb := when (ewSb w) q.oSb |>.map (fun o => kindOf o.d.fmt)
  let kc := when (ewSc w) q.oSc |>.map (fun o => kindOf o.d.fmt)
  let plain := ([kd, ka] ++ kb ++ kc).all (fun k => k = .float || k = .int)
  let ok := match (ewKind w).1 with
    | .f => ([kd, ka] ++ kb ++ kc).all (· = .float)
    | .i => ([kd, ka] ++ kb ++ kc).all (· = .int)
    | .fi => ([kd] ++ kb ++ kc).all (· = ka)
    | .cmp => kb.all (· = ka)
    | .isf => ka = .float
    | .sel => (kb ++ kc).all (· = kd)
    | .sfu => ([w.dfmt.toNat, w.sfmt.toNat] ++ (when (ewSb w) q.oSb).map (fun o => o.d.fmt)).all (· ≤ 2)
  !(plain && ok)

/-- Table 4.13. -/
def ewChk (q : QEntry) (s : State) : List Flt :=
  let w := q.w
  let n := (ewKind w).2
  let k := (ewKind w).1
  let opc := w.opc.toNat
  let os := ewOpnds q
  let base := clearArith w
  let base := if 2 ≤ n then { base with aux64 := 0 } else base
  let base := if ewSb w then { base with sb := 0 } else base
  let base := if 2 ≤ n ∧ bmode w = 1 then { base with imm32 := 0 } else base
  let base := if ewSc w then { base with sc := 0 } else base
  illegal w (badBits w || (ewTable opc (fn7 w)).isNone || unused base || bitsOf w.aux64.toNat 4 28 ≠ 0
    || decide (1 < bmode w) || decide (1 < cmode w) || (n < 3 && cmode w ≠ 0) || (cmode w ≠ 1 && cval w ≠ 0)
    || badU w ([w.dfmt.toNat, w.sfmt.toNat] ++ (os.drop 1).map (fun o => o.d.fmt))
    || (ewInt q && (w.rnd ≠ 0 || w.ftz)) || (ewInt q && ewNoSat opc (fn7 w) && w.sat)
    || ((k = .cmp || k = .isf) && (w.rnd ≠ 0 || w.sat)))
  ++ spadChecks q s (q.oDst :: os)
  ++ badShape w (!q.sa.sameShape q.dst || !(os.drop 1).all (fun o => bcastOk q.dst o.d))
  ++ badFmt w (ewBadKind q || (k = .sfu && w.rnd ≠ 0)
    || (opc = 0x10 && fn7 w = 13 && (if bmode w = 0 then q.sb.fmt ≠ w.sfmt.toNat
        else decide (ewScalarB q < intMin (fmtWidth w.sfmt.toNat) (fnU w)
          ∨ intMax (fmtWidth w.sfmt.toNat) (fnU w) < ewScalarB q))))

/-! ### The functions -/

def Val.toInt : Val → Int
  | .fin d => if d.neg then -(d.n : Int) else d.n
  | _ => 0

/-- Float functions with one rounding: the exact value and the invalid flag (Tables 4.3 to 4.5, R168 to R173). -/
def floatFn (opc fn : Nat) (rdn : Bool) (a b c : Val) : Val × Fl :=
  match opc, fn with
  | 0x10, 0 => a.add rdn b
  | 0x10, 1 => a.add rdn b.negate
  | 0x10, 2 => a.mul b
  | 0x10, 3 => (a.maxN b, 0)
  | 0x10, 4 => (a.minN b, 0)
  | 0x10, 5 => (a.abs.maxN b.abs, 0)
  | 0x10, 6 => let (d, f) := a.add rdn b.negate
               let (p, g) := d.mul d
               (p, f ||| g)
  | 0x10, _ => (if a.isNan || b.isNan then .nan else a.setSign b.neg?, 0)
  | 0x11, 0 => (a, 0)
  | 0x11, 1 => (a.negate, 0)
  | 0x11, 2 => (a.abs, 0)
  | 0x11, 3 => a.mul a
  | 0x11, 5 => ((a.rint rDN 0).1, 0)
  | 0x11, 6 => ((a.rint rUP 0).1, 0)
  | 0x11, 7 => ((a.rint rTZ 0).1, 0)
  | 0x11, _ => (if a.isNan || a.isZero then a else Val.ofInt (if a.neg? then -1 else 1), 0)
  | _, 0 => Val.fma rdn a b c
  | _, 1 => Val.fma rdn a b c.negate
  | _, 2 => Val.fma rdn a.negate b c
  | _, _ => (if a.isNan then .nan else (a.maxN b).minN c, 0)

/-- Number of 1 bits among the low `w` bits. -/
def popcount (v w : Nat) : Nat := ((List.range w).filter (fun i => bitOf v i)).length
/-- Number of leading 0 bits of the `w`-bit pattern. -/
def clz (v w : Nat) : Nat := if v % 2 ^ w = 0 then w else w - 1 - Nat.log2 (v % 2 ^ w)

/-- A bitwise function on 32-bit two's-complement patterns, as a signed integer where an operand is negative (R175). -/
def bitwise (f : Nat → Nat → Nat) (a b : Int) : Int :=
  let r := f (wrapInt a 64) (wrapInt b 64)
  sextNat r 64

/-- Integer functions: the exact result, and whether the low bits are written as they are (R174 to R179); `w` is SFMT's
width. SHR, MULHI, POPCNT and CLZ are among these and set no OF where DFMT cuts their result, the model's reading of R178
(log 57). A shift count of format INT4 has 4 bits: the low 6 bits are those of the operand extended by its sign when signed, the
model's choice (log 78). -/
def intFn (opc fn w : Nat) (a b c : Int) : Int × Bool :=
  let n := wrapInt b 6
  match opc, fn with
  | 0x10, 0 => (a + b, false)
  | 0x10, 1 => (a - b, false)
  | 0x10, 2 => (a * b, false)
  | 0x10, 3 => (max a b, false)
  | 0x10, 4 => (min a b, false)
  | 0x10, 8 => (bitwise (· &&& ·) a b, true)
  | 0x10, 9 => (bitwise (· ||| ·) a b, true)
  | 0x10, 10 => (bitwise (· ^^^ ·) a b, true)
  | 0x10, 11 => (if w ≤ n then 0 else a * 2 ^ n, false)
  | 0x10, 12 => (a / 2 ^ n, true)
  | 0x10, 13 => (a * b / 2 ^ w, true)
  | 0x10, _ => ((a - b).natAbs, false)
  | 0x11, 0 => (a, false)
  | 0x11, 1 => (-a, false)
  | 0x11, 2 => (a.natAbs, false)
  | 0x11, 8 => (a.sign, false)
  | 0x11, 9 => (-a - 1, true)
  | 0x11, 10 => (popcount (wrapInt a w) w, true)
  | 0x11, _ => (clz (wrapInt a w) w, true)
  | _, 0 => (a * b + c, false)
  | _, 1 => (a * b - c, false)
  | _, 2 => (c - a * b, false)
  | _, _ => (min (max a b) c, false)

/-- Compare functions (R180, R181). -/
def cmpFn (fn : Nat) (a b : Val) : Bool :=
  match fn with
  | 0 => a.eq b
  | 1 => !a.eq b
  | 2 => a.lt b
  | 3 => a.lt b || a.eq b
  | 4 => b.lt a
  | 5 => b.lt a || a.eq b
  | 6 => a.isNan
  | 7 => a.isInf
  | _ => !a.isNan && !a.isInf

/-- The destination bits of one element, its flags, and the value that was converted (R164 to R166, R192): the exact result
before its last rounding, which for LERP and RINT is that of k = 1, enters the amax, the model's reading of R136 (log 56). LERP
with a NaN operand sets no nv, also where b − a is ∞ − ∞ (log 66), and a primitive's FP32 result is rounded once more into DFMT
(log 68): both the model's choices. -/
def ewElem (w : InsWord) (sr : SrCtx) (index : Nat) (a b c : Val) : Nat × Fl × Val :=
  let opc := w.opc.toNat
  let fn := fn7 w
  let d := w.dfmt.toNat
  let du := fnU w && isInt d
  let rnd := w.rnd.toNat
  let rb := fun k => sr.bitsFor rnd k index
  let place := fun (v : Val) (f : Fl) (k : Nat) =>
    let (r, g) := roundTo d du rnd w.sat w.ftz (rb k) v
    (r, f ||| g, v)
  match (ewKind w).1 with
  | .sfu =>
    let (r, f) := sfu fn w.sat w.ftz (toF32 false false a).1 (toF32 false false b).1
    let v := ofF32 r
    let (x, g) := roundTo d false rNE w.sat w.ftz 0 v
    (x, f ||| g, v)
  | .cmp | .isf =>
    let v := Val.ofInt (if cmpFn fn a b then 1 else 0)
    ((roundTo d du rNE false false 0 v).1, 0, v)
  | .sel => place (if a.isZero then c else b) 0 0
  | _ =>
    if kindOf w.sfmt.toNat = .int then
      let (i, low) := intFn opc fn (fmtWidth w.sfmt.toNat) a.toInt b.toInt c.toInt
      if low then (wrapInt i (fmtWidth d), 0, Val.ofInt i) else place (Val.ofInt i) 0 0
    else if opc = 0x11 ∧ fn = 4 then
      let (v, f) := a.rint rnd (rb 0)
      place v f 1
    else if opc = 0x12 ∧ fn = 3 ∧ (a.isNan || b.isNan || c.isNan) then place .nan 0 1
    else if opc = 0x12 ∧ fn = 3 then
      let rdn := rnd = rDN
      let (d0, f) := b.add rdn a.negate
      let (db, g) := roundTo 0 false rnd w.sat w.ftz (rb 0) d0
      let (v, h) := Val.fma rdn c (decodeElem 0 false false db) a
      place v (f ||| g ||| h) 1
    else
      let (v, f) := floatFn opc fn (rnd = rDN) a b c
      place v f 0

/-- A scalar operand: an FP32 encoding or a 32-bit integer (R161). -/
def scalarVal (int uns ftz : Bool) (x : W32) : Val :=
  if int then Val.ofInt (if uns then (x.toNat : Int) else x.toInt) else ofF32z ftz x

/-- Whether the scalars b and c of the word are integers. -/
def ewScalarInt (q : QEntry) : Bool :=
  match (ewKind q.w).1 with
  | .sel => kindOf q.w.dfmt.toNat = .int
  | .sfu => false
  | _ => kindOf q.w.sfmt.toNat = .int

/-- Record the amax that an instruction appends when it completes (R136). -/
def State.gather (s : State) (q : QEntry) (d : Desc) (vs : List Val) : State :=
  if gathersAmax d.fmt then
    s.updInst q.seq (fun x => { x with amax := x.amax ++ [(d.tensorId.toNat, amaxEntry (amaxOf vs))] })
  else s

/-- Elements of `d` that read a poisoned tile of a source at the index `at_` gives. -/
def State.badIxs (s : State) (d : Desc) (srcs : List (Desc × (Ix → Ix))) : List Ix :=
  if s.sp.psnLines.isEmpty then [] else d.ixs.filter (fun x => srcs.any (fun p => s.elemPsn p.1 (p.2 x)))

/-- The flags of a list of results. -/
def orFlags (fs : List Fl) : Fl := fs.foldl (· ||| ·) 0

/-- The effect of the element-wise classes: each written element at its own index, poison by destination tile
(R158 to R166, R198, R199). -/
def ewRun (q : QEntry) (s : State) : State :=
  let w := q.w
  let d := q.dst
  let uns := fun (c : Nat) => fnU w && isInt c
  let rd := fun (t : Bool) (x : Desc) (sc : W32) (i : Ix) =>
    if t then s.elem x (uns x.fmt) w.ftz (x.bcast i) else scalarVal (ewScalarInt q) (fnU w) w.ftz sc
  let res := (d.ixs.filter (q.gate d)).map (fun i =>
    (i, ewElem w (q.sr s) (d.lin i) (s.elem q.sa (uns q.sa.fmt) w.ftz i) (rd (ewSb w) q.sb w.imm32 i)
      (rd (ewSc w) q.sc (cval w) i)))
  let bad := badTiles d (s.badIxs d ((ewOpnds q).map (fun o => (o.d, o.d.bcast))))
  let s := s.putElems d (res.map (fun r => (r.1, r.2.1))) (fun t => bad.contains t) w.poisonOk
  (s.flag (orFlags (res.map (fun r => r.2.2.1)))).gather q d (res.map (fun r => r.2.2.2))

def ewOp : TOp := plainOp ewOpnds (fun q => [q.oDst]) ewRun

/-! ### The rows -/

def execBinary (w : InsWord) (s : State) : Out := tensorRow (.binary w) w s [] ewChk ewOp
def execUnary (w : InsWord) (s : State) : Out := tensorRow (.unary w) w s [] ewChk ewOp
def execTernary (w : InsWord) (s : State) : Out := tensorRow (.ternary w) w s [] ewChk ewOp
def execCompareAndSelect (w : InsWord) (s : State) : Out := tensorRow (.compareAndSelect w) w s [] ewChk ewOp
def execSpecialFunctions (w : InsWord) (s : State) : Out := tensorRow (.specialFunctions w) w s [] ewChk ewOp

end Sys2Proof.Machine
end

