-- ==== Sys2Proof/Machine/Cvt.lean ====
section
/-! DEFINITION. T.CVT and the quantisation scales (03 R111 to R115, R125 to R150). -/

namespace Sys2Proof.Machine

/-! ### Scales -/

/-- A scale plane of `d` (R111). -/
def planeOk (p d : Desc) : Bool :=
  p.fmt = 13 && p.layout = 0 && p.rank = d.rank && p.shape = [cdiv (d.n 0) 32, d.n 1, d.n 2, d.n 3]
/-- A one-byte scale tensor (R113). -/
def byteOk (p : Desc) : Bool := p.fmt = 13 && p.layout = 0 && p.rank = 0 && p.n 0 = 1

/-- The block of an element: its index in the scale plane. -/
def Ix.block (x : Ix) : Ix := { x with i0 := x.i0 / 32 }

/-- Quantise one MX block (R127 to R130): the scale byte, the elements' bits, the flags. -/
def mxQuant (code rnd : Nat) (sat ftz : Bool) (vs : List (Val × Nat)) : Nat × List Nat × Fl :=
  if vs.any (fun v => v.1.isNan || v.1.isInf) then
    (255, vs.map (fun _ => 0), (if vs.any (·.1.isNan) then flNV else 0) ||| (if vs.any (·.1.isInf) then flOF else 0))
  else
    let b := scaleByte (amaxOf (vs.map (·.1))).scaleL code false
    let rs := vs.map (fun v => roundTo code false rnd sat ftz v.2 (v.1.scale (127 - (b : Int))))
    (b, rs.map (·.1), orFlags (rs.map (·.2)))

/-- The scale byte of policy HIST (1) or FCST (2) from a history (R131, R132, R155). -/
def State.policyByte (s : State) (pol tid code : Nat) (uns : Bool) : Nat × Fl :=
  let L := ((AL.getD s.ar.hist tid []).map ofF32).filter (fun v => !v.isNan) |>.map (fun v => v.abs.scaleL)
  if L.isEmpty then (127, flAmaxEmpty)
  else (scaleByte (if pol = 1 then L.foldl max (-150) else fcstL L s.ar.margin.toNat) code uns, 0)

/-- R133: a scale too small for the input's amax. -/
def scaleMiss (A : Val) (byte code : Nat) (uns : Bool) : Bool :=
  Val.lt (maxFinite code uns) (A.scale (127 - (byte : Int)))

def State.fcMissed (s : State) : State :=
  { s with ar := { s.ar with flags := s.ar.flags ||| flFcMiss, fcMiss := satAdd s.ar.fcMiss 1 } }

/-! ### T.CVT -/

def cvtPol (w : InsWord) : Nat := bitsOf w.fn.toNat 4 2
def cvtDscl (w : InsWord) : Bool := bitOf w.fn.toNat 3
def cvtSscl (w : InsWord) : Bool := bitOf w.fn.toNat 2
def cvtSu (w : InsWord) : Bool := bitOf w.fn.toNat 7 && isInt w.sfmt.toNat
def cvtDu (w : InsWord) : Bool := bitOf w.fn.toNat 6 && isInt w.dfmt.toNat
def cvtSb (w : InsWord) : Bool := isMX w.sfmt.toNat || cvtSscl w
def cvtSc (w : InsWord) : Bool := isMX w.dfmt.toNat || cvtDscl w

def cvtSrcs (q : QEntry) : List Opnd := [q.oSa] ++ when (cvtSb q.w) q.oSb
def cvtOuts (q : QEntry) : List Opnd := [q.oDst] ++ when (cvtSc q.w) q.oSc

/-- Table 3.12. -/
def cvtChk (q : QEntry) (s : State) : List Flt :=
  let w := q.w
  let base := clearArith w
  let base := if cvtSb w then { base with sb := 0 } else base
  let base := if cvtSc w then { base with sc := 0 } else base
  let base := if cvtPol w = 3 ∧ w.imm32.toNat < 256 then { base with imm32 := 0 } else base
  illegal w (badBits w || unused base || bitsOf w.fn.toNat 0 2 ≠ 0 || (cvtPol w ≠ 0 && !cvtDscl w))
  ++ spadChecks q s (cvtOuts q ++ cvtSrcs q)
  ++ badShape w (!q.sa.sameShape q.dst
    || (cvtSb w && !(if isMX w.sfmt.toNat then planeOk q.sb q.sa else byteOk q.sb))
    || (cvtSc w && !(if isMX w.dfmt.toNat then planeOk q.sc q.dst else byteOk q.sc)))
  ++ badFmt w ((cvtSscl w && !isScalable w.sfmt.toNat) || (cvtDscl w && !isScalable w.dfmt.toNat)
    || (!w.sat && cvtSc w) || (cvtPol w = 3 && w.imm32.toNat % 256 = 255)
    || (cvtDscl w && (cvtPol w = 1 || cvtPol w = 2) && decide (Config.amaxIds ≤ q.dst.tensorId.toNat)))

/-- The index of an element's scale: the plane's, or the one byte's. -/
def cvtScaleIx (w : InsWord) (x : Ix) : Ix := if isMX w.sfmt.toNat then x.block else ⟨0, 0, 0, 0⟩

/-- The source value of an element, after FTZ and its scale (R114, R125). -/
def State.cvtSource (s : State) (q : QEntry) (x : Ix) : Val × Fl :=
  let v := s.elem q.sa (cvtSu q.w) q.w.ftz x
  if cvtSb q.w then v.withScale (s.raw q.sb (cvtScaleIx q.w x)) else (v, 0)

/-- Elements by block, in the order of the plane. -/
def blocksOf (xs : List (Ix × Val)) : List (Ix × List (Ix × Val)) :=
  ((xs.map (fun x => x.1.block)).eraseDups).map (fun b => (b, xs.filter (fun x => x.1.block = b)))

/-- Convert into an MX destination: elements, then scale bytes by block (R128, R144, R145). -/
def mxElems (w : InsWord) (sr : SrCtx) (d : Desc) (xs : List (Ix × Val)) : List (Ix × Nat) × List (Ix × Nat) × Fl :=
  let rnd := w.rnd.toNat
  let rs := (blocksOf xs).map (fun b =>
    (b, mxQuant d.fmt rnd w.sat w.ftz (b.2.map (fun x => (x.2, sr.bitsFor rnd 0 (d.lin x.1))))))
  (rs.flatMap (fun r => (r.1.2.map (·.1)).zip r.2.2.1), rs.map (fun r => (r.1.1, r.2.1)), orFlags (rs.map (fun r => r.2.2.2)))

/-- Convert into any other destination under scale byte `b` (127 without a scale). -/
def flatElems (w : InsWord) (sr : SrCtx) (d : Desc) (du : Bool) (b : Nat) (xs : List (Ix × Val)) : List (Ix × Nat) × Fl :=
  let rnd := w.rnd.toNat
  let rs := xs.map (fun x => (x.1, roundTo d.fmt du rnd w.sat w.ftz (sr.bitsFor rnd 0 (d.lin x.1))
    (x.2.scale (127 - (b : Int)))))
  (rs.map (fun r => (r.1, r.2.1)), orFlags (rs.map (fun r => r.2.2)))

/-- Write scale bytes; `bad` says which lines are poisoned (R149). -/
def State.putScales (s : State) (p : Desc) (ws : List (Ix × Nat)) (bad : Nat → Bool) (poisonOk : Bool) : State :=
  s.putLines p (ws.map (fun x => p.bitW x.1 x.2)) bad (fun _ => 0) poisonOk

/-- The effect of T.CVT. -/
def cvtRun (q : QEntry) (s : State) : State :=
  let w := q.w
  let d := q.dst
  let anyBad := s.anyPsn q.sa || (cvtSb w && s.anyPsn q.sb)
  let scaleBad := fun (x : Ix) => cvtSb w && (q.sb.elemLines (cvtScaleIx w x)).any s.psn
  let badX := if !anyBad then [] else d.ixs.filter (fun x => s.elemPsn q.sa x || scaleBad x)
  let fed := if !anyBad then [] else
    ((d.ixs.filter (fun x => (q.sa.elemLines x).any s.psn || scaleBad x)).map Ix.block).eraseDups
  let src := (d.ixs.filter (q.gate d)).map (fun x => (x, s.cvtSource q x))
  let xs := src.map (fun p => (p.1, p.2.1))
  let fl := orFlags (src.map (fun p => p.2.2))
  let A := amaxOf (xs.map (·.2))
  if isMX d.fmt then
    let (es, bs, f) := mxElems w (q.sr s) d xs
    let bad := badTiles d badX
    let badLines := fed.flatMap (fun b => q.sc.elemLines b)
    let s := s.putElems d es (fun t => bad.contains t) w.poisonOk
    let s := s.putScales q.sc bs (fun l => badLines.contains l) w.poisonOk
    (s.flag (fl ||| f)).gather q d (xs.map (·.2))
  else
    let (b, g) : Nat × Fl :=
      if !cvtDscl w then (127, 0)
      else if cvtPol w = 0 then (scaleByte A.scaleL d.fmt (cvtDu w), 0)
      else if cvtPol w = 3 then (w.imm32.toNat % 256, 0)
      else s.policyByte (cvtPol w) d.tensorId.toNat d.fmt (cvtDu w)
    let miss := cvtDscl w && cvtPol w ≠ 0 && scaleMiss A b d.fmt (cvtDu w)
    let (es, f) := flatElems w (q.sr s) d (cvtDu w) b xs
    let all := cvtDscl w && cvtPol w = 0 && anyBad
    let bad := badTiles d badX
    let s := s.putElems d es (fun t => all || bad.contains t) w.poisonOk
    let s := if cvtDscl w && !xs.isEmpty then s.putScales q.sc [((⟨0, 0, 0, 0⟩ : Ix), b)] (fun _ => all) w.poisonOk else s
    let s := if miss then s.fcMissed else s
    (s.flag (fl ||| g ||| f)).gather q d (xs.map (·.2))

/-- The lines that T.CVT writes: of a scale plane those of the blocks of which it writes an element, of one scale byte its line where it
writes an element at all. -/
def cvtWrites (q : QEntry) : List Nat :=
  let xs := q.dst.ixs.filter (q.gate q.dst)
  q.dst.linesOf xs ++ (if !cvtSc q.w || xs.isEmpty then []
    else q.sc.linesOf (if isMX q.dst.fmt then xs.map Ix.block else [⟨0, 0, 0, 0⟩]))

def cvtOp : TOp := { plainOp cvtSrcs cvtOuts cvtRun with writes := fun q _ => lineRanges (cvtWrites q) }

def execTCvt (w : InsWord) (s : State) : Out := tensorRow (.tCvt w) w s [] cvtChk cvtOp

end Sys2Proof.Machine
end

