-- ==== Sys2Proof/Machine/Reduce.lean ====
section
/-! DEFINITION. Reductions, softmax, normalisation and expert routing (05): OPC 0x20 to 0x23. -/

namespace Sys2Proof.Machine

/-! ### The reduction tree (R202, R203) -/

/-- One level: neighbours combine, an absent one passes its partner, an odd last node passes up unchanged. -/
def treeLevel {α : Type} (op : α → α → α × Fl) : List (Option α) → List (Option α) × Fl
  | a :: b :: r =>
    let (c, f) := match a, b with
      | some x, some y => let (z, f) := op x y; (some z, f)
      | some x, none => (some x, 0)
      | none, y => (y, 0)
    let (cs, g) := treeLevel op r
    (c :: cs, f ||| g)
  | l => (l, 0)

/-- The tree over the leaves, with fuel for its levels. -/
def treeN {α : Type} (op : α → α → α × Fl) : Nat → List (Option α) → Option α × Fl
  | _, [] => (none, 0)
  | _, [a] => (a, 0)
  | 0, a :: _ => (a, 0)
  | k + 1, l =>
    let (l', f) := treeLevel op l
    let (r, g) := treeN op k l'
    (r, f ||| g)

def tree {α : Type} (op : α → α → α × Fl) (l : List (Option α)) : Option α × Fl := treeN op l.length l

def addOp (a b : W32) : W32 × Fl := addX false false a b
def maxOp (a b : W32) : W32 × Fl := (maxF a b, 0)
def minOp (a b : W32) : W32 × Fl := (minF a b, 0)

/-- a below b in the order that puts −0 below +0 (R211, R222). -/
def Val.below (a b : Val) : Bool := a.lt b || (a.eq b && a.neg? && !b.neg?)

/-- Widen a leaf exactly to FP32 (R204). -/
def leaf32 (v : Val) : W32 := (toF32 false false v).1

/-! ### Reduction sets -/

def axisOn (axes a : Nat) : Bool := bitOf axes a
/-- The destination index of each reduction set. -/
def redKeys (sa : Desc) (axes : Nat) : List Ix :=
  let m := fun a => if axisOn axes a then 1 else sa.n a
  ixsOf (m 0) (m 1) (m 2) (m 3)
/-- The elements of a set in position order, the lowest reduced axis fastest (R202). -/
def redIxs (sa : Desc) (axes : Nat) (key : Ix) : List Ix :=
  let m := fun a => if axisOn axes a then sa.n a else 1
  (ixsOf (m 0) (m 1) (m 2) (m 3)).map (fun r => Ix.ofFn (fun a => if axisOn axes a then r.get a else key.get a))

def redAxes (w : InsWord) : Nat := bitsOf w.imm32.toNat 0 4
def redMask (w : InsWord) : Bool := bitOf w.imm32.toNat 4
def redCount (sa : Desc) (axes : Nat) : Nat := ([0, 1, 2, 3].map (fun a => if axisOn axes a then sa.n a else 1)).foldl (· * ·) 1

def redSrcs (q : QEntry) : List Opnd := [q.oSa] ++ when (redMask q.w) q.oSb

/-- A leaf is kept by the mask (R203, R209). -/
def State.kept (s : State) (m : Desc) (ftz : Bool) (x : Ix) : Bool := !(s.elem m false ftz (m.bcast x)).isZero

/-- The leaves of a set: absent where the mask is zero. -/
def State.leaves (s : State) (q : QEntry) (masked : Bool) (ids : List Ix) : List (Option Val) :=
  ids.map (fun x => if masked && !s.kept q.sb q.w.ftz x then none
    else some (s.elem q.sa (fnU q.w && isInt q.sa.fmt) q.w.ftz x))

/-- A set reads a poisoned tile of SA or of the mask (R234). -/
def State.setBad (s : State) (q : QEntry) (masked : Bool) (ids : List Ix) : Bool :=
  !s.sp.psnLines.isEmpty && ids.any (fun x => s.elemPsn q.sa x || (masked && s.elemPsn q.sb (q.sb.bcast x)))

/-- Rounding k = 0 of a result into a destination (R205, R206). Under FTZ a subnormal FP32 value is flushed into an FP32
destination as well, the model's choice between R205's sentences (log 71). -/
def State.placeAt (s : State) (q : QEntry) (d : Desc) (x : Ix) (v : Val) : Nat × Fl :=
  let sr : SrCtx := ⟨s.sb.seed, d.tensorId, q.step⟩
  roundTo d.fmt (fnU q.w && isInt d.fmt) q.w.rnd.toNat q.w.sat q.w.ftz (sr.bitsFor q.w.rnd.toNat 0 (d.lin x)) v

/-! ### T.RED (Table 5.1) -/

/-- The position that ARGMAX (`mx`) or ARGMIN selects (R211). -/
def argSelect (mx : Bool) (ls : List (Option Val)) : Int :=
  let better := fun (a b : Val) => if mx then b.below a else a.below b
  match ls.zipIdx.foldl (fun best p => match p.1 with
      | none => best
      | some v => if v.isNan then best else match best with
        | none => some (v, p.2)
        | some (b, _) => if better v b then some (v, p.2) else best) (none : Option (Val × Nat)) with
  | some (_, p) => p
  | none => -1

/-- Integer SUM, MAX and MIN over the present leaves (R206). -/
def intReduce (fn code : Nat) (uns : Bool) (ls : List (Option Val)) : Int :=
  let vs := (ls.filterMap id).map Val.toInt
  let w := fmtWidth code
  match fn with
  | 0 => vs.foldl (· + ·) 0
  | 3 => match vs with | [] => intMin w uns | v :: r => r.foldl max v
  | _ => match vs with | [] => intMax w uns | v :: r => r.foldl min v

/-- A float reduction: the value to be rounded into DFMT and the flags of the tree (R204, R210, R212). -/
def floatReduce (fn : Nat) (ls : List (Option Val)) : Val × Fl :=
  let l32 := ls.map (fun o => o.map leaf32)
  let out := fun (r : Option W32 × Fl) (empty : Val) => ((r.1.map ofF32).getD empty, r.2)
  match fn with
  | 0 => out (tree addOp l32) (.zero false)
  | 1 =>
    let (v, f) := out (tree addOp l32) (.zero false)
    (v.divNat (max 1 (ls.filterMap id).length), f)
  | 2 =>
    let sq := l32.map (fun o => o.map (fun a => mulX false false a a))
    let (v, f) := out (tree addOp (sq.map (fun o => o.map (·.1)))) (.zero false)
    (v, f ||| orFlags (sq.map (fun o => (o.map (·.2)).getD 0)))
  | 3 => out (tree maxOp l32) (.inf true)
  | 4 => out (tree minOp l32) (.inf false)
  | _ => out (tree maxOp (l32.map (fun o => o.map absF))) (.zero false)

/-- The value of one reduction set. -/
def redValue (w : InsWord) (ls : List (Option Val)) : Val × Fl :=
  let fn := fn7 w
  if fn = 6 ∨ fn = 7 then (Val.ofInt (argSelect (fn = 6) ls), 0)
  else if kindOf w.sfmt.toNat = .int then (Val.ofInt (intReduce fn w.sfmt.toNat (fnU w) ls), 0)
  else floatReduce fn ls

/-- A mask's shape and format (R209, Table 5.2). -/
def maskShape (sa m : Desc) : Bool := m.rank = sa.rank && [0, 1, 2, 3].all (fun a => m.n a = sa.n a || m.n a = 1)
def maskFmt (m : Desc) : Bool := kindOf m.fmt = .float || kindOf m.fmt = .int

/-- Checks common to T.RED and OPC 0x23 (Tables 5.2, 5.8). -/
def redChk (known sameShape : Bool) (badKind badInt : QEntry → Bool) (q : QEntry) (s : State) : List Flt :=
  let w := q.w
  let os := redSrcs q
  let base := { clearArith w with imm32 := 0 }
  let base := if redMask w then { base with sb := 0 } else base
  let axes := redAxes w
  illegal w (badBits w || !known || unused base || w.imm32.toNat / 32 ≠ 0
    || badU w ([w.dfmt.toNat, w.sfmt.toNat] ++ (os.drop 1).map (fun o => o.d.fmt)) || badInt q)
  ++ spadChecks q s (q.oDst :: os)
  ++ badShape w (axes = 0 || axes / 2 ^ q.sa.rk ≠ 0 || decide (2 ^ 32 < redCount q.sa axes)
    || (redMask w && !maskShape q.sa q.sb)
    || q.dst.rank ≠ q.sa.rank
    || q.dst.shape ≠ [0, 1, 2, 3].map (fun a => if axisOn axes a && !sameShape then 1 else q.sa.n a))
  ++ badFmt w ((redMask w && !maskFmt q.sb) || badKind q)

/-- The formats of T.RED (Table 5.2). The spec gives DST of SUM to AMAX no codes of its own; the model has it of SFMT's kind, as R162 has it
for the element-wise functions, else 0x1005: the model's choice (log 91). -/
def tRedBadKind (q : QEntry) : Bool :=
  let w := q.w
  let ka := kindOf w.sfmt.toNat
  let fn := fn7 w
  !(ka = .float || ka = .int) || ((fn = 1 || fn = 2 || fn = 5) && ka ≠ .float)
  || (if fn = 6 ∨ fn = 7 then
        !(w.dfmt = 11 || w.dfmt = 12) || fnU w || decide (2 ^ (fmtWidth w.dfmt.toNat - 1) ≤ redCount q.sa (redAxes w) - 1)
      else kindOf w.dfmt.toNat ≠ ka)

/-- A rounding field that the function has no use for: integer leaves are neither rounded nor flushed, and the positions of
ARGMAX and ARGMIN are neither rounded nor saturated (R36, R206, R211). -/
def tRedBadRnd (q : QEntry) : Bool :=
  (kindOf q.w.sfmt.toNat = .int && (q.w.rnd ≠ 0 || q.w.ftz)) || (decide (6 ≤ fn7 q.w) && (q.w.rnd ≠ 0 || q.w.sat))

def tRedChk (q : QEntry) (s : State) : List Flt := redChk (fn7 q.w ≤ 7) false tRedBadKind tRedBadRnd q s

/-- The effect of T.RED. The steps before the last rounding set their flags for a destination that PRED suppresses too (log 41). -/
def tRedRun (q : QEntry) (s : State) : State :=
  let w := q.w
  let d := q.dst
  let res := (redKeys q.sa (redAxes w)).map (fun k =>
    let ids := redIxs q.sa (redAxes w) k
    (k, redValue w (s.leaves q (redMask w) ids), s.setBad q (redMask w) ids))
  let wr := res.filter (fun r => q.gate d r.1)
  let ws := wr.map (fun r => (r.1, s.placeAt q d r.1 r.2.1.1))
  let bad := badTiles d ((res.filter (fun r => r.2.2)).map (·.1))
  let fl := orFlags (res.map (fun r => r.2.1.2)) ||| orFlags (ws.map (fun x => x.2.2))
  let s := s.putElems d (ws.map (fun x => (x.1, x.2.1))) (fun t => bad.contains t) w.poisonOk
  (s.flag fl).gather q d (wr.map (fun r => r.2.1.1))

def tRedOp : TOp := plainOp redSrcs (fun q => [q.oDst]) tRedRun
def execTRed (w : InsWord) (s : State) : Out := tensorRow (.tRed w) w s [] tRedChk tRedOp

/-! ### Softmax and log-sum-exp (R214, R215) -/

/-- The exponentials u and their tree sum, for a set with a finite maximum m (R214). The helpers of OPC 0x23 round with SAT = 0 and
FTZ = 0 and set their flags, the model's choice beside R187 and R190 (log 72). -/
def softTerms (m : W32) (ls : List (Option Val)) : List (Option W32) × W32 × Fl :=
  let us := ls.map (fun o => o.map (fun v =>
    let (a, f) := subX false false (leaf32 v) m
    let (b, g) := mulX false false a K.log2e
    let (c, h) := primX .exp2 false false b
    (c, f ||| g ||| h)))
  let (sum, f) := tree addOp (us.map (fun o => o.map (·.1)))
  (us.map (fun o => o.map (·.1)), sum.getD 0, f ||| orFlags (us.map (fun o => (o.map (·.2)).getD 0)))

/-- The maximum of the present leaves, or what Table 5.4 decides: `none` for a set with no present leaf. -/
def softMax (ls : List (Option Val)) : Option W32 :=
  if (ls.filterMap id).any Val.isNan then some f32nan else (tree maxOp (ls.map (fun o => o.map leaf32))).1

/-- One value a leaf. -/
def smaxValues (ls : List (Option Val)) : List Val × Fl :=
  match softMax ls with
  | none => (ls.map (fun _ => .zero false), 0)
  | some m =>
    if (ofF32 m).isNan then (ls.map (fun _ => .nan), 0)
    else if (ofF32 m).isInf then (ls.map (fun _ => .nan), flNV)
    else
      let (us, sum, f) := softTerms m ls
      let (r, g) := primX .rcp false false sum
      let ys := us.map (fun o => match o with
        | none => (Val.zero false, (0 : Fl))
        | some u => (ofF32 u).mul (ofF32 r))
      (ys.map (·.1), f ||| g ||| orFlags (ys.map (·.2)))

def lseValue (rdn : Bool) (ls : List (Option Val)) : Val × Fl :=
  match softMax ls with
  | none => (.inf true, 0)
  | some m =>
    if (ofF32 m).isNan || (ofF32 m).isInf then (ofF32 m, 0)
    else
      let (_, sum, f) := softTerms m ls
      let (l, g) := primX .log2 false false sum
      let (v, h) := Val.fma rdn (ofF32 l) (ofF32 K.ln2) (ofF32 m)
      (v, f ||| g ||| h)

def softBadKind (q : QEntry) : Bool := !(kindOf q.w.sfmt.toNat = .float && kindOf q.w.dfmt.toNat = .float)

/-- OPC 0x23 lists FN[6:0] 0 and 1; a word of another FN stands in the SMAX row. -/
def smaxChk (q : QEntry) (s : State) : List Flt := redChk (fn7 q.w = 0) true softBadKind (fun _ => false) q s
def lseChk (q : QEntry) (s : State) : List Flt := redChk true false softBadKind (fun _ => false) q s

def smaxRun (q : QEntry) (s : State) : State :=
  let w := q.w
  let d := q.dst
  let res := (redKeys q.sa (redAxes w)).map (fun k =>
    let ids := redIxs q.sa (redAxes w) k
    (ids, smaxValues (s.leaves q (redMask w) ids), s.setBad q (redMask w) ids))
  let wr := (res.flatMap (fun r => r.1.zip r.2.1.1)).filter (fun p => q.gate d p.1)
  let ws := wr.map (fun p => (p.1, s.placeAt q d p.1 p.2))
  let bad := badTiles d ((res.filter (fun r => r.2.2)).flatMap (·.1))
  let fl := orFlags (res.map (fun r => r.2.1.2)) ||| orFlags (ws.map (fun x => x.2.2))
  let s := s.putElems d (ws.map (fun x => (x.1, x.2.1))) (fun t => bad.contains t) w.poisonOk
  (s.flag fl).gather q d (wr.map (·.2))

def lseRun (q : QEntry) (s : State) : State :=
  let w := q.w
  let d := q.dst
  let res := (redKeys q.sa (redAxes w)).map (fun k =>
    let ids := redIxs q.sa (redAxes w) k
    (k, lseValue (w.rnd.toNat = rDN) (s.leaves q (redMask w) ids), s.setBad q (redMask w) ids))
  let wr := res.filter (fun r => q.gate d r.1)
  let ws := wr.map (fun r => (r.1, s.placeAt q d r.1 r.2.1.1))
  let bad := badTiles d ((res.filter (fun r => r.2.2)).map (·.1))
  let fl := orFlags (res.map (fun r => r.2.1.2)) ||| orFlags (ws.map (fun x => x.2.2))
  let s := s.putElems d (ws.map (fun x => (x.1, x.2.1))) (fun t => bad.contains t) w.poisonOk
  (s.flag fl).gather q d (wr.map (fun r => r.2.1.1))

def smaxOp : TOp := plainOp redSrcs (fun q => [q.oDst]) smaxRun
def lseOp : TOp := plainOp redSrcs (fun q => [q.oDst]) lseRun
def execSmax (w : InsWord) (s : State) : Out := tensorRow (.smax w) w s [] smaxChk smaxOp
def execLse (w : InsWord) (s : State) : Out := tensorRow (.lse w) w s [] lseChk lseOp

/-! ### T.NORM (R217 to R220) -/

def normGamma (w : InsWord) : Bool := bitOf w.aux64.toNat 0
def normBeta (w : InsWord) : Bool := bitOf w.aux64.toNat 1
def normStats (w : InsWord) : Bool := bitOf w.aux64.toNat 2
def normSrcs (q : QEntry) : List Opnd := [q.oSa] ++ when (normGamma q.w) q.oSb ++ when (normBeta q.w) q.oSc
def normOuts (q : QEntry) : List Opnd := [q.oDst] ++ when (normStats q.w) (q.oAux 8 0)

/-- The checks of T.NORM. A statistics descriptor of another format is a shape that breaks R218 (0x1002), while a format of TOPK's
values is one not allowed (0x1005): the model's choice in Table 5.8 (log 85). -/
def normChk (q : QEntry) (s : State) : List Flt :=
  let w := q.w
  let base := { clearArith w with imm32 := 0, aux64 := 0 }
  let base := if normGamma w then { base with sb := 0 } else base
  let base := if normBeta w then { base with sc := 0 } else base
  let st := q.aux[0]?.getD default
  let vec := fun (x : Desc) => x.rank = q.sa.rank && x.shape = [q.sa.n 0, 1, 1, 1]
  let eps := ofF32 w.imm32
  illegal w (badBits w || unused base || decide (1 < w.fn.toNat) || w.aux64.toNat / 2 ^ 14 ≠ 0
    || bitsOf w.aux64.toNat 3 5 ≠ 0 || (!normStats w && auxDesc w 8 ≠ 0) || (normBeta w && w.fn = 1))
  ++ spadChecks q s (normOuts q ++ normSrcs q)
  ++ badShape w (!q.dst.sameShape q.sa || (normGamma w && !vec q.sb) || (normBeta w && !vec q.sc)
    || (normStats w && !(st.fmt = 0 && st.rank = q.sa.rank && st.shape = [2, q.sa.n 1, q.sa.n 2, q.sa.n 3])))
  ++ badFmt w (!((normSrcs q ++ [q.oDst]).all (fun o => isFloat o.d.fmt)) || eps.isNan || eps.isInf || eps.neg?)

/-- One row: mu, r, the values t, and the flags of the steps before the last. An infinite leaf under RMS goes through R217's
steps like any other, the model's choice beside the text under R220 (log 73). -/
def normRow (layer : Bool) (eps : W32) (xs : List W32) : W32 × W32 × List W32 × Fl :=
  let (rn, f0) := primX .rcp false false (leaf32 (Val.ofInt xs.length))
  let sum := fun (l : List W32) => let (r, f) := tree addOp (l.map some); (r.getD 0, f)
  let (mu, ds, f1) : W32 × List W32 × Fl :=
    if layer then
      let (t, f) := sum xs
      let (mu, g) := mulX false false t rn
      let d := xs.map (fun x => subX false false x mu)
      (mu, d.map (·.1), f ||| g ||| orFlags (d.map (·.2)))
    else (0, xs, 0)
  let sq := ds.map (fun d => mulX false false d d)
  let (t, f2) := sum (sq.map (·.1))
  let (ms, f3) := mulX false false t rn
  let (me, f4) := addX false false ms eps
  let (r, f5) := primX .rsqrt false false me
  let ts := ds.map (fun d => mulX false false d r)
  (mu, r, ts.map (·.1), f0 ||| f1 ||| orFlags (sq.map (·.2)) ||| f2 ||| f3 ||| f4 ||| f5 ||| orFlags (ts.map (·.2)))

/-- The effect of T.NORM. A subnormal mu is a result as well: FTZ flushes it where it is written, with uf and nx, the model's choice
beside R217's FTZ = 0 (log 77). -/
def normRun (q : QEntry) (s : State) : State :=
  let w := q.w
  let d := q.dst
  let layer := w.fn = 0
  let col := fun (x : Desc) (i : Nat) => s.elem x false w.ftz ⟨i, 0, 0, 0⟩
  let rows := ixsOf 1 (d.n 1) (d.n 2) (d.n 3)
  let ids := fun (r : Ix) => (List.range (d.n 0)).map (fun i => ({ r with i0 := i } : Ix))
  let res := rows.map (fun r =>
    (r, normRow layer (leaf32 (ofF32z w.ftz w.imm32)) ((ids r).map (fun x => leaf32 (s.elem q.sa false w.ftz x))), (ids r).any (s.elemPsn q.sa)))
  let fin := (res.flatMap (fun p => (ids p.1).zip p.2.1.2.2.1)).filter (fun p => q.gate d p.1)
  let vals := fin.map (fun p =>
    let g := if normGamma w then col q.sb p.1.i0 else Val.ofInt 1
    (p.1, if normBeta w then Val.fma (w.rnd.toNat = rDN) (ofF32 p.2) g (col q.sc p.1.i0) else (ofF32 p.2).mul g))
  let ws := vals.map (fun p => (p.1, s.placeAt q d p.1 p.2.1))
  let colBad := fun (i : Nat) => (normGamma w && s.elemPsn q.sb ⟨i, 0, 0, 0⟩) || (normBeta w && s.elemPsn q.sc ⟨i, 0, 0, 0⟩)
  let bad := if s.sp.psnLines.isEmpty then [] else
    badTiles d (res.flatMap (fun p => (ids p.1).filter (fun x => p.2.2 || colBad x.i0)))
  let st := q.aux[0]?.getD default
  let mus := if normStats w then res.map (fun p => (p, flushed w.ftz p.2.1.1)) else []
  let stw := mus.flatMap (fun m =>
      [(({ m.1.1 with i0 := 0 } : Ix), m.2.1.toNat), ({ m.1.1 with i0 := 1 }, m.1.2.1.2.1.toNat)])
  let stBad := badTiles st ((res.filter (fun p => p.2.2)).flatMap (fun p => [{ p.1 with i0 := 0 }, { p.1 with i0 := 1 }]))
  let fl := orFlags (res.map (fun p => p.2.1.2.2.2)) ||| orFlags (vals.map (fun p => p.2.2))
    ||| orFlags (ws.map (fun p => p.2.2)) ||| orFlags (mus.map (fun m => m.2.2))
  let s := s.putElems d (ws.map (fun p => (p.1, p.2.1))) (fun t => bad.contains t) w.poisonOk
  let s := if normStats w then s.putElems st stw (fun t => stBad.contains t) w.poisonOk else s
  (s.flag fl).gather q d (vals.map (fun p => p.2.1))

def normOp : TOp := plainOp normSrcs normOuts normRun
def execTNorm (w : InsWord) (s : State) : Out :=
  tensorRow (.tNorm w) w s (if normStats w then [auxDesc w 8] else []) normChk normOp

/-! ### Expert routing (R221 to R232) -/

/-- The fields that every function of OPC 0x22 uses, cleared; PRED and SC stay, and must be zero (R221). -/
def clearRoute (w : InsWord) : InsWord :=
  { clearCommon w with dst := 0, sa := 0, dfmt := 0, sfmt := 0, imm32 := 0, aux64 := 0 }

def topkK (w : InsWord) : Nat := bitsOf w.imm32.toNat 0 8
def topkMask (w : InsWord) : Bool := bitOf w.imm32.toNat 8
def topkVal (w : InsWord) : Bool := bitOf w.aux64.toNat 6
def topkSrcs (q : QEntry) : List Opnd := [q.oSa] ++ when (topkMask q.w) q.oSb
def topkOuts (q : QEntry) : List Opnd := [q.oDst] ++ when (topkVal q.w) (q.oAux 0 0)

/-- OPC 0x22's words of an unlisted FN stand in the TOPK row. -/
def topkChk (q : QEntry) (s : State) : List Flt :=
  let w := q.w
  let base := { clearRoute w with rnd := 0, sat := false, ftz := false }
  let base := if topkMask w then { base with sb := 0 } else base
  let v := q.aux[0]?.getD default
  illegal w (badBits w || unused base || w.fn ≠ 0 || w.imm32.toNat / 512 ≠ 0 || topkK w = 0 || decide (32 < topkK w)
    || w.aux64.toNat / 128 ≠ 0 || (!topkVal w && (auxDesc w 0 ≠ 0 || w.rnd ≠ 0 || w.sat)))
  ++ spadChecks q s (topkOuts q ++ topkSrcs q)
  ++ badShape w ((topkMask w && !maskShape q.sa q.sb) || q.dst.rank ≠ q.sa.rank
    || q.dst.shape ≠ [topkK w, q.sa.n 1, q.sa.n 2, q.sa.n 3] || (topkVal w && !v.sameShape q.dst))
  ++ badFmt w (!isFloat w.sfmt.toNat || !(w.dfmt = 11 || w.dfmt = 12) || (topkMask w && !maskFmt q.sb)
    || decide (q.sa.n 0 < topkK w) || decide (2 ^ (fmtWidth w.dfmt.toNat - 1) ≤ q.sa.n 0 - 1)
    || (topkVal w && !isFloat v.fmt))

/-- Insert a score by R222's order: NaN lowest, −0 below +0, the smaller index higher on equal values. -/
def insScore (x : Val × Nat) : List (Val × Nat) → List (Val × Nat)
  | [] => [x]
  | y :: r => if (y.1.isNan && !x.1.isNan) || y.1.below x.1 then x :: y :: r else y :: insScore x r

/-- The k slots of a row: value and index, −∞ and −1 for the remaining ones (R222, R223). -/
def topkRow (k : Nat) (scores : List (Option Val)) : List (Val × Int) :=
  let sorted : List (Val × Nat) :=
    scores.zipIdx.foldl (fun l p => match p.1 with | none => l | some v => insScore (v, p.2) l) []
  (List.range k).map (fun j => match (sorted[j]? : Option (Val × Nat)) with
    | some p => (p.1, (p.2 : Int))
    | none => (.inf true, -1))

/-- The effect of TOPK; the −∞ of a slot without a score is no converted value and stays out of the amax, the model's reading of
R136 (log 56). -/
def topkRun (q : QEntry) (s : State) : State :=
  let w := q.w
  let d := q.dst
  let v := q.aux[0]?.getD default
  let rows := ixsOf 1 (q.sa.n 1) (q.sa.n 2) (q.sa.n 3)
  let res := rows.map (fun r =>
    let ids := (List.range (q.sa.n 0)).map (fun i => ({ r with i0 := i } : Ix))
    (r, topkRow (topkK w) (s.leaves q (topkMask w) ids), s.setBad q (topkMask w) ids))
  let slots := res.flatMap (fun p => p.2.1.zipIdx.map (fun e => (({ p.1 with i0 := e.2 } : Ix), e.1, p.2.2)))
  let badIx := (slots.filter (fun e => e.2.2)).map (·.1)
  let bad := badTiles d badIx
  let vs := slots.map (fun e => (e.1, s.placeAt q v e.1 e.2.1.1))
  let vBad := badTiles v badIx
  let nan := slots.any (fun e => e.2.1.1.isNan)
  let s := s.putElems d (slots.map (fun e => (e.1, wrapInt e.2.1.2 d.w))) (fun t => bad.contains t) w.poisonOk
  let s := if nan then s.flag flNV else s
  if topkVal w then
    let s := s.putElems v (vs.map (fun e => (e.1, e.2.1))) (fun t => vBad.contains t) w.poisonOk
    (s.flag (orFlags (vs.map (fun e => e.2.2)))).gather q v
      ((slots.filter (fun e => 0 ≤ e.2.1.2)).map (fun e => e.2.1.1))
  else s

def topkOp : TOp := plainOp topkSrcs topkOuts topkRun
def execTopk (w : InsWord) (s : State) : Out :=
  tensorRow (.topk w) w s (if topkVal w then [auxDesc w 0] else []) topkChk topkOp

/-- HIST reads DST as well when acc = 1. -/
def histAcc (w : InsWord) : Bool := bitOf w.aux64.toNat 7
def histSrcs (q : QEntry) : List Opnd := when (histAcc q.w) q.oDst ++ [q.oSa]

def histChk (q : QEntry) (s : State) : List Flt :=
  let w := q.w
  illegal w (badBits w || unused { clearRoute w with imm32 := w.imm32, sat := false } || w.aux64.toNat &&& (2 ^ 64 - 1 - 128) ≠ 0
    || badU w [w.dfmt.toNat, w.sfmt.toNat])
  ++ spadChecks q s [q.oDst, q.oSa]
  ++ badShape w (q.dst.rank ≠ 0)
  ++ badFmt w (!isInt w.sfmt.toNat || !(w.dfmt = 11 || w.dfmt = 12 || w.dfmt = 13))

/-- The effect of HIST. With acc = 1 a poisoned line of DST, which it reads as well, poisons every tile that it writes, as one of SA
does: the model's choice (log 84). -/
def histRun (q : QEntry) (s : State) : State :=
  let w := q.w
  let d := q.dst
  let vs := q.sa.ixs.map (fun x => (s.elem q.sa (fnU w && isInt q.sa.fmt) false x).toInt)
  let res := d.ixs.map (fun x =>
    let c := ((vs.filter (fun v => v = (x.i0 : Int))).length : Int)
    (x, Val.ofInt (if histAcc w then c + (s.elem d (fnU w && isInt d.fmt) false x).toInt else c)))
  let ws := res.map (fun p => (p.1, s.placeAt q d p.1 p.2))
  let bad := s.anyPsn q.sa || (histAcc w && s.anyPsn d)
  let s := s.putElems d (ws.map (fun p => (p.1, p.2.1))) (fun _ => bad) w.poisonOk
  (s.flag (orFlags (ws.map (fun p => p.2.2)))).gather q d (res.map (·.2))

def histOp : TOp := plainOp histSrcs (fun q => [q.oDst]) histRun
def execHist (w : InsWord) (s : State) : Out := tensorRow (.hist w) w s [] histChk histOp

def dispCnt (w : InsWord) : Bool := bitOf w.aux64.toNat 6
def dispPos (w : InsWord) : Bool := bitOf w.aux64.toNat 14
def dispPosK (w : InsWord) : Nat := if dispCnt w then 1 else 0
def dispOuts (q : QEntry) : List Opnd :=
  [q.oDst] ++ when (dispCnt q.w) (q.oAux 0 0) ++ when (dispPos q.w) (q.oAux 8 (dispPosK q.w))

def dispChk (q : QEntry) (s : State) : List Flt :=
  let w := q.w
  let c := q.aux[0]?.getD default
  let p := q.aux[dispPosK w]?.getD default
  illegal w (badBits w || unused (clearRoute w) || w.fn ≠ 2 || w.aux64.toNat / 2 ^ 15 ≠ 0 || bitOf w.aux64.toNat 7
    || (!dispPos w && auxDesc w 8 ≠ 0) || (!dispCnt w && auxDesc w 0 ≠ 0))
  ++ spadChecks q s (dispOuts q ++ [q.oSa])
  ++ badShape w (q.sa.rk ≠ 2 || q.dst.rk ≠ 2 || w.imm32.toNat ≠ q.dst.n 0
    || (dispCnt w && !(c.fmt = 11 && c.rk = 2 && c.n 0 = 2 && c.n 1 = q.dst.n 1))
    || (dispPos w && !(p.fmt = 11 && p.sameShape q.sa)))
  ++ badFmt w (!(w.sfmt = 11 || w.sfmt = 12 || w.sfmt = 13) || w.dfmt ≠ 11)

/-- One entry of the dispatch: token, expert (none where skipped), position c (R228). -/
def dispatchEntries (E : Nat) : List (Nat × Int) → List Nat → List (Nat × Option (Nat × Nat))
  | [], _ => []
  | (t, e) :: r, seen =>
    if 0 ≤ e ∧ e < (E : Int) then
      (t, some (e.toNat, (seen.filter (· = e.toNat)).length)) :: dispatchEntries E r (e.toNat :: seen)
    else (t, none) :: dispatchEntries E r seen

def dispRun (q : QEntry) (s : State) : State :=
  let w := q.w
  let d := q.dst
  let C := d.n 0
  let E := d.n 1
  let xs := q.sa.ixs
  let ents := dispatchEntries E (xs.map (fun x => (x.i1, (s.elem q.sa false false x).toInt))) []
  let kept := ents.filterMap (fun e => match e.2 with
    | some (x, c) => if c < C then some (x, c, e.1) else none
    | none => none)
  let bad := s.anyPsn q.sa
  let list := d.ixs.map (fun x => (x, wrapInt (match kept.find? (fun k => k.1 = x.i1 && k.2.1 = x.i0) with
    | some k => (k.2.2 : Int)
    | none => -1) 32))
  let routed := fun (e : Nat) => (ents.filter (fun x => match x.2 with | some (y, _) => y = e | none => false)).length
  let cnt := q.aux[0]?.getD default
  let cw := cnt.ixs.map (fun x => (x, if x.i0 = 0 then routed x.i1 else (kept.filter (fun k => k.1 = x.i1)).length))
  let pos := q.aux[dispPosK w]?.getD default
  let pw := (xs.zip ents).map (fun p => (p.1, wrapInt (match p.2.2 with
    | some (e, c) => if c < C then ((e * C + c : Nat) : Int) else -1
    | none => -1) 32))
  let s := s.putElems d list (fun _ => bad) w.poisonOk
  let s := if dispCnt w then s.putElems cnt cw (fun _ => bad) w.poisonOk else s
  if dispPos w then s.putElems pos pw (fun _ => bad) w.poisonOk else s

def dispOp : TOp := plainOp (fun q => [q.oSa]) dispOuts dispRun
def execDispatch (w : InsWord) (s : State) : Out :=
  tensorRow (.dispatch w) w s ((if dispCnt w then [auxDesc w 0] else []) ++ (if dispPos w then [auxDesc w 8] else [])) dispChk
    dispOp

end Sys2Proof.Machine
end

