-- ==== Sys2Proof/Machine/Dot.lean ====
section
/-! DEFINITION. The contraction lattice (06): T.DOT, OPC 0x30. -/

namespace Sys2Proof.Machine

def dotMode (w : InsWord) : Nat := bitsOf w.fn.toNat 2 2
def dotAcc (w : InsWord) : Bool := bitOf w.fn.toNat 0
def dotTrunc (w : InsWord) : Bool := bitOf w.fn.toNat 1
def dotMX (w : InsWord) : Bool := dotMode w = 1

/-! ### Chunks (R252 to R254, R259) -/

/-- `parts` of R254: sign, M, E. -/
def f19Parts (x : Nat) : Bool × Nat × Int :=
  let e := bitsOf x 10 8
  let f := bitsOf x 0 10
  if e = 0 then (bitOf x 18, f, -126) else (bitOf x 18, 0x400 + f, (e : Int) - 127)

/-- One product: sign, exact value p, extended exponent. -/
structure F19Prod where
  neg : Bool
  p : Nat
  x : Int
  deriving DecidableEq, Repr

def f19Prod (a b : Nat) : F19Prod :=
  let (sa, ma, ea) := f19Parts a
  let (sb, mb, eb) := f19Parts b
  ⟨sa != sb, ma * mb, ea + eb⟩

/-- `chunk_f19`. -/
def chunkF19 (ps : List (Nat × Nat)) (sat ftz : Bool) : W32 × Fl :=
  let prods := (ps.map (fun p => f19Prod p.1 p.2)).filter (fun p => p.p ≠ 0)
  match prods with
  | [] => (0, 0)
  | p0 :: r =>
    let emax := r.foldl (fun m p => max m p.x) p0.x
    let terms := prods.map (fun p =>
      let d := (emax - p.x).toNat
      let q : Nat := if d ≤ 28 then p.p * 2 ^ (28 - d) else p.p / 2 ^ (d - 28)
      let lost := decide (28 < d) && decide (p.p % 2 ^ (d - 28) ≠ 0)
      ((if p.neg then -(q : Int) else q), lost))
    let W : Int := (terms.map (·.1)).foldl (· + ·) 0
    let sticky := terms.any (·.2)
    if W = 0 then (0, if sticky then flNX else 0)
    else toF32 sat ftz (.fin ⟨decide (W < 0), 2 * W.natAbs + b2n sticky, emax - 49, false⟩)

/-- Rows 1 to 4 of Table 6.5 over the elements of a chunk; none for row 5. -/
def chunkDecided (ps : List (Val × Val)) (scNan : Bool) : Option (W32 × Fl) :=
  let prods := ps.map (fun p => p.1.mul p.2)
  if scNan || ps.any (fun p => p.1.isNan || p.2.isNan) then some (f32nan, flNV ||| (if scNan then flScNan else 0))
  else if prods.any (·.1.isNan) then some (f32nan, flNV)
  else
    let pos := prods.any (fun p => p.1 = .inf false)
    let neg := prods.any (fun p => p.1 = .inf true)
    if pos && neg then some (f32nan, flNV)
    else if pos || neg then some (f32inf neg, 0) else none

/-- One F19 chunk of encodings. -/
def f19Chunk (ps : List (Nat × Nat)) (sat ftz : Bool) : W32 × Fl :=
  match chunkDecided (ps.map (fun p => (decodeElem 15 false false p.1, decodeElem 15 false false p.2))) false with
  | some r => r
  | none => chunkF19 ps sat ftz

/-- One MX chunk of element values and its two scale bytes (R258, R259). -/
def mxChunk (ps : List (Val × Val)) (sa sb : Nat) (sat ftz : Bool) : W32 × Fl :=
  match chunkDecided ps (sa = 255 || sb = 255) with
  | some r => r
  | none =>
    let S := (ps.map (fun p => (p.1.mul p.2).1)).foldl (fun a v => (a.add false v).1) (.zero false)
    applyScale (if S.isZero then .zero false else S) sa sb sat ftz

/-- The accumulation of chunk results (R255). -/
def accumulate (sat ftz : Bool) (c0 : W32) (chunks : List (W32 × Fl)) : W32 × Fl :=
  chunks.foldl (fun r c =>
    let (v, f) := addX sat ftz r.1 c.1
    (v, r.2 ||| c.2 ||| f)) (c0, 0)

/-- A weight of B1 (mode 2) or T2 (mode 3) from its byte, and R108's invalid code. -/
def packedWeight (mode byte k : Nat) : Int × Fl :=
  if mode = 2 then (if bitOf byte (k % 8) then -1 else 1, 0)
  else match bitsOf byte (2 * (k % 4)) 2 with
    | 0 => (0, 0) | 1 => (1, 0) | 3 => (-1, 0) | _ => (0, flNV)

/-! ### T.DOT -/

def dotSrcs (q : QEntry) : List Opnd :=
  [q.oSa, q.oSb] ++ when (dotAcc q.w) q.oSc ++ when (dotMX q.w) (q.oAux 0 0) ++ when (dotMX q.w) (q.oAux 8 1)

/-- Table 6.9. -/
def dotChk (q : QEntry) (s : State) : List Flt :=
  let w := q.w
  let mode := dotMode w
  let packed := decide (2 ≤ mode)
  let base := { clearArith w with sb := 0, aux64 := 0 }
  let base := if dotAcc w then { base with sc := 0 } else base
  let asc := q.aux[0]?.getD default
  let bsc := q.aux[1]?.getD default
  let K := q.sa.n 0
  let per := if mode = 2 then 8 else if mode = 3 then 4 else 1
  illegal w (badBits w || unused base || bitsOf w.fn.toNat 4 3 ≠ 0 || (dotTrunc w && mode ≠ 0) || (fnU w && !packed)
    || w.aux64.toNat / 2 ^ 14 ≠ 0 || bitsOf w.aux64.toNat 6 2 ≠ 0 || (!dotMX w && w.aux64 ≠ 0)
    || (packed && (w.rnd ≠ 0 || w.ftz)))
  ++ spadChecks q s (q.oDst :: dotSrcs q)
  ++ badShape w (!(q.dst.rk = 2 || q.dst.rk = 3) || !(dotSrcs q).all (fun o => o.d.rk = q.dst.rk)
    || !(q.oDst :: dotSrcs q).all (fun o => o.d.layout = 0 || o.d.layout = 1)
    || q.dst.n 1 ≠ q.sa.n 1 || q.dst.n 2 ≠ q.sa.n 2 || q.dst.n 0 ≠ q.sb.n 1
    || !(q.sb.n 2 = q.dst.n 2 || q.sb.n 2 = 1)
    || K % per ≠ 0 || q.sb.n 0 ≠ K / per
    || (dotAcc w && !q.sc.sameShape q.dst)
    || (dotMX w && !(planeOk asc q.sa && planeOk bsc q.sb)))
  ++ badFmt w ((if mode = 0 then !(isFloat q.sa.fmt && isFloat q.sb.fmt)
      else if mode = 1 then !(isMX q.sa.fmt && isMX q.sb.fmt)
      else !(q.sa.fmt = 13 && q.sb.fmt = 13))
    || (if packed then q.dst.fmt ≠ 11 else decide (2 < q.dst.fmt))
    || (dotAcc w && q.sc.fmt ≠ (if packed then 11 else 0))
    || (!packed && w.rnd ≠ 0) || (packed && s.cfg.profile ≠ 2))

/-- The index of an element of B for batch b (R245). -/
def dotB (sb : Desc) (k n b : Nat) : Ix := ⟨k, n, if sb.n 2 = 1 then 0 else b, 0⟩

/-- Chunk j of F19 mode: 32 encodings of each side with the flags of their conversions (R251, R252). -/
def State.dotF19 (s : State) (q : QEntry) (x : Ix) (j : Nat) : W32 × Fl :=
  let w := q.w
  let conv := fun (d : Desc) (i : Ix) =>
    roundTo 15 false (if dotTrunc w then rTZ else rNE) w.sat w.ftz 0 (s.elem d false w.ftz i)
  let ks := strided (32 * j) 1 (min 32 (q.sa.n 0 - 32 * j))
  let a := ks.map (fun k => conv q.sa ⟨k, x.i1, x.i2, 0⟩)
  let b := ks.map (fun k => conv q.sb (dotB q.sb k x.i0 x.i2))
  let (r, f) := f19Chunk ((a.map (·.1)).zip (b.map (·.1))) w.sat w.ftz
  (r, f ||| orFlags (a.map (·.2)) ||| orFlags (b.map (·.2)))

/-- Chunk j of MX mode. -/
def State.dotMXChunk (s : State) (q : QEntry) (x : Ix) (j : Nat) : W32 × Fl :=
  let w := q.w
  let ks := strided (32 * j) 1 (min 32 (q.sa.n 0 - 32 * j))
  let asc := q.aux[0]?.getD default
  let bsc := q.aux[1]?.getD default
  mxChunk (ks.map (fun k => (s.elem q.sa false w.ftz ⟨k, x.i1, x.i2, 0⟩, s.elem q.sb false w.ftz (dotB q.sb k x.i0 x.i2))))
    (s.raw asc ⟨j, x.i1, x.i2, 0⟩) (s.raw bsc (dotB bsc j x.i0 x.i2)) w.sat w.ftz

/-- One destination element (R255, R256, R263). -/
def State.dotElem (s : State) (q : QEntry) (x : Ix) : Nat × Fl :=
  let w := q.w
  let K := q.sa.n 0
  if 2 ≤ dotMode w then
    let ts := (List.range K).map (fun k =>
      let a := decodeElem 13 (fnU w) false (s.raw q.sa ⟨k, x.i1, x.i2, 0⟩)
      let (b, f) := packedWeight (dotMode w) (s.raw q.sb (dotB q.sb (k / (if dotMode w = 2 then 8 else 4)) x.i0 x.i2)) k
      (a.toInt * b, f))
    let c := if dotAcc w then (s.elem q.sc false false x).toInt else 0
    let (r, f) := placeInt 32 false w.sat ((ts.map (·.1)).foldl (· + ·) c)
    (r, f ||| orFlags (ts.map (·.2)))
  else
    let cv := if dotAcc w then s.elem q.sc false w.ftz x else Val.zero false
    let f0 : Fl := if cv.isNan then flNV else 0
    let chunks := (List.range (cdiv K 32)).map (fun j => if dotMX w then s.dotMXChunk q x j else s.dotF19 q x j)
    let (r, f) := accumulate w.sat w.ftz (leaf32 cv) chunks
    if q.dst.fmt = 0 then (r.toNat, f0 ||| f)
    else
      let (b, g) := roundTo q.dst.fmt false rNE w.sat w.ftz 0 (ofF32 r)
      (b, f0 ||| f ||| g)

/-- A destination element reads a poisoned line (R266). -/
def State.dotBad (s : State) (q : QEntry) (x : Ix) : Bool :=
  let w := q.w
  let asc := q.aux[0]?.getD default
  let bsc := q.aux[1]?.getD default
  (List.range (q.sa.n 0)).any (fun k => s.elemPsn q.sa ⟨k, x.i1, x.i2, 0⟩)
  || (List.range (q.sb.n 0)).any (fun k => s.elemPsn q.sb (dotB q.sb k x.i0 x.i2))
  || (dotAcc w && s.elemPsn q.sc x)
  || (dotMX w && ((List.range (asc.n 0)).any (fun j => (asc.elemLines ⟨j, x.i1, x.i2, 0⟩).any s.psn)
      || (List.range (bsc.n 0)).any (fun j => (bsc.elemLines (dotB bsc j x.i0 x.i2)).any s.psn)))

def dotRun (q : QEntry) (s : State) : State :=
  let w := q.w
  let d := q.dst
  let ws := (d.ixs.filter (q.gate d)).map (fun x => (x, s.dotElem q x))
  let bad := if s.sp.psnLines.isEmpty then [] else badTiles d (d.ixs.filter (s.dotBad q))
  let s := s.putElems d (ws.map (fun p => (p.1, p.2.1))) (fun t => bad.contains t) w.poisonOk
  s.flag (orFlags (ws.map (fun p => p.2.2)))

def dotOp : TOp := plainOp dotSrcs (fun q => [q.oDst]) dotRun

def execTDot (w : InsWord) (s : State) : Out :=
  tensorRow (.tDot w) w s (if dotMX w then [auxDesc w 0, auxDesc w 8] else []) dotChk dotOp

end Sys2Proof.Machine
end

