-- ==== Sys2Proof/Machine/Transfer.lean ====
section
/-! DEFINITION. T.XFER, T.OFFL, T.RELD, T.GEN and the memory and host responses (10 R408 to R421, R439 to R448, R635). -/

namespace Sys2Proof.Machine

/-! ### Ports and lines (R411, R421) -/

/-- The memory or host port of a line. -/
def memPort (a : Nat) : Nat := if Config.hostBase ≤ a then 31 + a / 128 % 2 else 6 + a / 128 % 16

/-- Every line of a tensor's tiles, rising. -/
def Desc.allLines (d : Desc) : List Nat := (d.tiles.flatMap d.tileLines).foldl insNat []

/-- The memory and host ports that an operand's lines use. -/
def Desc.busPorts (d : Desc) : List Nat :=
  if d.region = some .package || d.region = some .host then (d.allLines.map memPort).foldl insNat [] else []

def xferMask (w : InsWord) : List Nat := (List.range 8).filter (bitOf w.imm32.toNat)

/-- The port of the i-th line of a transfer. -/
def State.linePort (s : State) (q : QEntry) (line i : Nat) : Nat :=
  if q.dst.region = some .remote then
    if s.peerDst q.dst then 30 else let ps := xferMask q.w; 22 + ps.getD (i % ps.length) 0
  else memPort line

/-! ### Bytes moved (R410, R422, R635) -/

/-- Destination bytes and the source bytes they take: each element's bytes, widened to units of `g` bytes. Where a remote base
is no multiple of 4, the bytes of the first word before a row travel as those that precede the source row, the model's choice
(log 108). -/
def moveMap (q : QEntry) (g : Nat) : List (Nat × Nat) :=
  (q.dst.ixs.flatMap (fun x =>
    let p := q.dst.bitAddr x
    let b := p / 8
    let lo := b / g * g
    let hi := ((p + q.dst.w - 1) / 8 / g + 1) * g
    (strided lo 1 (hi - lo)).map (fun a => (a, a + q.sa.bitAddr x / 8 - b)))).eraseDups

/-- The destination's image and the bytes it covers, in units of `g`. -/
def moveImage (q : QEntry) (src : Mem) (g : Nat) : Mem × List Nat :=
  let wide := moveMap q g
  let m := wide.foldl (fun (m : Mem) p => Mem.write m p.1 (src.read p.2)) []
  let m := (if g = 1 then [] else moveMap q 1).foldl (fun (m : Mem) p => Mem.write m p.1 (src.read p.2)) m
  (m, (wide.map (·.1)).foldl insNat [])

/-- Send the destination's lines to package, host or remote space (R411, R413, R422, R635); `bad` are the poisoned
destination tiles. -/
def State.sendLines (s : State) (q : QEntry) (src : Mem) (bad : List Tile) : State :=
  let remote := q.dst.region = some .remote
  let (m, bytes) := moveImage q src (if remote then 4 else 1)
  let lines := (bytes.map lineOf).foldl insNat []
  let badLines := if q.w.poisonOk then [] else bad.flatMap q.dst.tileLines
  lines.zipIdx.foldl (fun s p =>
    let l := p.1
    let port := s.linePort q l p.2
    let psn := badLines.contains l
    let mine := bytes.filter (fun a => lineOf a = l)
    if remote then
      (wordRuns ((mine.map (· / 4)).eraseDups)).foldl (fun s r =>
        s.send port (some q.seq) (s.rwriteMsg psn (4 * r.1)
          ((List.range r.2).map (fun k => BitVec.ofNat 32 (m.readLE (4 * (r.1 + k)) 4))))) s
    else if mine.length = 128 then
      s.send port (some q.seq) (.mwrite 0 psn (BitVec.ofNat 48 l) (m.readBytes l 128))
    else
      s.send port (some q.seq) (.mread 0 (BitVec.ofNat 48 l))
        (.merge ((List.range 128).map (fun j => if mine.contains (l + j) then some (m.read (l + j)) else none)) psn)) s

/-! ### Payload and records (R416 to R419) -/

/-- The payload of a PLAIN tensor held in `m`, rows of the indexes given along dimensions 1 to 3. -/
def payloadOf (d : Desc) (m : Mem) (rows : List Ix) : List Byte :=
  rows.flatMap (fun r => leBytes (cdiv (d.n 0 * d.w) 8) (m.readBits (d.bitAddr { r with i0 := 0 }) (d.n 0 * d.w)))
def Desc.rowIxs (d : Desc) : List Ix := ixsOf 1 (d.n 1) (d.n 2) (d.n 3)

/-- A record tensor but for its base and the number of its records (R417). A base outside the scratchpad breaks R417 (0x1002); an
extent that leaves it from a base inside breaks R53 (0x2001). -/
def recOk (d : Desc) : Bool := d.fmt = 11 && d.layout = 0 && d.rk = 2 && d.n 0 = 4 && d.pitch 1 = 4
def recChk (q : QEntry) (s : State) (n : Nat) : List Flt :=
  (s.checkOpnd q.w [.spad] q.oSb).filter (fun f => q.sb.inSpad || f.1 ≠ 0x2001)
  ++ badShape q.w (!recOk q.sb || q.sb.n 1 ≠ n || !q.sb.inSpad)
  ++ (if q.sb.at_ % 16 = 0 then [] else [(0x2002, infoA false 2 q.w.sb.toNat q.sb.at_)])

/-- The bits of a record (Table 10.4). -/
def recBits (i : Nat) (gen : W64) (crc : W32) (psn : Bool) : List (Ix × Nat) :=
  [(⟨0, i, 0, 0⟩, gen.toNat % 2 ^ 32), (⟨1, i, 0, 0⟩, gen.toNat / 2 ^ 32), (⟨2, i, 0, 0⟩, crc.toNat),
    (⟨3, i, 0, 0⟩, if psn then 1 else 0)]
/-- A record as read: gen, crc, psn. -/
def State.recAt (s : State) (d : Desc) (i : Nat) : Nat × Nat × Bool :=
  (s.raw d ⟨0, i, 0, 0⟩ + 2 ^ 32 * s.raw d ⟨1, i, 0, 0⟩, s.raw d ⟨2, i, 0, 0⟩, bitOf (s.raw d ⟨3, i, 0, 0⟩) 0)

/-! ### Out of the scratchpad -/

def offRec (w : InsWord) : Bool := w.opc = 0x49 && fn7 w = 2
def reldCheck (w : InsWord) : Bool := w.opc = 0x49 && fn7 w = 3

/-- The poisoned destination tiles of a transfer (R448). -/
def moveBad (q : QEntry) (hit : Ix → Bool) : List Tile := badTiles q.dst (q.dst.ixs.filter hit)

/-- A transfer out of the scratchpad, and the record it writes when it completes (R418). -/
def State.moveOut (s : State) (q : QEntry) : State :=
  let bad := if s.sp.psnLines.isEmpty then [] else moveBad q (s.elemPsn q.sa)
  let s := s.sendLines q s.sp.mem bad
  if offRec q.w then s.setProg q.seq (.offl (crc32c (payloadOf q.sa s.sp.mem q.sa.rowIxs)) (s.anyPsn q.sa)) else s

/-- The record of a T.OFFL is written at its completion. -/
def State.writeRecord (s : State) (q : QEntry) (crc : W32) (psn : Bool) : State :=
  s.putElems q.sb (recBits 0 0 crc psn) (fun _ => false) q.w.poisonOk

/-! ### Into the scratchpad -/

/-- A transfer into the scratchpad begins: its lines are read (R411, R421). -/
def State.moveIn (s : State) (q : QEntry) : State :=
  let lines := q.sa.allLines
  let s := s.setProg q.seq (.dma ⟨lines, [], []⟩)
  lines.foldl (fun s l => s.send (memPort l) (some q.seq) (.mread 0 (BitVec.ofNat 48 l))) s

/-- Every line has come: the commit check, the reload check, and the writes (R42, R419, R448, Table 14.4 sources 3 and 4). Poison
enters at the lines of DST that hold data of a poisoned line; the rest of their tiles takes it by propagation (R521). -/
def State.finishMove (s : State) (q : QEntry) (d : DmaProg) : State :=
  let w := q.w
  match (if w.commit then d.psn.head? else none : Option Nat) with
  | some l => s.raiseHalt q.seq q.pc 0x5001 (infoA false 1 w.sa.toNat l)
  | none =>
    let src : Mem := d.got.foldl (fun m p => m.writeBytes p.1 p.2) []
    let tileBad := fun (t : Tile) => (q.sa.tileLines t).any (fun l => d.psn.contains l)
    let bad := if d.psn.isEmpty then [] else moveBad q (fun x => (q.sa.tilesOf x).any tileBad)
    let entries := if d.psn.isEmpty then [] else
      ((q.dst.ixs.filter (fun x => (q.sa.elemLines x).any d.psn.contains)).flatMap q.dst.elemLines).foldl insNat []
    let (_, crc, psn) := s.recAt q.sb 0
    let fail := reldCheck w && (crc ≠ (crc32c (payloadOf q.sa src q.sa.rowIxs)).toNat || psn)
    let ws := q.dst.ixs.map (fun x => (x, src.readBits (q.sa.bitAddr x) q.dst.w))
    let lines := (ws.flatMap (fun p => q.dst.elemLines p.1)).foldl insNat []
    let s := if fail then
        lines.foldl (fun s l => s.enterPoison 4 l) { s with xf := { s.xf with reldBad := satAdd s.xf.reldBad 1 } }
      else if w.poisonOk then s
      else entries.foldl (fun s l => s.enterPoison 3 l) s
    let s := s.putElems q.dst ws (fun t => fail || bad.contains t) (w.poisonOk && !fail)
    s.setProg q.seq .idle

/-- The writes of a transfer whose every line has come may be made: the scrub has passed the lines of DST (09 R402). -/
def State.moveReady (s : State) (q : QEntry) (d : DmaProg) : Bool := d.need.isEmpty && !s.scrubLines (q.dst.linesOf q.dst.ixs)

/-- A transfer whose every line has come, and whose writes wait for no line that the scrub has not reached. -/
def State.moveFreed (s : State) : Option (QEntry × DmaProg) :=
  s.fl.findSome? (fun f => match f.prog with
    | .dma d => if s.moveReady f.q d then some (f.q, d) else none
    | _ => none)

/-! ### The instructions -/

/-- The path leaves the scratchpad. -/
def moveFromSpad (q : QEntry) : Bool := q.sa.inSpad

def moveSrcs (q : QEntry) : List Opnd := when (moveFromSpad q) q.oSa ++ when (reldCheck q.w) q.oSb
def moveOuts (q : QEntry) : List Opnd := when q.dst.inSpad q.oDst ++ when (offRec q.w) q.oSb
def moveRun (q : QEntry) (s : State) : State := if moveFromSpad q then s.moveOut q else s.moveIn q

/-- Formats, shapes and ports that every transfer checks. -/
def moveChk (q : QEntry) (s : State) (sas dsts : List Region) : List Flt :=
  let w := q.w
  badShape w (w.dfmt ≠ q.dst.format || w.sfmt ≠ q.sa.format || q.sa.format ≠ q.dst.format || q.sa.layout ≠ q.dst.layout
    || !q.sa.sameShape q.dst)
  ++ s.checkOpnd w dsts q.oDst ++ s.checkOpnd w sas q.oSa
  ++ ((q.sa.busPorts ++ q.dst.busPorts).foldl insNat []).flatMap s.needPort

def clearMove (w : InsWord) : InsWord := { clearCommon w with dst := 0, sa := 0, dfmt := 0, sfmt := 0 }

/-- Table 10.11 for T.XFER. -/
def xferChk (q : QEntry) (s : State) : List Flt :=
  let w := q.w
  let remote := q.dst.region = some .remote
  let peer := s.peerDst q.dst
  let pair := (q.sa.inSpad && (q.dst.region = some .package || remote)) || (q.sa.region = some .package && q.dst.inSpad)
  let own := remote && q.dst.chip = s.job.chipId.toNat
  illegal w (badBits w || w.fn ≠ 0 || unused { clearMove w with imm32 := 0 } || w.imm32.toNat / 256 ≠ 0
    || (decide (remote ∧ peer = false) != decide (w.imm32 ≠ 0)))
  ++ moveChk q s [.spad, .package] [.spad, .package, .remote]
  ++ (if pair && !own then [] else [(0x2001, infoA false 0 w.dst.toNat q.dst.at_)])
  ++ (if peer then s.needPort 30 else if remote then (xferMask w).flatMap (fun i => s.needPort (22 + i)) else [])

/-- Table 10.11 for OPC 0x49. -/
def offlChk (q : QEntry) (s : State) : List Flt :=
  let w := q.w
  let out := fn7 w % 2 = 0
  let bus : List Region := [.package, .host]
  let host := q.sa.region = some .host || q.dst.region = some .host
  let base := clearMove w
  let base := if 2 ≤ fn7 w then { base with sb := 0 } else base
  illegal w (badBits w || decide (3 < w.fn.toNat) || unused base || (decide (fn7 w < 2) && host))
  ++ badShape w (q.sa.layout ≠ 0 || q.dst.layout ≠ 0)
  ++ moveChk q s (if out then [.spad] else bus) (if out then bus else [.spad])
  ++ (if 2 ≤ fn7 w then recChk q s 1 else [])

/-- A transfer writes the scratchpad once its lines have come, and a record at its completion: nothing as it begins. -/
def moveOp : TOp := { plainOp moveSrcs moveOuts moveRun with writes := fun _ _ => [] }

def execTXfer (w : InsWord) (s : State) : Out := tensorRow (.tXfer w) w s [] xferChk moveOp
def execOffl (w : InsWord) (s : State) : Out := tensorRow (.offl w) w s [] offlChk moveOp
def execReld (w : InsWord) (s : State) : Out := tensorRow (.reld w) w s [] offlChk moveOp

/-! ### T.GEN (R444 to R446) -/

def genChk (q : QEntry) (s : State) : List Flt :=
  let w := q.w
  illegal w (badBits w || decide (1 < w.fn.toNat) || w.commit
    || unused { clearCommon w with sa := 0, sb := 0, sfmt := 0, aux64 := 0 })
  ++ badShape w (w.sfmt ≠ q.sa.format || q.sa.layout ≠ 0 || !(q.sa.rk = 2 || q.sa.rk = 3))
  ++ s.checkOpnd w [.spad] q.oSa ++ recChk q s (q.sa.n (q.sa.rk - 1))

/-- The rows of shard `i`. -/
def shardRows (d : Desc) (i : Nat) : List Ix :=
  if d.rk = 2 then [⟨0, i, 0, 0⟩] else (List.range (d.n 1)).map (fun j => ⟨0, j, i, 0⟩)

/-- A line of the shard is poisoned. -/
def State.shardBad (s : State) (d : Desc) (i : Nat) : Bool :=
  !s.sp.psnLines.isEmpty && (shardRows d i).any (fun r =>
    let a := d.bitAddr r / 8
    (linesIn a (a + cdiv (d.n 0 * d.w) 8)).any s.psn)

def State.shardCrc (s : State) (d : Desc) (i : Nat) : W32 := crc32c (payloadOf d s.sp.mem (shardRows d i))

/-- RECORD (R445). -/
def recordRun (q : QEntry) (s : State) : State :=
  let ws := (List.range (q.sb.n 1)).flatMap (fun i => recBits i q.w.aux64 (s.shardCrc q.sa i) (s.shardBad q.sa i))
  s.putElems q.sb ws (fun _ => false) q.w.poisonOk

/-- The reasons that shard `i` fails CHECK: psn, crc, gen. -/
def State.shardFails (s : State) (q : QEntry) (i : Nat) : Bool × Bool × Bool :=
  let (gen, crc, psn) := s.recAt q.sb i
  (psn || s.shardBad q.sa i || (q.sb.elemLines ⟨0, i, 0, 0⟩).any s.psn, crc ≠ (s.shardCrc q.sa i).toNat, gen ≠ q.w.aux64.toNat)

/-- GEN_FAIL as a word (Table 10.12). -/
def genFailWord (shard : Nat) (r : Bool × Bool × Bool) : W64 :=
  BitVec.ofNat 64 (2 ^ 63 + shard % 2 ^ 20 * 2 ^ 32 + (if r.1 then 4 else 0) + (if r.2.1 then 2 else 0) + (if r.2.2 then 1 else 0))

/-- CHECK (R446). -/
def checkRun (q : QEntry) (s : State) : State :=
  let n := q.sb.n 1
  let fs := ((List.range n).map (fun i => (i, s.shardFails q i))).filter (fun p => p.2.1 || p.2.2.1 || p.2.2.2)
  let s := { s with xf := { s.xf with
    genChecked := satAdd s.xf.genChecked n, genFailed := satAdd s.xf.genFailed fs.length } }
  match fs with
  | [] => s
  | (i, r) :: _ =>
    let s := { s with xf := { s.xf with
      gfValid := true, gfShard := BitVec.ofNat 20 i, gfPsn := r.1, gfCrc := r.2.1, gfGen := r.2.2 } }
    s.raiseHalt q.seq q.pc 0x2007 (genFailWord i r)

def execRecord (w : InsWord) (s : State) : Out :=
  tensorRow (.record w) w s [] genChk (plainOp (fun q => [q.oSa]) (fun q => [q.oSb]) recordRun)
def execCheck (w : InsWord) (s : State) : Out :=
  tensorRow (.check w) w s [] genChk (plainOp (fun q => [q.oSa, q.oSb]) (fun _ => []) checkRun)

/-! ### Responses (17 Table 17.8, 14 Table 14.6) -/

def State.dropReq (s : State) (i : Nat) : State := { s with reqs := s.reqs.eraseIdx i }

/-- The line of a read has come; `psn` holds its poison bit or err. Under POISON_OK a poisoned one is counted (R43). -/
def State.gotLine (s : State) (r : Req) (addr : Nat) (what : ReadFor) (psn : Bool) (line : List Byte) : State :=
  match s.fl.find? (fun f => some f.q.seq = r.owner) with
  | none => s.flush r.port
  | some f =>
    let s := if psn && f.q.w.poisonOk then s.noteOkReads f.q 1 else s
    match what with
    | .merge data mine =>
      let merged := (data.zip line).map (fun p => p.1.getD p.2)
      s.sendFirst r.port r.owner (.mwrite 0 (mine || (psn && !f.q.w.poisonOk)) (BitVec.ofNat 48 addr) merged)
    | .spad =>
      match f.prog with
      | .dma d =>
        let d := { d with need := d.need.filter (· ≠ addr), got := AL.put d.got addr line,
                          psn := if psn then insNat d.psn addr else d.psn }
        let s := s.setProg f.q.seq (.dma d)
        if s.moveReady f.q d then s.finishMove f.q d else s
      | _ => s

/-- A response frees its token; one that answers no request, or whose poison field or reserved bits are not well formed, is
dropped (Table 14.6), and after a KILL it is discarded (R536). -/
def State.memResponse (s : State) (p : Nat) (h : MrespHdr) (line : List Byte) : State :=
  let t := h.token.toNat
  let hit := fun (r : Req) => decide (r.port = p) && (match r.kind with
    | .read k _ _ => decide (k = t) && !h.ack
    | .ack k => decide (k = t) && h.ack
    | _ => false)
  match (if h.resHi ≠ 0 ∨ h.resLo ≠ 0 ∨ (h.ack && h.psn) then none else s.reqs.findIdx? hit : Option Nat) with
  | none => s.logOnly 0x6007 (infoP p s.now)
  | some i =>
    match s.reqs[i]? with
    | none => s
    | some r =>
      let s := s.dropReq i
      let s := match r.kind with | .read _ _ (.merge _ _) => s | _ => s.flush p
      match r.kind with
      | .read _ a what => s.gotLine r a what (h.psn || h.err) line
      | _ => s

end Sys2Proof.Machine
end

