-- ==== Sys2Proof/Machine/Yard.lean ====
section
/-! DEFINITION. The yard: chunks, the fixed tree, consumer reads, T.YARD, and the answers to what was sent (11 R450 to R491;
10 R423, R439, R440). -/

namespace Sys2Proof.Machine

/-! ### Slots and frames -/

/-- A usable slot (R450). -/
def State.slotUsable (s : State) (i : Nat) : Bool := decide (i < s.yardSlots)
def Slot.setFrame (x : Slot) (f : Nat) (fr : Frame) : Slot := { x with frames := x.frames.set f fr }

def Frame.present (fr : Frame) (p : Nat) : Bool := fr.nodes.any (fun n => decide (n.mlo ≤ p ∧ p < n.mlo + n.span))

/-- The lines of a leaf area. -/
def areaLines (a : Nat) : List Nat := strided a 128 32
/-- The 1,024 words of a leaf area. -/
def State.areaWords (s : State) (a : Nat) : List W32 := (List.range 1024).map (fun i => BitVec.ofNat 32 (s.sp.mem.readLE (a + 4 * i) 4))
def State.areaBad (s : State) (a : Nat) : Bool := !s.sp.psnLines.isEmpty && (areaLines a).any s.psn
/-- Read a leaf area through ECC. -/
def State.readArea (s : State) (a : Nat) : State := s.readLines (fun l => decide (a ≤ l ∧ l < a + 4096))
/-- Write a leaf area whole. -/
def State.putArea (s : State) (a : Nat) (ws : List W32) (psn : Bool) : State :=
  s.store (ws.zipIdx.map (fun p => ⟨8 * (a + 4 * p.2), 32, p.1.toNat⟩)) (fun _ => psn) (fun _ => false)

/-- A taint of a collective (R479, R484). -/
def State.taint (s : State) (coll : BitVec 16) : State :=
  { s with yd := { s.yd with taintAny := true, taintCount := satAdd s.yd.taintCount 1, taintColl := coll } }

/-! ### The tree (R467 to R469) -/

/-- Two nodes combine: [a, b) and [b, c) are the halves of a complete subtree of R202 over n positions. -/
def joins (n : Nat) (x y : YNode) : Bool :=
  let h := x.span
  decide (y.mlo = x.mlo + h) && (h = 1 || h = 2 || h = 4 || h = 8) && x.mlo % (2 * h) = 0
  && decide (y.mlo + y.span = min (x.mlo + 2 * h) n)

/-- Combine two words (R468). -/
def combWord (wfmt op : Nat) (a b : W32) : W32 × Fl :=
  if wfmt = 11 then
    (if op = 0 then a + b else if op = 1 then (if a.slt b then b else a) else (if b.slt a then b else a), 0)
  else if op = 0 then addOp a b else if op = 1 then maxOp a b else minOp a b

/-- The first pair of nodes that combine. -/
def findJoin (n : Nat) (ns : List YNode) : Option (YNode × YNode) :=
  (ns.flatMap (fun x => (ns.filter (joins n x)).map (fun y => (x, y)))).head?

/-- Form every node whose children are present. -/
def State.formN : Nat → State → Nat → Nat → State
  | 0, s, _, _ => s
  | k + 1, s, i, f =>
    let sl := s.slot i
    let fr := sl.frame f
    match findJoin sl.n fr.nodes with
    | none => s
    | some (x, y) =>
      let ax := s.leafAddr i f x.mlo
      let ay := s.leafAddr i f y.mlo
      let s := (s.readArea ax).readArea ay
      let rs := ((s.areaWords ax).zip (s.areaWords ay)).map (fun p => combWord sl.wfmt.toNat sl.op.toNat p.1 p.2)
      let psn := x.psn || y.psn || s.areaBad ax || s.areaBad ay
      let s := (s.putArea ax (rs.map (·.1)) psn).flag (orFlags (rs.map (·.2)))
      let ns := (fr.nodes.filter (fun z => z ≠ x && z ≠ y)) ++ [⟨x.mlo, x.span + y.span, psn⟩]
      State.formN k (s.setSlot i (sl.setFrame f { fr with nodes := ns })) i f

/-- The chunk is complete when its root is formed; the root's CRC is kept (R467, R478). -/
def State.form (s : State) (i f : Nat) : State :=
  let s := s.formN 16 i f
  let sl := s.slot i
  let fr := sl.frame f
  if fr.crc.isNone && fr.nodes.any (fun x => x.mlo = 0 && x.span = sl.n) then
    let a := s.leafAddr i f 0
    let s := s.readArea a
    let psn := s.areaBad a
    let ns := fr.nodes.map (fun x => { x with psn := x.psn || psn })
    let fr := { fr with nodes := ns, crc := some (crc32c (wordsToBytes (s.areaWords a))), doneAt := s.tickW }
    (s.setSlot i (sl.setFrame f fr)).yardTrace i 3 0 fr.index
  else s

/-! ### Judging a chunk (R463 to R465) -/

/-- The payload widened exactly to 32-bit words (R468). -/
def chunkWords (wfmt : Nat) (payload : List Byte) : List W32 :=
  if wfmt = 1 then
    (bytesToWords payload).flatMap (fun w => [(w.extractLsb' 0 16 ++ 0#16 : BitVec 32), (w.extractLsb' 16 16 ++ 0#16 : BitVec 32)])
  else bytesToWords payload

/-- `yard_accept` up to the CRC: the code that refuses the chunk, or none. -/
def State.chunkCode (s : State) (h : ChunkHdr) : Option Nat :=
  let i := h.slot.toNat
  let sl := s.slot i
  let span := 2 ^ h.lvl.toNat
  let m := h.mlo.toNat
  if !s.slotUsable i || !sl.claimed || h.coll ≠ sl.coll then some 1
  else if h.wfmt ≠ sl.wfmt || decide (sl.nchM1.toNat < h.chunk.toNat) || decide (4 < h.lvl.toNat) || m % span ≠ 0
      || decide (sl.n < m + span) then some 2
  else if sl.table.getD m 0 ≠ h.sender then some 3
  else
    let fr := sl.frame (s.frameOf h.chunk.toNat)
    if h.chunk.toNat < fr.index || (strided m 1 span).any fr.present then some 3 else none

/-- Judge one chunk, which has waited since a tick or arrives now: its answer code, and the leaf or node it sets. -/
def State.judge (s : State) (h : ChunkHdr) (payload : List Byte) (crcOk : Bool) (since : Option W64) : Nat × State :=
  let i := h.slot.toNat
  let info := infoY h.coll.toNat h.chunk.toNat h.sender.toNat i
  match s.chunkCode h with
  | some c => (c, ({ s with yd := { s.yd with refused := satAdd s.yd.refused 1 } }).yardJudged since i 1 h.sender.toNat h.chunk.toNat)
  | none =>
    let f := s.frameOf h.chunk.toNat
    let a := s.leafAddr i f h.mlo.toNat
    let sl := s.slot i
    let fr := sl.frame f
    let fr := { fr with nodes := fr.nodes ++ [⟨h.mlo.toNat, 2 ^ h.lvl.toNat, h.psn || !crcOk⟩] }
    let s := s.setSlot i (sl.setFrame f fr)
    if crcOk then
      let s := { s with yd := { s.yd with accepted := satAdd s.yd.accepted 1 } }
      (0, ((s.yardJudged since i 0 h.sender.toNat h.chunk.toNat).putArea a (chunkWords h.wfmt.toNat payload) h.psn).form i f)
    else
      let s := (areaLines a).foldl (fun s l => s.enterPoison 7 l) s
      let k := s.freeCtr
      let s := { s with freeCtr := k + 4096, yd := { s.yd with crcBad := satAdd s.yd.crcBad 1 }
                        sp := { s.sp with mem := s.sp.mem.writeBytes a ((List.range 4096).map (fun j => Config.freeByte (k + j))) } }
      (5, ((s.yardJudged since i 2 h.sender.toNat h.chunk.toNat).logOnly 0x4005 info).form i f)

/-- A NACK counted by the sender (R439). -/
def State.countNack (s : State) (ans : W64) : State :=
  let c := ans.toNat / 2 ^ 61
  if c = 0 ∨ 5 < c then s
  else { s with xf := { s.xf with
    nackLog := ans
    nacks := s.xf.nacks.set (c - 1) (satAdd (s.xf.nacks.getD (c - 1) 0) 1) } }

/-- The answer to a judged chunk: on its port with its credits, or to the own CONTRIB or FWD (R463, R465). -/
def State.answerChunk (s : State) (own : Option Nat) (port : Nat) (h : ChunkHdr) (payload : List Byte) (code : Nat) : State :=
  match own with
  | some _ => s.countNack (answerWord code 0 s.job.chipId.toNat h.stamp)
  | none => s.answerOn port code 0 h.stamp (chunkCost payload)

/-- An earlier chunk holds the chunk's frame, whatever its number (R464). -/
def State.mustHold (s : State) (h : ChunkHdr) : Bool :=
  let sl := s.slot h.slot.toNat
  s.slotUsable h.slot.toNat && sl.claimed && h.coll = sl.coll
  && decide ((sl.frame (s.frameOf h.chunk.toNat)).index < h.chunk.toNat)

/-- The chunk is one to store, in lines that the scrub has not reached (09 R402). -/
def State.scrubChunk (s : State) (h : ChunkHdr) : Bool :=
  s.sp.scrubRun && (s.chunkCode h).isNone
  && (let a := s.leafAddr h.slot.toNat (s.frameOf h.chunk.toNat) h.mlo.toNat
      s.scrubRange a (a + 4096))

/-- A chunk that arrives now, or has waited since a tick, is held, waits for the scrub, or is judged and answered. `own` names the
CONTRIB or FWD of the own chip that sends it. -/
def State.arrive (s : State) (own : Option Nat) (port : Nat) (h : ChunkHdr) (payload : List Byte) (since : Option W64) : State :=
  let at_ := since.getD s.tickW
  if s.mustHold h then
    { s.yardKept since with yd := { s.yd with held := s.yd.held ++ [⟨own, port, h, payload, at_, s.yd.claimTicks.toNat⟩] } }
  else if s.scrubChunk h then
    { s.yardKept since with xf := { s.xf with parked := s.xf.parked ++ [.chunk own port h payload at_] } }
  else
    let (c, s) := s.judge h payload (own.isSome || h.crc = chunkHdrCrc h payload) since
    s.answerChunk own port h payload c

/-- A chunk was held for its limit (R464): code 2, and 0x4003 at the oldest COLLECT, FWD or RELEASE of the slot in flight, or
logged and pending. -/
def State.holdLate (s : State) (x : HeldChunk) : State :=
  let i := x.hdr.slot.toNat
  let info := infoY x.hdr.coll.toNat x.hdr.chunk.toNat x.hdr.sender.toNat i
  let s := ({ s with yd := { s.yd with refused := satAdd s.yd.refused 1 } }).yardJudged (some x.since) i 1 x.hdr.sender.toNat x.hdr.chunk.toNat
  let s := s.answerChunk x.owner x.port x.hdr x.payload 2
  match s.fl.find? (fun f => f.q.w.opc = 0x58 && decide (2 ≤ f.q.w.fn.toNat) && f.q.w.ys = x.hdr.slot) with
  | some f => s.raiseHalt f.q.seq f.q.pc 0x4003 info
  | none => (s.logOnly 0x4003 info).setSlot i { s.slot i with pend := some info }

/-- Judge the first held chunk that `sel` names and its frame now serves; at its limit or after it is late (R464, R527). -/
def State.releaseOne (s : State) (sel : HeldChunk → Bool) : State :=
  match s.yd.held.findIdx? (fun x => sel x && !s.mustHold x.hdr) with
  | none => s
  | some i =>
    match s.yd.held[i]? with
    | none => s
    | some x =>
      let s := { s with yd := { s.yd with held := s.yd.held.eraseIdx i } }
      if x.since.toNat + x.limit ≤ s.now then s.holdLate x else s.arrive x.owner x.port x.hdr x.payload (some x.since)

/-! ### Consumer reads (R477 to R479) -/

/-- Append an entry to the yard log. -/
def Yard.append (y : Yard) (e : YLog) : Yard := if 64 ≤ y.log.length then { y with ovf := true } else { y with log := y.log ++ [e] }

/-- A chunk is found corrupt (R479). -/
def State.corrupt (s : State) (i f : Nat) : State :=
  let sl := s.slot i
  let fr := sl.frame f
  let s := (areaLines (s.leafAddr i f 0)).foldl (fun s l => s.enterPoison 8 l) s
  let y := (fr.reads.take 16).foldl (fun y r =>
    y.append ⟨sl.coll, BitVec.ofNat 20 fr.index, r.chip, BitVec.ofNat 8 i, r.stamp⟩) s.yd
  let s := { s with yd := { y with ovf := y.ovf || decide (16 < fr.reads.length) } }
  let s := s.setSlot i { sl.setFrame f { fr with corrupt := true } with tainted := true }
  ((s.yardTrace i 5 0 fr.index).taint sl.coll).logOnly 0x4005
    (infoY sl.coll.toNat fr.index s.job.chipId.toNat i)

/-- Check a complete chunk: an uncorrectable line or a CRC that differs finds it corrupt (R478). -/
def State.checkRoot (s : State) (i f : Nat) : State :=
  let a := s.leafAddr i f 0
  let worn := s.sp.decay.any (fun d => d.2 && decide (a ≤ d.1 ∧ d.1 < a + 4096))
  let s := s.readArea a
  let fr := (s.slot i).frame f
  if !fr.corrupt && (worn || some (crc32c (wordsToBytes (s.areaWords a))) ≠ fr.crc) then s.corrupt i f else s

/-- A consumer read of the complete chunk of frame `f`: its root's words and poison. -/
def State.consume (s : State) (i f chip : Nat) : (List W32 × Bool) × State :=
  let sl := s.slot i
  let fr := sl.frame f
  let reads := if fr.reads.length ≤ 16 then fr.reads ++ [⟨BitVec.ofNat 12 chip, s.stamp40⟩] else fr.reads
  let s := ((s.setSlot i (sl.setFrame f { fr with reads := reads })).yardTrace i 4 chip fr.index).checkRoot i f
  let a := s.leafAddr i f 0
  let fr := (s.slot i).frame f
  ((s.areaWords a, fr.corrupt || s.areaBad a || fr.nodes.any (·.psn)), s)

/-- The frame of a chunk is free for chunk c + F (R475). -/
def State.retire (s : State) (i f : Nat) : State :=
  let sl := s.slot i
  s.setSlot i (sl.setFrame f (Frame.fresh ((sl.frame f).index + s.yardFrames)))

/-! ### Fields of T.YARD (Table 11.2) -/

def yColl (w : InsWord) : BitVec 16 := w.imm32.extractLsb' 16 16
def yMlo (w : InsWord) : BitVec 4 := w.imm32.extractLsb' 12 4
def yTarget (w : InsWord) : Nat := bitsOf w.imm32.toNat 0 12
/-- pmask: AUX64[47:40] of CONTRIB and FWD. -/
def yMask (w : InsWord) : List Nat := (List.range 8).filter (fun i => bitOf w.aux64.toNat (40 + i))
def yK (w : InsWord) : Nat := bitsOf w.aux64.toNat 20 20 + 1
def yLvl (w : InsWord) : Nat := bitsOf w.aux64.toNat 53 3
def yTslot (w : InsWord) : Nat := bitsOf w.aux64.toNat 56 8
def isFwd (w : InsWord) : Bool := w.fn = 4
def yRetire (w : InsWord) : Bool := if isFwd w then bitOf w.aux64.toNat 48 else bitOf w.imm32.toNat 9

/-- The chip that receives the data of a COLLECT or FWD. -/
def State.consumer (s : State) (q : QEntry) : Nat :=
  if isFwd q.w then yTarget q.w else if q.dst.region = some .remote then q.dst.chip else s.job.chipId.toNat

/-- The port of the i-th chunk to a chip. -/
def State.chunkPort (s : State) (w : InsWord) (chip i : Nat) : Nat :=
  if chip = s.job.chipId.toNat ^^^ 1 then 30 else let ps := yMask w; 22 + ps.getD (i % ps.length) 0

/-- Send one chunk of a CONTRIB or FWD, the i-th (R462, R476). -/
def State.sendChunk (s : State) (q : QEntry) (i c slot lvl wfmt : Nat) (psn : Bool) (payload : List Byte) : State :=
  let w := q.w
  let h : ChunkHdr := ⟨BitVec.ofNat 20 c, BitVec.ofNat 8 slot, yMlo w, BitVec.ofNat 3 lvl, psn, BitVec.ofNat 4 wfmt, yColl w,
    s.job.chipId, s.stamp40, 0, 0⟩
  if yTarget w = s.job.chipId.toNat then s.arrive (some q.seq) 35 h payload none
  else s.send (s.chunkPort w (yTarget w) i) (some q.seq) (.chunk h payload)

/-! ### COLLECT and FWD, chunk by chunk (R471 to R476, R489) -/

/-- The destination's elements of the j-th chunk and its root words. -/
def chunkElems (d : Desc) (j : Nat) (ws : List Nat) : List (Ix × Nat) := ((d.ixs.drop (1024 * j)).take 1024).zip ws

/-- Round a chunk's root words, read under FTZ, into DFMT (R116, R472). -/
def State.collElems (s : State) (q : QEntry) (j : Nat) (ws : List Nat) : List (Ix × Nat) × Fl :=
  let rs := (chunkElems q.dst j ws).map (fun p =>
    (p.1, if q.w.dfmt.toNat = 11 then (p.2, 0) else s.placeAt q q.dst p.1 (ofF32z q.w.ftz (BitVec.ofNat 32 p.2))))
  (rs.map (fun r => (r.1, r.2.1)), orFlags (rs.map (fun r => r.2.2)))

/-- The tiles that hold an element of a poisoned chunk. -/
def collBad (d : Desc) (bad : List Nat) : List Tile :=
  badTiles d (bad.flatMap (fun j => (d.ixs.drop (1024 * j)).take 1024))

/-- A line that the j-th chunk writes keeps its old bit as well (R357, R522): a later chunk is still to write elements of it, or an
uncorrectable error has come into words that earlier chunks had written. -/
def State.collKeeps (s : State) (d : Desc) (j l : Nat) : Bool :=
  (d.ixs.drop (1024 * (j + 1))).any (fun x => (d.elemLines x).contains l)
  || s.sp.decay.any (fun e => e.2 && decide (lineOf e.1 = l)
      && (d.ixs.take (1024 * j)).any (fun x => decide (0 < (d.bitW x 0).overlap (8 * e.1) (8 * e.1 + 64))))

/-- Write the j-th chunk into a scratchpad destination: a line takes its tile's bit with the chunk that ends it. -/
def State.collStore (s : State) (q : QEntry) (j : Nat) (ws : List Nat) (bad : List Nat) : State :=
  let (es, f) := s.collElems q j ws
  let badLines := if q.w.poisonOk then [] else (collBad q.dst bad).flatMap q.dst.tileLines
  (s.store (es.map (fun p => q.dst.bitW p.1 p.2)) badLines.contains (fun l => !q.w.poisonOk && s.collKeeps q.dst j l)).flag f

/-- Send the lines of a remote destination whose last element lies in the j-th chunk (R411, R422, R471). -/
def State.collSend (s : State) (q : QEntry) (j : Nat) (c : CollProg) : State × CollProg :=
  let d := q.dst
  let rs := c.vals.map (fun v => s.collElems q v.1 v.2)
  let bws := rs.flatMap (fun r => r.1.map (fun p => d.bitW p.1 p.2))
  let last := d.ixs.zipIdx.foldl (fun (m : AL Nat) p =>
    (d.elemLines p.1).foldl (fun m l => AL.put m l (p.2 / 1024)) m) []
  let lines := (last.filter (fun p => p.2 = j)).map (·.1)
  let badLines := if q.w.poisonOk then [] else (collBad d (c.bad.map (·.1))).flatMap d.tileLines
  let runs := remoteRuns bws
  let s := lines.zipIdx.foldl (fun s p =>
    (runs.filter (fun r => lineOf r.1 = p.1)).foldl (fun s r =>
      s.send (s.linePort q p.1 (c.sent + p.2)) (some q.seq) (s.rwriteMsg (badLines.contains p.1) r.1 r.2)) s) s
  (s, { c with sent := c.sent + lines.length })

/-- The lines of the poisoned tiles of a scratchpad destination that earlier chunks have written take the bit too (R357, R489). -/
def State.collMarks (s : State) (q : QEntry) (c : CollProg) : State :=
  let d := q.dst
  let bad := if q.w.poisonOk || c.bad.isEmpty then [] else (collBad d (c.bad.map (·.1))).flatMap d.tileLines
  let lines := if bad.isEmpty then [] else ((d.ixs.flatMap d.elemLines).filter bad.contains).foldl insNat []
  { s with sp := lines.foldl (fun sp l => sp.setPsn l true) s.sp }

/-- The chunk results that a COLLECT or FWD with COMMIT = 1 has read: the first line of their roots that an error has reached since
(R525), and its chunk. -/
def State.collSpoilt (s : State) (q : QEntry) (c : CollProg) : Option (Nat × Nat) :=
  let spoilt := s.sp.spoil.map lineOf
  (c.vals.filterMap (fun v =>
    ((areaLines (s.leafAddr q.w.ys.toNat (s.frameOf (yC0 q.w + v.1)) 0)).find? spoilt.contains).map (fun l => (v.1, l)))).head?

/-- Send the j-th chunk that a FWD has read (R476, R488). -/
def State.fwdSend (s : State) (q : QEntry) (j : Nat) (ws : List W32) (psn : Bool) : State :=
  s.sendChunk q j (yC0 q.w + j) (yTslot q.w) (yLvl q.w) (if (s.slot q.w.ys.toNat).wfmt = 11 then 11 else 0) psn (wordsToBytes ws)

/-- The last chunk has been read. A FWD with COMMIT = 1 sends what it has read once none is poisoned (R524, log 49), and an error
that has reached a root since stops the data pass (R525), in which a FWD writes no line. -/
def State.collEnd (s : State) (q : QEntry) (c : CollProg) : State :=
  let w := q.w
  let remote := q.dst.region = some .remote
  match (if w.commit then c.bad.head? else none : Option (Nat × Nat)) with
  | some (_, a) => s.raiseHalt q.seq q.pc 0x5001 (infoA false 9 w.ys.toNat a)
  | none =>
  match (if w.commit then s.collSpoilt q c else none : Option (Nat × Nat)) with
  | some (j, l) =>
    if isFwd w then s.dataPassFails q id [] 9 w.ys.toNat l
    else s.dataPassFails q (fun s => (c.vals.foldl (fun s v => s.collStore q v.1 v.2 [j]) s).collMarks q { c with bad := [(j, l)] })
      (when q.dst.inSpad q.oDst) 9 w.ys.toNat l
  | none =>
    if isFwd w then
      c.vals.foldl (fun s v => s.fwdSend q v.1 (v.2.map (BitVec.ofNat 32)) false) (s.setProg q.seq .idle)
    else
    let s := if !w.commit then s
      else if remote then
        let s := s.flag (orFlags (c.vals.map (fun v => (s.collElems q v.1 v.2).2)))
        ((List.range c.count).foldl (fun (r : State × CollProg) j => r.1.collSend q j r.2) (s, c)).1
      else c.vals.foldl (fun s v => s.collStore q v.1 v.2 (c.bad.map (·.1))) s
    let s := if remote then s else s.collMarks q c
    s.setProg q.seq .idle

/-- The chunk that a COLLECT or FWD waits for is complete: read it, use it, retire it. -/
def State.collRead (s : State) (q : QEntry) (c : CollProg) (f : Nat) : State :=
  let w := q.w
  let i := w.ys.toNat
  let j := c.next
  let fr := (s.slot i).frame f
  let a := s.leafAddr i f 0
  let ((ws, psn), s) := s.consume i f (s.consumer q)
  let bad := (areaLines a).filter s.psn
  let s := if w.poisonOk then s.noteOkReads q bad.length else s
  let s := if yRetire w then s.retire i f else s
  let c := { c with next := j + 1, since := if fr.doneAt.toNat < c.since.toNat then c.since else fr.doneAt
                    limit := s.yd.waitTicks.toNat
                    bad := if psn then c.bad ++ [(j, bad.headD a)] else c.bad }
  if isFwd w && !w.commit then
    (s.setProg q.seq (if c.next = c.count then .idle else .coll c)).fwdSend q j ws (psn && !w.poisonOk)
  else
    let vs := ws.map (·.toNat)
    let remote := q.dst.region = some .remote
    let (s, c) :=
      if w.commit then (s, { c with vals := c.vals ++ [(j, vs)] })
      else if remote then
        let c := { c with vals := c.vals ++ [(j, vs)] }
        (s.flag (s.collElems q j vs).2).collSend q j c
      else (s.collStore q j vs (c.bad.map (·.1)), c)
    if c.next = c.count then s.collEnd q c else s.setProg q.seq (.coll c)

/-- The tick at which the wait of a COLLECT or FWD ends (R473). -/
def CollProg.due (c : CollProg) : Nat := c.since.toNat + c.limit

/-- 0x4004 at a COLLECT or FWD. -/
def State.chunkLate (s : State) (q : QEntry) (c : CollProg) : State :=
  s.raiseHalt q.seq q.pc 0x4004
    (infoY (s.slot q.w.ys.toNat).coll.toNat (yC0 q.w + c.next) (s.consumer q) q.w.ys.toNat)

/-- Take the slot (R458). -/
def State.claimSlot (s : State) (q : QEntry) : State :=
  let w := q.w
  let n := q.sa.n 0
  let tab := (List.range n).map (fun i => BitVec.ofNat 12 (s.raw q.sa ⟨i, 0, 0, 0⟩))
  (s.setSlot w.ys.toNat ⟨true, yColl w, n, tab, yMlo w, w.imm32.extractLsb' 8 4, w.imm32.extractLsb' 6 2,
    w.aux64.extractLsb' 0 20, (List.range s.yardFrames).map Frame.fresh, false, none⟩).setProg q.seq .idle

/-- 0x4003 at a CLAIM (R457). -/
def State.claimLate (s : State) (q : QEntry) : State :=
  s.raiseHalt q.seq q.pc 0x4003 (infoY (yColl q.w).toNat 0 s.job.chipId.toNat q.w.ys.toNat)

/-- The lines of a scratchpad destination that reading the next chunk writes: its own, and those of the chunks kept until the last of a
COMMIT. -/
def collNext (q : QEntry) (c : CollProg) : List Nat :=
  if isFwd q.w || !q.dst.inSpad then []
  else if q.w.commit then (if c.next + 1 = c.count then q.dst.linesOf q.dst.ixs else [])
  else q.dst.linesOf ((q.dst.ixs.drop (1024 * c.next)).take 1024)

/-- One step of what waits for the yard: a held chunk that its frame now serves (R464), a CLAIM whose slot is free, a COLLECT or
FWD whose chunk is complete (late if it came at the limit or after, R527). A COLLECT reads its chunk once the scrub has passed
the lines that it then writes, the model's choice (09 R402, log 95). -/
def State.yardStep (s : State) : Option State :=
  if s.yd.held.any (fun x => !s.mustHold x.hdr) then some (s.releaseOne (fun _ => true))
  else (s.fl.filterMap (fun f => match f.prog with
    | .claim since limit => if (s.slot f.q.w.ys.toNat).claimed then none
        else some (if since.toNat + limit ≤ s.now then s.claimLate f.q else s.claimSlot f.q)
    | .coll c => (s.chunkReady f.q c).bind (fun k =>
        if c.due ≤ ((s.slot f.q.w.ys.toNat).frame k).doneAt.toNat then some (s.chunkLate f.q c)
        else if s.scrubLines (collNext f.q c) then none else some (s.collRead f.q c k))
    | _ => none)).head?

def State.yardN : Nat → State → State
  | 0, s => s
  | k + 1, s => match s.yardStep with
    | none => s
    | some s => State.yardN k s

/-- Steps that can be left: held chunks and chunks to read. -/
def State.yardFuel (s : State) : Nat :=
  2 * (s.yd.held.length + s.fl.length + (s.fl.map (fun f => match f.prog with | .coll c => c.count - c.next | _ => 0)).sum)

/-- Let everything that waits for the yard go on. -/
def State.yardSettle (s : State) : State := s.yardN s.yardFuel

/-! ### T.YARD at head of issue (R453, R454, Table 11.7) -/

/-- R453 and R543 for a target chip. -/
def State.maskBad (s : State) (mask : List Nat) (remote : Bool) (chip : Nat) : Bool :=
  !mask.isEmpty != (remote && chip ≠ s.job.chipId.toNat ^^^ 1)
def State.maskPorts (s : State) (mask : List Nat) (remote : Bool) (chip : Nat) : List Flt :=
  if !remote then [] else if chip = s.job.chipId.toNat ^^^ 1 then s.needPort 30
  else mask.flatMap (fun i => s.needPort (22 + i))

/-- A wire format (R453). -/
def wireOk (c : Nat) : Bool := c = 0 || c = 1 || c = 11

/-- A slot with a frame in a district out of service (R380, R543): the first such frame's address. -/
def State.slotDistrict (s : State) (i : Nat) : List Flt :=
  if !s.svc.limp || !s.slotUsable i then []
  else ((((List.range s.yardFrames).map (fun f => s.leafAddr i f 0)).filter (fun a => !s.districtOk (a / 2 ^ 22))).take 1).map
    (fun a => (0x2004, infoA false 9 i a))

def clearYard (w : InsWord) : InsWord := { clearCommon w with ys := 0, imm32 := 0, aux64 := 0 }

def claimChk (q : QEntry) (s : State) : List Flt :=
  let w := q.w
  illegal w (badBits w || decide (4 < w.fn.toNat) || unused { clearYard w with sa := 0, sfmt := 0 }
    || bitsOf w.imm32.toNat 0 6 ≠ 0 || bitsOf w.imm32.toNat 6 2 = 3 || w.aux64.toNat / 2 ^ 20 ≠ 0
    || !wireOk (bitsOf w.imm32.toNat 8 4))
  ++ badShape w (w.sfmt ≠ q.sa.format || w.sfmt ≠ 11 || q.sa.layout ≠ 0 || q.sa.rk ≠ 1 || decide (16 < q.sa.n 0))
  ++ s.checkOpnd w [.spad] q.oSa ++ s.slotDistrict w.ys.toNat

def contribChk (q : QEntry) (s : State) : List Flt :=
  let w := q.w
  let remote := yTarget w ≠ s.job.chipId.toNat
  illegal w (badBits w || unused { clearYard w with sa := 0, sfmt := 0 } || bitsOf w.aux64.toNat 20 20 ≠ 0
    || bitsOf w.aux64.toNat 48 16 ≠ 0 || s.maskBad (yMask w) remote (yTarget w))
  ++ badShape w (w.sfmt ≠ q.sa.format || !wireOk w.sfmt.toNat || q.sa.layout ≠ 0)
  ++ s.checkOpnd w [.spad] q.oSa ++ s.maskPorts (yMask w) remote (yTarget w)
  ++ (if remote then [] else s.slotDistrict w.ys.toNat)

def collectChk (q : QEntry) (s : State) : List Flt :=
  let w := q.w
  let d := q.dst
  let remote := d.region = some .remote
  let own := remote && d.chip = s.job.chipId.toNat
  let base := { clearYard w with dst := 0, dfmt := 0, rnd := 0, sat := false, ftz := false }
  illegal w (badBits w || unused base || bitsOf w.imm32.toNat 10 22 ≠ 0 || bitOf w.imm32.toNat 8
    || w.aux64.toNat / 2 ^ 20 ≠ 0 || s.maskBad (xferMask w) remote d.chip
    || (w.dfmt.toNat = 11 && (w.rnd ≠ 0 || w.sat || w.ftz)))
  ++ badShape w (w.dfmt ≠ d.format || !(w.dfmt.toNat ≤ 2 || w.dfmt.toNat = 11) || d.layout ≠ 0)
  ++ s.checkOpnd w [.spad, .remote] q.oDst
  ++ (if own then [(0x2001, infoA false 0 w.dst.toNat d.at_)] else [])
  ++ s.maskPorts (xferMask w) remote d.chip ++ s.slotDistrict w.ys.toNat

def yPost (w : InsWord) : Bool := bitOf w.imm32.toNat 8

def releaseChk (q : QEntry) (s : State) : List Flt :=
  let w := q.w
  illegal w (badBits w || unused { clearCommon w with ys := 0, imm32 := 0 } || bitsOf w.imm32.toNat 9 23 ≠ 0)
  ++ (if yPost w then s.needTrig else []) ++ s.slotDistrict w.ys.toNat

def fwdChk (q : QEntry) (s : State) : List Flt :=
  let w := q.w
  let remote := yTarget w ≠ s.job.chipId.toNat
  illegal w (badBits w || unused (clearYard w) || bitsOf w.aux64.toNat 49 4 ≠ 0 || s.maskBad (yMask w) remote (yTarget w))
  ++ s.maskPorts (yMask w) remote (yTarget w) ++ s.slotDistrict w.ys.toNat

/-! ### Start checks (R518) -/

/-- R458: the slot named by YS is usable. -/
def State.slotChk (s : State) (w : InsWord) (coll : Nat) : List Flt :=
  if s.slotUsable w.ys.toNat then [] else [(0x4001, infoY coll 0 s.job.chipId.toNat w.ys.toNat)]
/-- R459 and the pending 0x4003 of R464. -/
def State.claimedChk (s : State) (w : InsWord) (coll : Nat) : List Flt :=
  let sl := s.slot w.ys.toNat
  (if sl.claimed then [] else [(0x4001, infoY coll 0 s.job.chipId.toNat w.ys.toNat)])
  ++ (match sl.pend with | some i => [(0x4003, i)] | none => [])

/-- R456. An entry whose bits [31:12] are not zero is no valid one, the model's choice: the list of R456 does not name it (log 110). -/
def State.tableBad (s : State) (q : QEntry) : Bool :=
  let n := q.sa.n 0
  let es := (List.range n).map (fun i => s.raw q.sa ⟨i, 0, 0, 0⟩)
  es.any (fun e => decide (4096 ≤ e)) || es.eraseDups.length ≠ n || decide (n ≤ (yMlo q.w).toNat)
  || es.getD (yMlo q.w).toNat 0 ≠ s.job.chipId.toNat

/-- A RELEASE of the same slot is in flight (R455, R480); the YS of a CONTRIB to another chip names a slot of that chip. -/
def State.slotBusy (s : State) (q : QEntry) : Bool :=
  !(q.w.fn = 1 && yTarget q.w ≠ s.job.chipId.toNat)
  && s.fl.any (fun f => f.q.w.opc = 0x58 && f.q.w.fn = 3 && f.q.w.ys = q.w.ys)

/-- A start clears the pending 0x4003 that it has raised (R464): the fault itself halts the job, and LAUNCH clears the slot. -/
def yardOp (srcs outs : QEntry → List Opnd) (chk : QEntry → State → List Flt) (run : QEntry → State → State) : TOp :=
  { plainOp srcs outs (fun q s => (run q s).yardSettle) with startChk := chk, hold := fun q s => s.slotBusy q }

/-! ### The instructions -/

/-- CLAIM (R456 to R458). -/
def claimRun (q : QEntry) (s : State) : State :=
  if (s.slot q.w.ys.toNat).claimed then s.setProg q.seq (.claim s.tickW s.yd.claimTicks.toNat) else s.claimSlot q
def claimOp : TOp := yardOp (fun q => [q.oSa]) (fun _ => [])
  (fun q s => s.slotChk q.w (yColl q.w).toNat
    ++ (if s.tableBad q then [(0x4002, infoY (yColl q.w).toNat 0 s.job.chipId.toNat q.w.ys.toNat)] else [])) claimRun
def execClaim (w : InsWord) (s : State) : Out := tensorRow (.claim w) w s [] claimChk claimOp

/-- The payload of the j-th chunk of a contribution (R460, R462). -/
def State.contribPayload (s : State) (d : Desc) (j : Nat) : List Byte :=
  let n := d.w / 8
  let es := ((d.ixs.drop (1024 * j)).take 1024).map (s.raw d)
  (es ++ List.replicate (1024 - es.length) 0).flatMap (leBytes n)

/-- CONTRIB (R462, R488). -/
def contribRun (q : QEntry) (s : State) : State :=
  let d := q.sa
  (List.range (cdiv d.count 1024)).foldl (fun t j =>
    let psn := !q.w.poisonOk && !s.sp.psnLines.isEmpty
      && ((d.ixs.drop (1024 * j)).take 1024).any (fun x => (d.elemLines x).any s.psn)
    t.sendChunk q j (yC0 q.w + j) q.w.ys.toNat 0 q.w.sfmt.toNat psn (s.contribPayload d j)) s
def contribOp : TOp := yardOp (fun q => [q.oSa]) (fun _ => []) (fun q s => s.slotChk q.w (yColl q.w).toNat) contribRun
def execContrib (w : InsWord) (s : State) : Out := tensorRow (.contrib w) w s [] contribChk contribOp

/-- COLLECT (R471 to R475). -/
def collectRun (q : QEntry) (s : State) : State :=
  s.setProg q.seq (.coll ⟨0, cdiv q.dst.count 1024, s.tickW, s.yd.waitTicks.toNat, [], [], 0⟩)
def collectOp : TOp :=
  { yardOp (fun _ => []) (fun q => when q.dst.inSpad q.oDst)
      (fun q s => s.slotChk q.w 0 ++ s.claimedChk q.w 0
        ++ badShape q.w (decide ((s.slot q.w.ys.toNat).wfmt = 11) != decide (q.w.dfmt = 11))) collectRun with
    ownCommit := true, writes := fun _ _ => [] }
def execCollect (w : InsWord) (s : State) : Out := tensorRow (.collect w) w s [] collectChk collectOp

/-- The seal word of a slot (R480). -/
def sealWord (x : Slot) : W64 := BitVec.ofNat 64 (x.coll.toNat + if x.tainted then 65536 else 0)

/-- RELEASE (R480): check, free, post. -/
def releaseRun (q : QEntry) (s : State) : State :=
  let i := q.w.ys.toNat
  let s := (List.range s.yardFrames).foldl (fun s f =>
    let fr := (s.slot i).frame f
    if fr.crc.isSome && !fr.corrupt then s.checkRoot i f else s) s
  let word := sealWord (s.slot i)
  let s := s.setSlot i Slot.free
  if yPost q.w then s.handOver (some q.seq) (BitVec.ofNat 8 q.w.imm32.toNat) word else s
def releaseOp : TOp :=
  { yardOp (fun _ => []) (fun _ => []) (fun q s => s.slotChk q.w 0 ++ s.claimedChk q.w 0) releaseRun with
    hold := fun _ s => !s.fl.isEmpty }
def execRelease (w : InsWord) (s : State) : Out := tensorRow (.release w) w s [] releaseChk releaseOp

/-- FWD (R476). -/
def fwdRun (q : QEntry) (s : State) : State :=
  s.setProg q.seq (.coll ⟨0, yK q.w, s.tickW, s.yd.waitTicks.toNat, [], [], 0⟩)
def fwdOp : TOp := { yardOp (fun _ => []) (fun _ => [])
  (fun q s => s.slotChk q.w (yColl q.w).toNat ++ s.claimedChk q.w (yColl q.w).toNat
    ++ (if s.slotUsable (yTslot q.w) && (s.slot q.w.ys.toNat).n = 2 ^ yLvl q.w then []
        else [(0x4001, infoY (yColl q.w).toNat (yC0 q.w) (yTarget q.w) q.w.ys.toNat)])) fwdRun with ownCommit := true }
def execFwd (w : InsWord) (s : State) : Out := tensorRow (.fwd w) w s [] fwdChk fwdOp

/-! ### Arrivals -/

/-- The payload length that a wire format gives; another length does not match the type (R619). -/
def chunkLen (wfmt : Nat) : Nat := if wfmt = 1 then 2048 else 4096

/-- A CHUNK message (R463, R464): chunks held before it at a port come first. -/
def State.chunkArrives (s : State) (p : Nat) (h : ChunkHdr) (payload : List Byte) : State :=
  if payload.length ≠ chunkLen h.wfmt.toNat then s.dropMsg p 2
  else s.receive p [.net, .peer] (chunkCost payload) (fun s =>
    ((s.yd.held.length).repeat (fun s => s.releaseOne (·.owner.isNone)) s |>.arrive none p h payload none).yardSettle)

/-- A chunk held at a port is judged once its frame serves its index (R464). -/
def execChunkHoldRelease (port : Fin 35) (s : State) : Out :=
  .next (s.releaseOne (fun x => x.owner.isNone && x.port = port.val)).yardSettle

/-! ### Answers (R423, R439, R440, R443) -/

/-- The request that an answer belongs to: the oldest on its port to the answering chip with its stamp, and its window for a write. -/
def answers (p : Nat) (a : W64) (r : Req) : Bool :=
  let st : BitVec 40 := a.extractLsb' 0 40
  let from_ := bitsOf a.toNat 44 12
  decide (r.port = p) && (match r.kind with
    | .write w c t _ => decide (t = st ∧ c = from_ ∧ w = bitsOf a.toNat 56 5)
    | .chunk c t => decide (t = st ∧ c = from_)
    | _ => false)

/-- An ANSWER: unsolicited or with an unused code it is dropped (Table 14.6); a NACK is counted and may raise 0x3003 at a
T.XFER in flight; after a KILL answers are discarded, and the fault of a T.XFER that the KILL abandoned is only counted (R517, R536). -/
def State.answerArrives (s : State) (p : Nat) (a : W64) : State :=
  let code := a.toNat / 2 ^ 61
  match (if 5 < code then none else s.reqs.findIdx? (answers p a) : Option Nat) with
  | none => s.logOnly 0x6007 (infoP p s.now)
  | some i =>
    match s.reqs[i]? with
    | none => s
    | some r =>
      let s := s.dropReq i
      if s.job.kill.isSome then
        if code ≠ 0 && s.xf.nackHalt && r.owner.any s.killed && (match r.kind with | .write _ _ _ xfer => xfer | _ => false) then s.suppress
        else s
      else
        let s := s.countNack a
        if code = 0 || !s.xf.nackHalt then s
        else match s.fl.find? (fun f => some f.q.seq = r.owner && f.q.w.opc = 0x48) with
          | some f => s.raiseHalt f.q.seq f.q.pc 0x3003 a
          | none => s

end Sys2Proof.Machine
end

