-- ==== Sys2Proof/Machine/Win.lean ====
section
/-! DEFINITION. T.WIN, T.WAITT, T.MARK and T.SPAD (10 R424 to R431; 02 R81, R82, R636; 09 R390 to R399, 17 R611). -/

namespace Sys2Proof.Machine

/-- The fields that control instructions of this file may use, cleared: OVL, TMARK, START40 and IMM32. -/
def clearCtl (w : InsWord) : InsWord :=
  { w with opc := 0, fn := 0, ovl := false, tmark := false, start40 := 0, imm32 := 0 }

/-! ### T.WIN at head of issue (Table 10.8, R427) -/

def wWin (w : InsWord) : Nat := bitsOf w.imm32.toNat 0 5
def wClose40 (w : InsWord) : W64 := (w.aux64.extractLsb' 0 40).setWidth 64
def wSndLo (w : InsWord) : BitVec 12 := w.aux64.extractLsb' 40 12
def wSndHi (w : InsWord) : BitVec 12 := w.aux64.extractLsb' 52 12

def openChk (q : QEntry) (s : State) : List Flt :=
  let w := q.w
  let d := q.dst
  illegal w (decide (3 < w.fn.toNat) || unused { clearCtl w with dst := 0, dfmt := 0, aux64 := 0 }
    || bitOf w.imm32.toNat 7 || w.ovl || decide ((wSndHi w).toNat < (wSndLo w).toNat))
  ++ badShape w (w.dfmt ≠ d.format || d.fmt ≠ 11 || d.layout ≠ 0 || d.rk ≠ 2 || d.n 0 ≠ 32 || d.pitch 1 ≠ 32)
  ++ s.checkOpnd w [.spad] q.oDst
  ++ (if d.at_ % 128 = 0 then [] else [(0x2002, infoA false 0 w.dst.toNat d.at_)])

/-- CLOSE, EXPECT and WAITCL: IMM32 names the window; AUX64 is EXPECT's count. -/
def winChk (q : QEntry) (_ : State) : List Flt :=
  let w := q.w
  let base := if w.fn = 2 then { clearCtl w with aux64 := 0 } else clearCtl w
  illegal w (unused base || w.imm32.toNat / 32 ≠ 0)

/-! ### T.WIN at its start -/

/-- A class of instruction that names no operand in the scratchpad. -/
def ctlOp (chk : QEntry → State → List Flt) (hold : QEntry → State → Bool) (run : QEntry → State → State) : TOp :=
  { plainOp (fun _ => []) (fun _ => []) run with startChk := chk, hold := hold }

/-- It starts only once every earlier instruction has completed. -/
def holdAll (_ : QEntry) (s : State) : Bool := !s.fl.isEmpty

/-- OPEN's close tick, NONE without a scheduled close; TT_EPOCH as it stands at the start (R428). -/
def State.openClose (s : State) (w : InsWord) : W64 := if wClose40 w = 0 then none64 else s.sb.epoch + wClose40 w

/-- R428's checks. -/
def openStart (q : QEntry) (s : State) : List Flt :=
  let w := q.w
  let d := q.dst
  let off := (d.groups.find? (fun g => !s.groupOn g)).map (fun g => (0x2004, infoA false 0 w.dst.toNat (d.firstIn g)))
  let clash := (List.range Config.windows).any (fun i =>
    let x := s.window i
    decide (i ≠ wWin w) && x.live s.now && x.overlaps d.at_ d.hi)
  off.toList ++ (if (s.window (wWin w)).state s.now ≠ 0 || clash
      || (wClose40 w ≠ 0 && decide ((s.openClose w).toNat ≤ s.now)) then [(0x3001, infoW 0 (wWin w))] else [])

/-- A WIN_EVENT record of a window that traces. -/
def State.winEvent (s : State) (i kind : Nat) : State :=
  if (s.window i).trace then s.trace 5 (i * 2 ^ 55 + kind * 2 ^ 53) else s

/-- OPEN (R428). -/
def openRun (q : QEntry) (s : State) : State :=
  let w := q.w
  let d := q.dst
  let i := wWin w
  let x := s.window i
  let drain : BitVec 24 := w.imm32.extractLsb' 8 24
  (s.setWindow i { x with
    sndHi := wSndHi w, sndLo := wSndLo w, drain := if drain = 0 then s.xf.drain else drain
    trace := bitOf w.imm32.toNat 6, psnOk := bitOf w.imm32.toNat 5
    linesM1 := BitVec.ofNat 20 (d.n 1 - 1), base := BitVec.ofNat 29 d.at_
    openTs := s.tickW, closeTs := s.openClose w
    expected := 0, received := 0, psnBytes := 0, rejBytes := 0, nackCount := 0 }).winEvent i 0
def openOp : TOp := ctlOp openStart holdAll openRun
def execWinOpen (w : InsWord) (s : State) : Out := tensorRow (.winOpen w) w s [] openChk openOp

/-- CLOSE (R429). -/
def closeRun (q : QEntry) (s : State) : State :=
  let i := wWin q.w
  let x := s.window i
  if x.state s.now = 1 then (s.setWindow i { x with closeTs := s.tickW }).winEvent i 1 else s
def closeOp : TOp := ctlOp (fun _ _ => []) (fun _ _ => false) closeRun
def execWinClose (w : InsWord) (s : State) : Out := tensorRow (.winClose w) w s [] winChk closeOp

/-- EXPECT (R430). -/
def expectRun (q : QEntry) (s : State) : State :=
  s.setWindow (wWin q.w) { s.window (wWin q.w) with expected := q.w.aux64 }
def expectOp : TOp := ctlOp (fun _ _ => []) (fun _ _ => false) expectRun
def execWinExpect (w : InsWord) (s : State) : Out := tensorRow (.winExpect w) w s [] winChk expectOp

/-- WAITCL (R431). -/
def waitclStart (q : QEntry) (s : State) : List Flt :=
  let x := s.window (wWin q.w)
  if x.openTs ≠ none64 && x.closeTs = none64 then [(0x3001, infoW 0 (wWin q.w))] else []
def waitclRun (q : QEntry) (s : State) : State :=
  if (s.window (wWin q.w)).state s.now = 0 then s else s.setProg q.seq (.waitcl (wWin q.w))
def waitclOp : TOp := ctlOp waitclStart (fun _ _ => false) waitclRun
def execWaitcl (w : InsWord) (s : State) : Out := tensorRow (.waitcl w) w s [] winChk waitclOp

/-! ### T.MARK and T.WAITT (Table 2.6) -/

/-- T.MARK; a word of OPC 0x60 with an unlisted FN is its row's. -/
def markChk (q : QEntry) (_ : State) : List Flt := illegal q.w (decide (2 < q.w.fn.toNat) || unused (clearCtl q.w))
def markOp : TOp := ctlOp (fun _ _ => []) (fun _ _ => false) (fun _ s => s)
def execTMark (w : InsWord) (s : State) : Out := tensorRow (.tMark w) w s [] markChk markOp

def barrierChk (q : QEntry) (_ : State) : List Flt :=
  illegal q.w (unused { clearCtl q.w with aux64 := 0 } || q.w.imm32 ≠ 0 || q.w.aux64.toNat / 2 ^ 40 ≠ 0)
/-- Wait for the tick; past it, the barrier completes at once as a late start (R74, R75). -/
def barrierRun (q : QEntry) (s : State) : State :=
  if s.now < q.barrierTick.toNat then s.setProg q.seq (.untilTick q.barrierTick)
  else (s.late { q with startAt := some q.barrierTick, readyAt := some s.tickW, lateLim := q.barLim }).1
def barrierOp : TOp := ctlOp (fun _ _ => []) holdAll barrierRun
def execTickBarrier (w : InsWord) (s : State) : Out := tensorRow (.tickBarrier w) w s [] barrierChk barrierOp

def windowChk (q : QEntry) (_ : State) : List Flt :=
  illegal q.w (unused { clearCtl q.w with aux64 := 0 } || q.w.imm32.toNat / 32 ≠ 0)
/-- The window check: R76 to R78 with AUX64 as the expected count. It is in flight while it waits, and holds nothing (R636). -/
def windowRun (q : QEntry) (s : State) : State :=
  let sh := s.short [(wWin q.w, q.w.aux64.toNat)]
  if sh.isEmpty then s
  else if s.job.grace = 0 then s.raiseShort q sh
  else s.updInst q.seq (fun x => { x with
    q := { x.q with short := sh.map (·.1) }
    prog := .presence sh (BitVec.ofNat 64 q.readyTick) s.job.grace.toNat })
def windowOp : TOp := ctlOp (fun _ _ => []) (fun _ _ => false) windowRun

/-- A window check in flight whose count is met ends its wait (R78). -/
def State.presenceMet (s : State) (f : Inflight) : State :=
  match f.prog with
  | .presence ws _ _ => if (s.short ws).isEmpty then (s.presenceEnd f.q []).setProg f.q.seq .idle else s
  | _ => s
def State.settlePresence (s : State) : State := s.fl.foldl State.presenceMet s

/-- 0x3004 at a window check in flight that is short as its wait ends (R78). -/
def State.presenceFails (s : State) (f : Inflight) : State :=
  match f.prog with
  | .presence ws _ _ =>
    let sh := s.short ws
    if sh.isEmpty then s else (s.presenceEnd f.q (sh.map (·.1))).raiseShort f.q sh
  | _ => s
def execWindowCheck (w : InsWord) (s : State) : Out := tensorRow (.windowCheck w) w s [] windowChk windowOp

/-! ### Power groups (R390 to R399, R611) -/

/-- Groups that are in their rail ramp. -/
def State.ramping (s : State) : Nat := (s.sp.groups.filter (fun p => p.2.phase = .ramp)).length

/-- R611: the last estimate plus 2 W per group ramping, one more included, stays within the cap. -/
def State.mayRamp (s : State) : Bool := decide (s.pw.estW.toNat + 2 * (s.ramping + 1) ≤ s.pw.capEff.toNat)

/-- Start the ramps that may start, in increasing group number, at most 8 at once; a group that the cap refuses waits for a
later interval (R396, R611). -/
def State.rampN : Nat → State → State
  | 0, s => s
  | k + 1, s =>
    match (if s.ramping < 8 then s.sp.groups.find? (fun p => p.2.phase = .waitRamp && !s.pw.rampWait.contains p.1)
        else none : Option (Nat × Group)) with
    | none => s
    | some (g, x) => State.rampN k (if s.mayRamp then s.setGroup g { x with phase := .ramp }
        else { s with pw := { s.pw with rampWait := g :: s.pw.rampWait } })
def State.startRamps (s : State) : State := s.rampN s.sp.groups.length

/-- A request for OFF (R395, R397). -/
def Group.down (x : Group) : Group :=
  match x.phase with
  | .off => x
  | .on => { x with phase := .down }
  | .down => { x with held := false }
  | .waitRamp => { x with held := true }
  | .ramp => { x with held := true }
  | .zeroing => { x with held := true }

/-- A request for ON (R396, R397). -/
def Group.up (x : Group) : Group :=
  match x.phase with
  | .off => { x with phase := .waitRamp }
  | .on => x
  | .down => { x with held := true }
  | .waitRamp => { x with held := false }
  | .ramp => { x with held := false }
  | .zeroing => { x with held := false }

/-- Request OFF of the groups. -/
def State.groupsDown (s : State) (gs : List Nat) : State := gs.foldl (fun s g => s.setGroup g (s.group g).down) s
/-- Request ON of the groups. -/
def State.groupsUp (s : State) (gs : List Nat) : State := (gs.foldl (fun s g => s.setGroup g (s.group g).up) s).startRamps

/-- R392, Table 9.6, and R543 for a district out of service; the info names operand 0 and the first byte of the first such group. -/
def spadChk (q : QEntry) (s : State) : List Flt :=
  let w := q.w
  let gs := spadGroups w
  let flt := fun (code : Nat) (o : Option Nat) => (o.map (fun g => (code, infoA false 0 0 (g * 2 ^ 21)))).toList
  illegal w (decide (2 < w.fn.toNat) || unused (clearCtl w) || w.imm32.toNat / 65536 ≠ 0
    || decide (256 < bitsOf w.imm32.toNat 0 8 + bitsOf w.imm32.toNat 8 8 + 1))
  ++ flt 0x2001 (gs.find? (fun g => decide (s.yardBase < (g + 1) * 2 ^ 21)))
  ++ flt 0x2004 (gs.find? (fun g => !s.job.manifest.groups.getLsbD g || !s.districtOk (g / 2)))

/-- R394. -/
def downStart (q : QEntry) (s : State) : List Flt :=
  (((spadGroups q.w).find? (fun g => (List.range Config.windows).any (fun i =>
    (s.window i).live s.now && (s.window i).overlaps (g * 2 ^ 21) ((g + 1) * 2 ^ 21)))).map
      (fun g => (0x2005, infoA false 0 0 (g * 2 ^ 21)))).toList

/-- R398, and R425 for the groups that ZERO writes. -/
def zeroStart (q : QEntry) (s : State) : List Flt :=
  (((spadGroups q.w).find? (fun g => !s.groupOn g)).map (fun g => (0x2004, infoA false 0 0 (g * 2 ^ 21)))).toList
  ++ (((List.range Config.windows).find? (fun i => (s.window i).live s.now && (spadGroups q.w).any (fun g =>
      (s.window i).overlaps (g * 2 ^ 21) ((g + 1) * 2 ^ 21)))).map (fun i => (0x3005, infoW 0 i))).toList

def downRun (q : QEntry) (s : State) : State := (s.groupsDown (spadGroups q.w)).setProg q.seq (.spad (spadGroups q.w))
def upRun (q : QEntry) (s : State) : State := (s.groupsUp (spadGroups q.w)).setProg q.seq (.spad (spadGroups q.w))
def zeroRun (q : QEntry) (s : State) : State :=
  { s with sp := s.sp.zeroGroups (fun g => (spadGroups q.w).contains g) }

def downOp : TOp := ctlOp downStart holdAll downRun
def upOp : TOp := ctlOp (fun _ _ => []) holdAll upRun
/-- ZERO writes every line of its groups. -/
def zeroOp : TOp :=
  { ctlOp zeroStart holdAll zeroRun with writes := fun q _ => (spadGroups q.w).map (fun g => (g * 2 ^ 21, (g + 1) * 2 ^ 21)) }

def execPowerDown (w : InsWord) (s : State) : Out := tensorRow (.powerDown w) w s [] spadChk downOp
def execPowerUp (w : InsWord) (s : State) : Out := tensorRow (.powerUp w) w s [] spadChk upOp
def execZero (w : InsWord) (s : State) : Out := tensorRow (.zero w) w s [] spadChk zeroOp

/-- The groups of a T.SPAD have reached the state it names. -/
def State.spadDone (s : State) (fn : BitVec 8) (gs : List Nat) : Bool :=
  gs.all (fun g => if fn = 0 then (s.group g).phase = .off else (s.group g).phase = .on)

/-- GROUP_SAFE_POINT: a group being powered down is OFF with its contents lost, and a held power-up then runs (R395, R397). -/
def State.safePoint (s : State) (g : Nat) : State :=
  let x := s.group g
  if x.phase ≠ .down then s
  else
    let s := { s with sp := s.sp.zeroGroups (· = g) }
    if x.held then (s.setGroup g ⟨.waitRamp, false⟩).startRamps else s.setGroup g ⟨.off, false⟩

/-- GROUP_RAMP_DONE: the ramp ends and the zeroing begins; a waiting group may start its ramp (R396). -/
def State.rampDone (s : State) (g : Nat) : State :=
  let x := s.group g
  if x.phase ≠ .ramp then s else (s.setGroup g { x with phase := .zeroing }).startRamps

/-- GROUP_ZEROING_DONE: every line is zero, with valid check bits and a clear poison bit, and the group is ON, or a held
power-down then runs (R396, R397, R522). Accesses to it wait for no scrub (R402). -/
def State.zeroingDone (s : State) (g : Nat) : State :=
  let x := s.group g
  if x.phase ≠ .zeroing then s
  else
    let s := { s with sp := { s.sp.zeroGroups (· = g) with scrubOn := s.sp.scrubOn.filter (· ≠ g) } }
    s.setGroup g (if x.held then ⟨.down, false⟩ else ⟨.on, false⟩)

end Sys2Proof.Machine
end

