-- ==== Sys2Proof/Machine/Power.lean ====
section
/-! DEFINITION. The power estimate, the governor and the thermal inputs (17 R606 to R614). -/

namespace Sys2Proof.Machine

/-- Out of reset. -/
def State.running (s : State) : Bool := decide (s.boot.phase ≠ .inReset)

/-! ### Output pins (17 R603) -/

/-- READY is high while SVC_STAT.ready = 1. -/
def State.pinReady (s : State) : Bool := s.svc.ready
/-- FAULT_N is low while the job is FAULTED, and after a start-up failure until reset. -/
def State.pinFaultN (s : State) : Bool := !(s.job.state = stFaulted || decide (s.boot.phase = .stopped))

/-! ### The power estimate and the governor -/

/-- Add `c` × used / available to a sum held as numerator and denominator; a part with nothing available adds nothing. -/
def addPart (x : Nat × Nat) (c : Nat) (r : Ratio) : Nat × Nat :=
  if r.avail = 0 then x else (x.1 * r.avail + c * r.used * x.2, x.2 * r.avail)

/-- P of R606, rounded up to a whole watt: the standing terms in sixteenths, then the dynamic ones (Table 17.5). -/
def State.estimate (s : State) (a : Activity) : Nat :=
  let on := s.onGroups.length
  let x : Nat × Nat := (320 + 3 * on + 32 * s.ramping, 16)
  let x := addPart (addPart (addPart (addPart (addPart x 120 a.lanes) 25 a.pipes) 55 a.regs) 142 a.banks) 30 a.ports
  cdiv x.1 x.2

/-- `govern` of R607: the level and the calm count. -/
def govern (P c L calm : Nat) : Nat × Nat :=
  if c < P then (max 1 (L * c / P), 0)
  else
    let calm := if 16 * P ≤ 15 * c then calm + 1 else 0
    if calm = 4 then (min 16 (L + 1), 0) else (L, calm)

/-- A district's last reading, signed, in 1/4 °C. -/
def State.temp (s : State) (k : Nat) : Int := (AL.getD s.pw.temps k 0).toInt

/-- The hottest district; the lowest of equals. -/
def State.hottest (s : State) : Nat :=
  (List.range Config.districts).foldl (fun b k => if s.temp b < s.temp k then k else b) 0

/-- The thermal state at the end of an interval (R612). -/
def State.thermal (s : State) (temps : List (Nat × BitVec 12)) : State :=
  let ts := temps.foldl (fun m p => if p.1 < Config.districts then AL.put m p.1 p.2 else m) s.pw.temps
  let s := { s with pw := { s.pw with temps := ts } }
  let k := s.hottest
  let t := s.temp k
  { s with pw := { s.pw with
    district := BitVec.ofNat 7 k, tmax := AL.getD ts k 0
    warn := s.pw.warnPin || decide (4 * (s.pw.softC.toNat : Int) ≤ t)
    hard := if s.pw.hard then decide (4 * (s.pw.hardC.toNat : Int) - 20 ≤ t) else decide (4 * (s.pw.hardC.toNat : Int) ≤ t) } }

/-- cap_eff of R607. -/
def State.effectiveCap (s : State) : Nat :=
  let c := min s.pw.capW.toNat s.cfg.active.capW.toNat
  if s.pw.warn then 3 * c / 4 else c

/-- The end of a governor interval: thermal state, the cap written, `govern` (R614); a waiting group may start its ramp. -/
def State.interval (s : State) (a : Activity) (temps : List (Nat × BitVec 12)) : State :=
  let thr := if s.pw.level.toNat < 16 then satAdd s.pw.thrAclk 16384 else s.pw.thrAclk
  let s := { s with pw := { s.pw with estW := BitVec.ofNat 10 (s.estimate a), thrAclk := thr } }
  let s := s.thermal temps
  let s := { s with pw := { s.pw with capW := s.pw.capNew.getD s.pw.capW, capNew := none } }
  let c := s.effectiveCap
  let (l, calm) := if s.pw.hard || s.pw.trip then (1, 0) else govern (s.estimate a) c s.pw.level.toNat s.pw.calm
  ({ s with pw := { s.pw with capEff := BitVec.ofNat 9 c, level := BitVec.ofNat 5 l, calm := calm, rampWait := [] } }).startRamps

def execGovernorInterval (a : Activity) (temps : List (Nat × BitVec 12)) (s : State) : Out :=
  .next (if s.running then s.interval a temps else s)

/-- THERM_WARN_N: the filtered level, which the end of the interval applies (R612). -/
def execThermWarnN (level : Bool) (s : State) : Out :=
  .next (if s.running then { s with pw := { s.pw with warnPin := !level } } else s)

/-- THERM_TRIP_N (R613): low raises 0x8005, abandons every instruction and sets L = 1; high lets the governor resume. -/
def State.tripPin (s : State) (level : Bool) : State :=
  if level then { s with pw := { s.pw with trip := false } }
  else if s.pw.trip then s
  else
    let s := s.raiseAll 0x8005 (infoH 6 s.pw.district.toNat)
    { s with pw := { s.pw with trip := true, level := 1, calm := 0 } }

def execThermTripN (level : Bool) (s : State) : Out := .next (if s.running then s.tripPin level else s)

end Sys2Proof.Machine
end

