-- ==== Sys2Proof/Machine/Move.lean ====
section
/-! DEFINITION. Data movement within the array and to the matrix ports: T.COPY, T.GATH, T.SCAT (08 R329 to R363). -/

namespace Sys2Proof.Machine

/-! ### Pieces (R340) -/

/-- An element that is moved: destination bit, which source, source bit, width. -/
structure Moved where
  dst : Nat
  src : Nat
  at_ : Nat
  width : Nat
  deriving DecidableEq, Repr

/-- What an element gives to each aligned run of `piece` destination bits that it touches: the run, the source with its bit offset
and line, and the line of the last bit given. -/
def Moved.runs (piece : Nat) (m : Moved) : List (Nat × (Nat × Int × Nat) × Nat) :=
  (strided (m.dst / piece) 1 ((m.dst + m.width - 1) / piece - m.dst / piece + 1)).map (fun r =>
    let lo := max m.dst (r * piece) - m.dst
    let hi := min (m.dst + m.width) ((r + 1) * piece) - m.dst
    (r, (m.src, (m.at_ : Int) - m.dst, (m.at_ + lo) / 1024), (m.at_ + hi - 1) / 1024))

/-- Every aligned run of `piece` bits of a destination line that holds source data comes, in bit order, from contiguous
bits of one source line. -/
def pieceOk (piece : Nat) (ms : List Moved) : Bool :=
  let parts := ms.flatMap (Moved.runs piece)
  let runs := parts.map (fun p => (p.1, p.2.1))
  parts.all (fun p => p.2.1.2.2 = p.2.2)
  && (runs.foldl (fun (r : AL (Nat × Int × Nat) × Bool) p =>
      match AL.get? r.1 p.1 with
      | none => (AL.put r.1 p.1 p.2, r.2)
      | some k => (r.1, r.2 && decide (k = p.2))) ([], true)).2

/-- The piece is at most 32 bits: a turntable read. A piece that fails for 64 bits fails for every greater one. A movement for
which no piece of R340 meets the condition is a turntable read too, the model's choice (log 103). -/
def turntable (ms : List Moved) : Bool := !pieceOk 64 ms

/-- Destination lines that hold moved data. -/
def movedLines (ms : List Moved) : List Nat :=
  (ms.flatMap (fun m => [m.dst / 1024, (m.dst + m.width - 1) / 1024])).foldl insNat []

/-- MOV_STAT after a movement (Table 8.10). -/
def State.countMoved (s : State) (ms : List Moved) : State :=
  if turntable ms then { s with xf := { s.xf with turntable := satAdd s.xf.turntable (movedLines ms).length } } else s

/-! ### T.COPY (R330 to R339) -/

def copyDk (w : InsWord) : Nat := bitsOf w.fn.toNat 4 2
def copyPad (w : InsWord) : Bool := bitOf w.fn.toNat 3
def copyCat (w : InsWord) : Bool := bitOf w.fn.toNat 2
def copyFill (w : InsWord) : Bool := bitOf w.fn.toNat 1
def copyCax (w : InsWord) : Nat := bitsOf w.aux64.toNat 51 1
/-- The source axis of a destination axis (R332). -/
def copyAxis (w : InsWord) (a : Nat) : Nat := a ^^^ bitsOf w.aux64.toNat (43 + 2 * a) 2
/-- The offset along dim0 or dim1. -/
def copyOff (w : InsWord) (a : Nat) : Int := sextNat (w.aux64.toNat / 2 ^ (21 * a)) 21

/-- Dimension `a` of the permuted source. -/
def permN (w : InsWord) (d : Desc) (a : Nat) : Nat := d.n (copyAxis w a)

/-- The index of SA or SB (true) that covers a destination element (R333, R334). -/
def copyFrom (q : QEntry) (x : Ix) : Option (Bool × Ix) :=
  let w := q.w
  let at_ := fun (d : Desc) (j0 j1 : Int) =>
    if 0 ≤ j0 ∧ j0 < permN w d 0 ∧ 0 ≤ j1 ∧ j1 < permN w d 1 then
      let j : Ix := ⟨j0.toNat, j1.toNat, x.i2, x.i3⟩
      some (Ix.ofFn (fun a => j.get (((List.range 4).find? (fun k => copyAxis w k = a)).getD 0)))
    else none
  if copyFill w then none
  else
    let j0 := (x.i0 : Int) - copyOff w 0
    let j1 := (x.i1 : Int) - copyOff w 1
    match at_ q.sa j0 j1 with
    | some i => some (false, i)
    | none =>
      if !copyCat w then none
      else if copyCax w = 0 then (at_ q.sb (j0 - permN w q.sa 0) j1).map (fun i => (true, i))
      else (at_ q.sb j0 (j1 - permN w q.sa 1)).map (fun i => (true, i))

/-- R337: the copy is in place. -/
def copyInPlace (q : QEntry) : Bool :=
  let w := q.w
  let o0 := copyOff w 0
  let o1 := copyOff w 1
  !copyFill w && copyDk w = 0 && !copyCat w && bitsOf w.aux64.toNat 43 8 = 0 && q.sa.layout = 0 && q.dst.layout = 0
  && q.sa.pitch1 = q.dst.pitch1 && q.sa.pitch2 = q.dst.pitch2 && q.sa.pitch3 = q.dst.pitch3
  && decide (8 * (q.sa.at_ : Int) = 8 * (q.dst.at_ : Int) + 32 * o1 * q.dst.pitch 1 + o0 * q.dst.w)

/-- The source operands that the copy names; R76 covers them, those of an in-place copy too. -/
def copyNamed (q : QEntry) : List Opnd :=
  if copyFill q.w then [] else q.oSa :: when (copyCat q.w) q.oSb

/-- The source operands that the copy reads: an in-place copy reads nothing (R337, log 55). -/
def copySrcs (q : QEntry) : List Opnd := if copyInPlace q then [] else copyNamed q

def copyOuts (q : QEntry) : List Opnd := when (copyDk q.w = 0) q.oDst

/-- R332 to R334: shapes and permutation. -/
def copyBadShape (q : QEntry) : Bool :=
  let w := q.w
  let ds := [q.dst, q.sa] ++ (if copyCat w then [q.sb] else [])
  let rk := (ds.map Desc.rk).foldl max 0
  let ax := (List.range 4).map (copyAxis w)
  let perm := (List.range 4).all (fun a => if a < rk then (ax.take rk).contains a else ax.getD a 0 = a)
  !perm || [2, 3].any (fun a => permN w q.sa a ≠ q.dst.n a)
  || (copyCat w && [0, 1, 2, 3].any (fun a => a ≠ copyCax w && permN w q.sb a ≠ permN w q.sa a))

/-- Table 8.9 for T.COPY. With fill = 1, where R331 has SA zero, R39's rule on SFMT is not tested against d[0]: the spec leaves
that open, and it is the model's choice (log 92). -/
def copyChk (q : QEntry) (s : State) : List Flt :=
  let w := q.w
  let dk := copyDk w
  let d := q.dst
  let f := w.fn.toNat
  let base := { clearCommon w with dst := 0, sa := 0, dfmt := 0, sfmt := 0, imm32 := 0, aux64 := 0 }
  let base := if copyCat w then { base with sb := 0 } else base
  let immBits := if copyPad w then fmtWidth w.dfmt.toNat else if dk ≠ 0 then 8 else 0
  illegal w (badBits w || unused base || bitsOf f 6 2 ≠ 0 || bitOf f 0 || dk = 3 || bitsOf w.aux64.toNat 52 12 ≠ 0
    || bitOf w.aux64.toNat 42 || (!copyCat w && copyCax w ≠ 0) || (copyFill w && (w.sa ≠ 0 || w.sb ≠ 0 || w.aux64 ≠ 0 || copyCat w || !copyPad w))
    || (copyPad w && dk ≠ 0) || w.imm32.toNat / 2 ^ immBits ≠ 0)
  ++ badShape w (w.dfmt ≠ d.format || w.sfmt ≠ w.dfmt || (!copyFill w && w.sfmt ≠ q.sa.format)
    || (copyCat w && q.sb.format ≠ w.dfmt) || (!copyFill w && copyBadShape q))
  ++ (if dk = 0 then s.checkOpnd w [.spad] q.oDst
      else badShape w (!d.valid || d.at_ ≠ 0 || d.layout ≠ BitVec.ofNat 3 (dk + 1) || [1, 2, 3].any (fun a => d.pitch a ≠ d.least.pitch a))
        ++ badFmt w (!s.portFormat (dk - 1) d.fmt) ++ s.needPort (dk - 1))
  ++ (if copyFill w then [] else s.checkOpnd w [.spad] q.oSa)
  ++ (if copyCat w then s.checkOpnd w [.spad] q.oSb else [])
  ++ badFmt w (!copyFill w && isMX w.dfmt.toNat && (copyAxis w 0 ≠ 0 || copyOff w 0 % 32 ≠ 0
    || (copyCat w && copyCax w = 0 && permN w q.sa 0 % 32 ≠ 0)))

/-- The elements of DST that take data, each with its source and index there (R333, R334, R337). -/
def copyData (q : QEntry) : List (Ix × Bool × Ix) :=
  if copyInPlace q then [] else q.dst.ixs.filterMap (fun x => (copyFrom q x).map (fun p => (x, p)))

/-- The lines of SA and SB that hold an element placed in DST (R333). -/
def copyLines (q : QEntry) (_ : State) (o : Opnd) : Option (List Nat) :=
  let mine := (copyData q).filter (fun p => p.2.1 = decide (o.role = 2))
  some ((mine.flatMap (fun p => o.d.elemLines p.2.2)).foldl insNat [])

/-- The effect of T.COPY (R358, R361). The pad lines that an in-place copy writes take no poison from the data lines of their tile,
which R358 leaves open: the model's choice (log 92). -/
def copyRun (q : QEntry) (s : State) : State :=
  let w := q.w
  let d := q.dst
  let t := if copyDk w = 0 then d else d.least
  let data := copyData q
  let srcOf := fun (b : Bool) => if b then q.sb else q.sa
  let vals := data.map (fun p => (p.1, s.raw (srcOf p.2.1) p.2.2))
  let pads := if copyPad w then (d.ixs.filter (fun x => (copyFrom q x).isNone)).map (fun x => (x, w.imm32.toNat)) else []
  let badX := if s.sp.psnLines.isEmpty then [] else
    (data.filter (fun p => s.elemPsn (srcOf p.2.1) p.2.2)).map (·.1)
  let bad := badTiles d badX
  let moved := data.map (fun p => (⟨t.bitAddr p.1, (if p.2.1 then 1 else 0), (srcOf p.2.1).bitAddr p.2.2, d.w⟩ : Moved))
  if copyDk w = 0 then
    (s.putElems d (vals ++ pads) (fun c => bad.contains c) w.poisonOk).countMoved moved
  else
    let m := bitsImage (vals.map (fun p => t.bitW p.1 p.2))
    let badLines := if w.poisonOk then [] else bad.flatMap t.tileLines
    let otag : Byte := BitVec.ofNat 8 w.imm32.toNat
    (t.mLines.foldl (fun s l =>
      let a := t.mAddr l
      s.send (copyDk w - 1) (some q.seq)
        (.operand (badLines.contains a) otag (BitVec.ofNat 32 (a / 128)) (m.readBytes a 128))) s).countMoved moved

/-- The lines of DST that T.COPY writes: those of what it places and of what it pads. -/
def copyWrites (q : QEntry) : List Nat :=
  if copyDk q.w ≠ 0 then []
  else q.dst.linesOf ((copyData q).map (·.1)
    ++ (if copyPad q.w then q.dst.ixs.filter (fun x => (copyFrom q x).isNone) else []))

def copyOp : TOp :=
  { plainOp copySrcs copyOuts copyRun with lines := copyLines, writes := fun q _ => lineRanges (copyWrites q), present := fun q s => presentOf (copyNamed q) s }

def execTCopy (w : InsWord) (s : State) : Out := tensorRow (.tCopy w) w s [] copyChk copyOp

/-! ### T.GATH and T.SCAT (R342 to R353) -/

def gsMask (w : InsWord) : Nat := bitsOf w.aux64.toNat 0 4
def gsAxes (w : InsWord) : List Nat := (List.range 4).filter (bitOf (gsMask w))
def gsSigma (w : InsWord) : Nat := (gsAxes w).getLast?.getD 0
/-- Block lengths. -/
def gsLam (w : InsWord) (a : Nat) : Nat :=
  match a with | 0 => bitsOf w.aux64.toNat 4 20 + 1 | 1 => bitsOf w.aux64.toNat 24 20 + 1 | _ => 1

/-- T.SCAT: G is the destination. -/
def gsScat (w : InsWord) : Bool := w.opc = 0x42
def gsAdd (w : InsWord) : Bool := gsScat w && fn7 w = 1
def gsG (q : QEntry) : Desc := if gsScat q.w then q.dst else q.sa
def gsS (q : QEntry) : Desc := if gsScat q.w then q.sa else q.dst
/-- The number of entries L. -/
def gsLen (q : QEntry) : Nat := if (gsAxes q.w).length = 1 then q.sb.count else q.sb.n 1 * q.sb.n 2 * q.sb.n 3

def gsSrcs (q : QEntry) : List Opnd := [q.oSa, q.oSb] ++ when (gsAdd q.w) q.oDst

/-- R342 to R344 and R353. A list that is not code 11 or not PLAIN (Table 8.7) raises 0x1002 too: Table 8.9 gives it no code of its
own, and the model chooses (log 92). -/
def gsBadShape (q : QEntry) : Bool :=
  let w := q.w
  let G := gsG q
  let S := gsS q
  let axes := gsAxes w
  let D := axes.length
  q.sb.fmt ≠ 11 || q.sb.layout ≠ 0 || D = 0 || decide (G.rk ≤ gsSigma w) || G.rank ≠ S.rank || G.format ≠ S.format
  || (decide (2 ≤ D) && q.sb.n 0 ≠ D)
  || [0, 1, 2, 3].any (fun a => S.n a ≠
      (if a = gsSigma w then gsLen q * gsLam w a else if axes.contains a then gsLam w a else G.n a))
  || decide (2 ^ 20 < gsLen q * gsLam w (gsSigma w))

/-- Table 8.9 for T.GATH and T.SCAT. The list of format 11 is an operand that R104 counts. -/
def gsChk (q : QEntry) (s : State) : List Flt :=
  let w := q.w
  let code := w.dfmt.toNat
  let base := { clearCommon w with dst := 0, sa := 0, sb := 0, dfmt := 0, sfmt := 0, aux64 := 0 }
  let base := if gsAdd w then { base with rnd := 0, sat := false, ftz := false } else base
  let mask := gsMask w
  illegal w (badBits w || unused base || (if gsScat w then decide (1 < fn7 w) else w.fn ≠ 0)
    || (fnU w && (!gsAdd w || badU w [code, q.sb.fmt])) || bitsOf w.aux64.toNat 44 20 ≠ 0
    || (!bitOf mask 0 && gsLam w 0 ≠ 1) || (!bitOf mask 1 && gsLam w 1 ≠ 1)
    || (gsAdd w && isInt code && (w.rnd ≠ 0 || w.ftz)))
  ++ spadChecks q s [q.oDst, q.oSa, q.oSb]
  ++ badShape w (gsBadShape q)
  ++ badFmt w ((gsAdd w && !(code ≤ 2 || isInt code)) || (isMX code && bitOf mask 0 && gsLam w 0 % 32 ≠ 0))

/-- An entry of the list: its index ℓ, the elements of the list that hold it, its coordinates before clamping. -/
structure GsEnt where
  l : Nat
  at_ : List Ix
  cs : List Int
  deriving DecidableEq, Repr

/-- The entries in order (R343). -/
def State.gsEntries (s : State) (q : QEntry) : List GsEnt :=
  let rows : List (List Ix) :=
    if (gsAxes q.w).length = 1 then q.sb.ixs.map (fun x => [x])
    else (ixsOf 1 (q.sb.n 1) (q.sb.n 2) (q.sb.n 3)).map (fun r => (List.range (q.sb.n 0)).map (fun j => { r with i0 := j }))
  rows.zipIdx.map (fun p => ⟨p.2, p.1, p.1.map (fun x => sextNat (s.raw q.sb x) 21)⟩)

/-- The greatest coordinate along an axis (R345). -/
def gsMax (q : QEntry) (a : Nat) : Int := (cdiv ((gsG q).n a) (gsLam q.w a) : Nat) - 1
/-- The entry has a coordinate out of range. -/
def gsOutside (q : QEntry) (e : GsEnt) : Bool :=
  ((gsAxes q.w).zip e.cs).any (fun p => decide (p.2 < 0 ∨ gsMax q p.1 < p.2))
/-- R347: T.SCAT drops the entry. -/
def gsDrops (q : QEntry) (e : GsEnt) : Bool := gsScat q.w && q.dst.writeDrop && gsOutside q e

/-- The elements of an entry's block: index in S, index in G, and whether it lies in G (R344 to R346). -/
def gsBlock (q : QEntry) (e : GsEnt) : List (Ix × Ix × Bool) :=
  let w := q.w
  let G := gsG q
  let axes := gsAxes w
  let c := fun a => ((((axes.zip e.cs).find? (fun p => p.1 = a)).map (fun p => max 0 (min p.2 (gsMax q a)))).getD 0).toNat
  let len := fun a => if axes.contains a then gsLam w a else G.n a
  (ixsOf (len 0) (len 1) (len 2) (len 3)).map (fun o =>
    let g := Ix.ofFn (fun a => if axes.contains a then c a * gsLam w a + o.get a else o.get a)
    (Ix.ofFn (fun a => if a = gsSigma w then e.l * gsLam w a + o.get a else o.get a), g,
      [0, 1, 2, 3].all (fun a => decide (g.get a < G.n a))))

/-- The entries that are not dropped, and GS_STAT (R347, R348). -/
def State.gsKept (s : State) (q : QEntry) : List GsEnt × State :=
  let es := s.gsEntries q
  let kept := es.filter (fun e => !gsDrops q e)
  (kept, { s with xf := { s.xf with
    dropped := satAdd s.xf.dropped (es.length - kept.length)
    clamped := satAdd s.xf.clamped (kept.filter (gsOutside q)).length } })

/-- The elements that an operand gives to the entries that are kept (R346, R347): of S, or of G within its edge. -/
def gsIxs (q : QEntry) (es : List GsEnt) (ofS : Bool) : List Ix :=
  es.flatMap (fun e => ((gsBlock q e).filter (fun c => c.2.2)).map (fun c => if ofS then c.1 else c.2.1))

/-- The whole list is read, and of SA and DST the lines that hold such an element. -/
def gsLines (q : QEntry) (s : State) (o : Opnd) : Option (List Nat) :=
  if o.role = 2 then none
  else
    let xs := gsIxs q (s.gsKept q).1 (gsScat q.w && decide (o.role = 1))
    some ((xs.flatMap o.d.elemLines).foldl insNat [])

/-- The block of an entry of T.GATH is poisoned: a poisoned line lies in a tile of G that holds one of its elements, or in a line of
the list that holds one of its coordinates (R359). -/
def State.gathBad (s : State) (q : QEntry) (e : GsEnt) : Bool :=
  e.at_.any (fun x => (q.sb.elemLines x).any s.psn) || (gsBlock q e).any (fun c => c.2.2 && s.elemPsn q.sa c.2.1)

/-- T.GATH (R346). A poisoned block poisons every tile that it is placed in (R359). -/
def gathRun (q : QEntry) (s : State) : State :=
  let (es, s) := s.gsKept q
  let G := q.sa
  let S := q.dst
  let cells := es.flatMap (fun e => (gsBlock q e).map (fun c => (e, c)))
  let ws := cells.map (fun c => (c.2.1, if c.2.2.2 then s.raw G c.2.2.1 else 0))
  let badX := if s.sp.psnLines.isEmpty then [] else (es.filter (s.gathBad q)).flatMap (fun e => (gsBlock q e).map (·.1))
  let bad := badTiles S badX
  let moved := (cells.filter (fun c => c.2.2.2)).map (fun c =>
    (⟨S.bitAddr c.2.1, c.1.l, G.bitAddr c.2.2.1, S.w⟩ : Moved))
  (s.putElems S ws (fun t => bad.contains t) q.w.poisonOk).countMoved moved

/-- What T.SCAT writes: elements of G with the indexes in S that address them, in increasing ℓ (R347). -/
def scatCells (q : QEntry) (es : List GsEnt) : List (Ix × List (Nat × Ix)) :=
  let cells := es.flatMap (fun e => ((gsBlock q e).filter (fun c => c.2.2)).map (fun c => (c.2.1, e.l, c.1)))
  ((cells.map (·.1)).eraseDups).map (fun g => (g, (cells.filter (fun c => c.1 = g)).map (·.2)))

/-- The destination tiles of T.SCAT that are poisoned (R360): those that a block is written into of which a poisoned tile of S gives
an element; what SCATTER writes is the block of the largest ℓ (R350). -/
def State.scatBad (s : State) (q : QEntry) (cells : List (Ix × List (Nat × Ix))) : List Tile :=
  if s.sp.psnLines.isEmpty then []
  else
    let all := s.anyPsn q.sb
    let from_ := fun (c : Ix × List (Nat × Ix)) => if gsAdd q.w then c.2 else c.2.getLast?.toList
    let rotten := ((cells.flatMap from_).filter (fun p => s.elemPsn q.sa p.2)).map (·.1)
    badTiles q.dst ((cells.filter (fun c => all || (from_ c).any (fun p => rotten.contains p.1)
      || (gsAdd q.w && s.elemPsn q.dst c.1))).map (·.1))

/-- SCATTER (R350). -/
def scatterRun (q : QEntry) (s : State) : State :=
  let (es, s) := s.gsKept q
  let cells := scatCells q es
  let ws := cells.filterMap (fun c => c.2.getLast?.map (fun p => (c.1, s.raw q.sa p.2)))
  let bad := s.scatBad q cells
  let moved := cells.flatMap (fun c => c.2.getLast?.toList.map (fun p => (⟨q.dst.bitAddr c.1, p.1, q.sa.bitAddr p.2, q.dst.w⟩ : Moved)))
  (s.putElems q.dst ws (fun t => bad.contains t) q.w.poisonOk).countMoved moved

/-- One element of SCATTER_ADD (R351): its bits, the flags, the total. -/
def State.addElem (s : State) (q : QEntry) (g : Ix) (from_ : List Ix) : Nat × Fl × Val :=
  let w := q.w
  let d := q.dst
  let uns := fnU w && isInt d.fmt
  if isInt d.fmt then
    let tot := from_.foldl (fun a x => a + (s.elem q.sa uns false x).toInt) (s.elem d uns false g).toInt
    let (r, f) := roundTo d.fmt uns rNE w.sat false 0 (Val.ofInt tot)
    (r, f, Val.ofInt tot)
  else
    let (a, f) := from_.foldl (fun (p : W32 × Fl) x =>
      let (y, g) := addOp p.1 (leaf32 (s.elem q.sa false w.ftz x))
      (y, p.2 ||| g)) (leaf32 (s.elem d false w.ftz g), 0)
    let (r, h) := s.placeAt q d g (ofF32 a)
    (r, f ||| h, ofF32 a)

/-- SCATTER_ADD. A run to which the blocks of two entries add comes from no one source line, so that the movement counts as a turntable
read: the model's choice (log 102). -/
def scatterAddRun (q : QEntry) (s : State) : State :=
  let (es, s) := s.gsKept q
  let cells := scatCells q es
  let res := cells.map (fun c => (c.1, s.addElem q c.1 (c.2.map (·.2))))
  let bad := s.scatBad q cells
  let moved := cells.flatMap (fun c => c.2.map (fun p => (⟨q.dst.bitAddr c.1, p.1, q.sa.bitAddr p.2, q.dst.w⟩ : Moved)))
  let s := (s.putElems q.dst (res.map (fun r => (r.1, r.2.1))) (fun t => bad.contains t) q.w.poisonOk).countMoved moved
  (s.flag (orFlags (res.map (fun r => r.2.2.1)))).gather q q.dst (res.map (fun r => r.2.2.2))

def gsOuts (q : QEntry) : List Opnd := [q.oDst]

/-- The lines of DST that they write: of T.SCAT those that a kept entry addresses (R347). -/
def gsWrites (q : QEntry) (s : State) : List Nat :=
  q.dst.linesOf (if gsScat q.w then gsIxs q (s.gsKept q).1 false else q.dst.ixs)

/-- What T.GATH and T.SCAT share. -/
def gsOp (run : QEntry → State → State) : TOp :=
  { plainOp gsSrcs gsOuts run with lines := gsLines, writes := fun q s => lineRanges (gsWrites q s) }

def execTGath (w : InsWord) (s : State) : Out := tensorRow (.tGath w) w s [] gsChk (gsOp gathRun)
def execScatter (w : InsWord) (s : State) : Out := tensorRow (.scatter w) w s [] gsChk (gsOp scatterRun)
def execScatterAdd (w : InsWord) (s : State) : Out := tensorRow (.scatterAdd w) w s [] gsChk (gsOp scatterAddRun)

end Sys2Proof.Machine
end

