-- ==== Sys2Proof/Machine/Trig.lean ====
section
/-! DEFINITION. T.TRIG, the triggers that wait, and the KNI's events (11 R483 to R485, 17 R599, 14 Table 14.6). -/

namespace Sys2Proof.Machine

/-- The port named in the info of a trigger's or WAIT's fault: the trigger port, or the lowest network port without one. -/
def State.trigP (s : State) : Nat := s.trigPort.getD 22

/-- POST; a word of OPC 0x59 with an unlisted FN is its row's. -/
def postChk (q : QEntry) (s : State) : List Flt :=
  illegal q.w (decide (1 < q.w.fn.toNat) || unused { clearCtl q.w with aux64 := 0 } || q.w.imm32.toNat / 256 ≠ 0) ++ s.needTrig
def postRun (q : QEntry) (s : State) : State := s.handOver (some q.seq) (BitVec.ofNat 8 q.w.imm32.toNat) q.w.aux64
def postOp : TOp := ctlOp (fun _ _ => []) (fun _ _ => false) postRun
def execPost (w : InsWord) (s : State) : Out := tensorRow (.post w) w s [] postChk postOp

/-- The counter has reached the threshold (R485). -/
def reached (count threshold : W32) : Bool := decide ((count - threshold).toNat < 2 ^ 31)
def State.evt (s : State) (c : Nat) : Evt := AL.getD s.yd.evts c ⟨0, false, false, 0⟩

def waitChk (q : QEntry) (_ : State) : List Flt :=
  illegal q.w (unused { clearCtl q.w with aux64 := 0 } || q.w.imm32.toNat / 16 ≠ 0 || q.w.aux64.toNat / 2 ^ 32 ≠ 0)
def waitRun (q : QEntry) (s : State) : State :=
  let c := q.w.imm32.toNat % 16
  let t := q.w.aux64.setWidth 32
  if reached (s.evt c).count t then s else s.setProg q.seq (.trigWait c t s.tickW s.xf.netTicks.toNat)
def waitOp : TOp := ctlOp (fun _ _ => []) (fun _ _ => false) waitRun
def execTrigWait (w : InsWord) (s : State) : Out := tensorRow (.trigWait w) w s [] waitChk waitOp

/-- A fault of a wait at the instruction of sequence number `seq`, in format P; of one that the KILL in progress abandoned it is only
counted, of one that had completed, or that an earlier fault had abandoned, it is nothing (R517). -/
def State.raiseWait (s : State) (seq : Nat) (code port : Nat) (since : W64) : State :=
  match s.fl.find? (fun f => f.q.seq = seq) with
  | some f => s.raiseHalt f.q.seq f.q.pc code (infoP port since.toNat)
  | none => if s.killed seq then s.suppress else s

/-- A trigger was not accepted within its limit (R483): 0x6003 at the instruction that posted it. -/
def State.trigLate (s : State) (t : TrigItem) : State :=
  let s := { s with yd := { s.yd with trigs := s.yd.trigs.filter (· ≠ t) } }
  match t.owner with
  | some o => s.raiseWait o 0x6003 s.trigP t.since
  | none => s

/-- The trigger that has waited its limit; each has its own (R483, R528). -/
def State.trigDue (s : State) : Option TrigItem := s.yd.trigs.find? (fun t => decide (t.since.toNat + t.limit ≤ s.now))

/-- The first waiting trigger leaves on the trigger port; at its limit or after it is late (R483, R527). -/
def State.handNext (s : State) : State :=
  match s.yd.trigs with
  | [] => s
  | t :: ts =>
    if t.since.toNat + t.limit ≤ s.now then s.trigLate t
    else match s.trigPort with
      | none => s
      | some p => { s with yd := { s.yd with trigs := ts } }.sendTrigger p t.id t.val

def execTriggerHandover (s : State) : Out := .next s.handNext

/-- The first WAIT in flight whose limit has passed (R485, R527). -/
def State.waitDue (s : State) : Option (Inflight × W64 × Nat) :=
  (s.fl.filterMap (fun f => match f.prog with
    | .trigWait _ _ since limit => some (f, since, limit)
    | _ => none)).find? (fun p => decide (p.2.1.toNat + p.2.2 ≤ s.now))

/-- 0x6003 at a WAIT that is over its limit. -/
def State.waitLate (s : State) : State :=
  match s.waitDue with
  | some (f, since, _) => s.raiseHalt f.q.seq f.q.pc 0x6003 (infoP s.trigP since.toNat)
  | none => s

/-- WAITs whose counter has reached their threshold end their wait. -/
def State.settleWaits (s : State) : State :=
  { s with fl := s.fl.map (fun f => match f.prog with
    | .trigWait c t _ _ => if reached (s.evt c).count t then { f with prog := .idle } else f
    | _ => f) }

/-- A KNI event (R484), after the WAITs that it comes too late for. -/
def State.eventArrives (s : State) (p : Nat) (b : EventBody) : State :=
  if some p ≠ s.trigPort then s.dropMsg p 2
  else if b.res ≠ 0 then s.logOnly 0x6007 (infoP p s.now)
  else
    let s := s.waitLate
    let c := b.counter.toNat
    let s := { s with yd := { s.yd with
      events := satAdd s.yd.events 1
      evts := AL.put s.yd.evts c ⟨b.coll, b.refused, b.taint, (s.evt c).count + b.inc⟩ } }
    let s := s.trace 10 (c * 2 ^ 52 + 2 ^ 51 + (if b.refused then 2 ^ 50 else 0) + (if b.taint then 2 ^ 49 else 0) + b.inc.toNat)
    let s := if b.taint then s.taint b.coll else s
    s.settleWaits

end Sys2Proof.Machine
end

