-- ==== Sys2Proof/Machine/Xpr.lean ====
section
/-! DEFINITION. T.XPR, STREAM and MERGE, and the accumulator tiles that feed it (07 R268 to R316). -/

namespace Sys2Proof.Machine

/-! ### Checks (Table 7.14) -/

/-- A spill tensor (R301), but for its base. -/
def spillOk (d : Desc) (T : Nat) : Bool :=
  d.fmt = 0 && d.layout = 0 && d.rank = 1 && d.n 0 = 96 && d.pitch 1 = 96 && decide (T ≤ d.n 1)
def spillBase (o : Opnd) : List Flt :=
  if o.d.at_ % 128 = 0 then [] else [(0x2002, infoA false o.role o.num o.d.at_)]

/-- The checks that R296 makes of a store into a scaled format: of a stream whose chain is named and ends in ST, since of any other R297
alone speaks. The FIXED byte stands unused under HIST and FCST, and without dscl, which makes no destination of codes 3, 4, 13 and 14
scaled, all of imm is unused (R297), the model's choice (log 81), but where ST reads IMM as its operand (Table 7.9). -/
def xpStoreChk (w : InsWord) (x : XStream) : List Flt :=
  if x.chainNo = 0 || decide (31 < x.chainNo) || !chainEndsSt x.chain then []
  else
    badFmt w (x.dscl && x.opts / 2 ^ 11 ≠ 0)
    ++ (if stSa (chainSt x.chain) ≠ 8 && !x.dscl && x.opts ≠ 0 then [(0x1006, w.low64)] else [])
    ++ badFmt w (x.scaled && !stSat (chainSt x.chain))
    ++ badFmt w (x.dscl && (x.pol = 0 || (x.pol = 3 && x.opts % 256 = 255)
        || ((x.pol = 1 || x.pol = 2) && decide (Config.amaxIds ≤ x.d.tensorId.toNat))))

/-- The checks of one stream (R281 to R283, R293, R296, R297, R303, R543); a group of SMX is a trow of DST. A base other than 0
at a matrix port raises 0x1005, the model's choice (log 79). An XS field above 31, to which Table 7.14 gives no code, raises
0x1001, the model's choice (log 93). -/
def xpStreamChk (q : QEntry) (s : State) (x : XStream) : List Flt :=
  let w := q.w
  let d := x.d
  let matrix := x.kind = 1 || x.kind = 2
  let badChain := x.chainNo ≠ 0 && decide (x.chainNo ≤ 31) && chainBad x.chain x.one
  illegal w (decide (31 < x.chainNo))
  ++ (if x.chainNo = 0 || badChain then [(0x1006, w.low64)] else [])
  ++ xpStoreChk w x
  ++ (if matrix then badShape w (!d.valid) else s.checkOpnd w [if x.kind = 3 then .remote else .spad] x.o)
  ++ badFmt w (if matrix then
        d.at_ ≠ 0 || d.layout ≠ BitVec.ofNat 3 (x.kind + 1) || decide (4 < d.fmt) || !s.portFormat (x.kind - 1) d.fmt
      else d.fmt = 11 || d.fmt = 12)
  ++ badShape w (!(d.rk = 2 || d.rk = 3) || (q.usesRow && d.rk ≠ 2) || decide (1024 < d.n 2))
  ++ (if x.auxUsed then s.checkOpnd w [.spad] x.aux
        ++ badShape w (!x.aux.d.sameShape d) ++ badFmt w (decide (4 < x.aux.d.fmt)) else [])
  ++ (if x.scaled then s.checkOpnd w [.spad] x.scl
        ++ badShape w (!(if isMX d.fmt then planeOk x.scl.d d else byteOk x.scl.d)) else [])
  ++ badFmt w (chainSmx x.chain && decide (64 < cdiv (q.dst.n 0) 32))

/-- The checks of MERGE (R306). -/
def xpMergeChk (q : QEntry) (s : State) : List Flt :=
  let w := q.w
  [q.oDst, q.oSa, q.oSb].flatMap (s.checkOpnd w [.spad])
  ++ badShape w (w.sfmt ≠ q.sa.format || q.dst.fmt ≠ 0 || decide (1 < q.dst.layout.toNat) || q.dst.rk ≠ 2
    || q.sa.fmt ≠ 0 || !q.sa.sameShape q.dst || !spillOk q.sb q.trows)
  ++ spillBase q.oSb

/-- A row or column vector (R293): `need` elements at least. -/
def xpVecChk (q : QEntry) (s : State) (o : Opnd) (need : Nat) : List Flt :=
  s.checkOpnd q.w [.spad] o ++ badShape q.w (o.d.rk ≠ 1 || decide (o.d.n 0 < need)) ++ badFmt q.w (decide (2 < o.d.fmt))

/-- R278, R279 and Tables 7.2 to 7.4: a reserved value, or a field that is not used. -/
def xpBadWord (q : QEntry) : Bool :=
  let w := q.w
  let m := xpMerge w
  let sts := q.streams
  let rd := fun k => sts.any (fun x => chainReads x.chain k)
  let scl := fun one => sts.any (fun x => x.one = one && x.scaled)
  let aux := fun one => sts.any (fun x => x.one = one && x.auxUsed)
  let net := sts.any (fun x => x.kind = 3)
  let matrix := xpFeedEn w || sts.any (fun x => x.kind = 1 || x.kind = 2)
  let f := w.fn.toNat
  let A := auxDesc w
  let base := { clearCommon w with dst := 0, dfmt := 0, sfmt := 0, ftz := false, pred := 0, imm32 := 0, aux64 := 0 }
  let base := if m || aux false then { base with sa := 0 } else base
  let base := if m || xpS1 w then { base with sb := 0 } else base
  let base := if aux true then { base with sc := 0 } else base
  let base := if m then base else { base with xs := 0 }
  badBits w || unused base || w.commit || bitOf f 7 || decide (1 < f % 4) || bitsOf w.imm32.toNat 13 3 ≠ 0
  || xpRsi w = 3 || bitsOf w.aux64.toNat 0 4 ≠ 0
  || (m && (xpS1 w || bitsOf f 2 4 ≠ 0 || xpTag w ≠ 0)) || (!m && xpNrm w)
  || (!xpS1 w && (bitsOf f 4 2 ≠ 0 || xpX1 w ≠ 0))
  || (!xpFeedEn w && (xpFeedPort w ≠ 0 || A 6 ≠ 0)) || (!net && bitsOf w.aux64.toNat 48 11 ≠ 0)
  || (!matrix && xpOtag w ≠ 0)
  || (!rd 13 && A 42 ≠ 0) || (!rd 14 && A 36 ≠ 0) || (xpRsi w ≠ 1 && !xpSpl w && A 30 ≠ 0) || (!xpFin w && A 24 ≠ 0)
  || (!scl false && A 18 ≠ 0) || (!scl true && A 12 ≠ 0)

def xpSpillUsed (w : InsWord) : Bool := xpRsi w = 1 || xpSpl w

/-- The port of a stream's NET stores: nport (R308), but the peer port where the destination is the peer chip's, to which no other
path exists (00 R2): the model's reading (log 52). -/
def State.netPort (s : State) (w : InsWord) (d : Desc) : Nat := if s.peerDst d then 30 else xpNport w

/-- The ports that a T.XPR needs, in increasing number (R543): the fault names the lowest that is not UP (log 35). -/
def xpPorts (q : QEntry) (s : State) : List Nat :=
  let of1 := fun (x : XStream) => strided 2 1 (min 4 x.tiles)
    ++ (if x.kind = 1 || x.kind = 2 then [x.kind - 1] else []) ++ (if x.kind = 3 then [s.netPort q.w x.d] else [])
  (q.streams.flatMap of1 ++ (if xpFeedEn q.w then [xpFeedPort q.w] else [])).foldl insNat []

/-- Table 7.14 at head of issue. The feed's format is one that its port lists, else 0x1005, as at a destination (R283): the model's choice
(log 80). The lse tensor covers the rows of DST alone, also where the second stream's differ, the model's choice (log 93). -/
def xpChk (q : QEntry) (s : State) : List Flt :=
  let w := q.w
  let sts := q.streams
  let saUsed := xpMerge w || sts.any (fun x => !x.one && x.auxUsed)
  let most := fun k a => ((sts.filter (fun x => chainReads x.chain k)).map (fun x => x.d.n a)).foldl max 0
  illegal w (xpBadWord q)
  ++ badShape w (w.dfmt ≠ q.dst.format || (if saUsed then w.sfmt ≠ q.sa.format else w.sfmt ≠ 0))
  ++ sts.flatMap (xpStreamChk q s) ++ (if xpMerge w then xpMergeChk q s else [])
  ++ (if 0 < most 13 1 then xpVecChk q s q.xRowv (most 13 1) else [])
  ++ (if 0 < most 14 0 then xpVecChk q s q.xColv (most 14 0) else [])
  ++ badShape w (q.usesRow && decide (1024 < q.trows))
  ++ (if xpSpillUsed w then s.checkOpnd w [.spad] q.xSpill ++ badShape w (!spillOk q.xSpill.d q.trows)
        ++ spillBase q.xSpill else [])
  ++ (if xpFin w then s.checkOpnd w [.spad] q.xLse
        ++ badShape w (q.xLse.d.fmt ≠ 0 || q.xLse.d.rk ≠ 1 || q.xLse.d.n 0 ≠ q.dst.n 1) else [])
  ++ (if xpFeedEn w then s.checkOpnd w [.spad] q.xFeed
        ++ badFmt w (q.xFeed.d.layout ≠ BitVec.ofNat 3 (2 + xpFeedPort w) || !s.portFormat (xpFeedPort w) q.xFeed.d.fmt) else [])
  ++ (xpPorts q s).flatMap s.needPort ++ (if sts.any (fun x => x.kind = 3) then s.needTrig else [])

/-- The tensors a T.XPR reads from the scratchpad. -/
def xpSrcs (q : QEntry) : List Opnd :=
  let w := q.w
  let sts := q.streams
  let rd := fun k => sts.any (fun x => chainReads x.chain k)
  (if xpMerge w then [q.oDst, q.oSa, q.oSb] else [])
  ++ sts.flatMap (fun x => when x.auxUsed x.aux) ++ when (rd 13) q.xRowv ++ when (rd 14) q.xColv
  ++ when (xpRsi w = 1) q.xSpill ++ when (xpFeedEn w) q.xFeed

/-- The lines that a T.XPR reads of a source (R43): of a spill tensor its T rows (R301, R306), of ROWV and COLV the elements that
some stream reads (R293), of the others all. -/
def xpLines (q : QEntry) (_ : State) (o : Opnd) : Option (List Nat) :=
  let sts := q.streams
  let spill := fun (d : Desc) => (List.range q.trows).flatMap (fun r =>
    let a := d.bitAddr ⟨0, r, 0, 0⟩ / 8
    linesIn a (a + 384))
  let vec := fun (k a : Nat) =>
    let n := ((sts.filter (fun x => chainReads x.chain k)).map (fun x => x.d.n a)).foldl max 0
    (List.range n).flatMap (fun i => o.d.elemLines ⟨i, 0, 0, 0⟩)
  let parts : List (Bool × List Nat) :=
    [(xpMerge q.w && o = q.oSb, spill q.sb), (xpRsi q.w = 1 && o = q.xSpill, spill q.xSpill.d),
     (o = q.xRowv, vec 13 1), (o = q.xColv, vec 14 0)]
  if (xpFeedEn q.w && o = q.xFeed) || (o.role ≠ 4 && !parts.any (·.1)) then none
  else some ((parts.flatMap (fun p => if p.1 then p.2 else [])).foldl insNat [])

/-! ### Row state (R298 to R302, R313) -/

def State.rowEnt (s : State) (row : Nat) : RowEnt := AL.getD s.xp.rows row RowEnt.init
def State.putRow (s : State) (row : Nat) (e : RowEnt) : State := { s with xp := { s.xp with rows := AL.put s.xp.rows row e } }
def State.rowBad (s : State) (trow : Nat) : Bool := s.xp.rowPsn.contains trow
def State.setRowBad (s : State) (trow : Nat) (b : Bool) : State :=
  { s with xp := { s.xp with rowPsn := if b then insNat s.xp.rowPsn trow else s.xp.rowPsn.filter (· ≠ trow) } }

/-- INIT of trows 0 to T − 1. -/
def Xpr.initRows (x : Xpr) (T : Nat) : Xpr :=
  { x with rows := x.rows.filter (fun p => decide (32 * T ≤ p.1)), rowPsn := x.rowPsn.filter (fun r => decide (T ≤ r)) }

/-- Word `k` of spill row `r`. -/
def State.spillWord (s : State) (d : Desc) (r k : Nat) : W32 := BitVec.ofNat 32 (s.raw d ⟨k, r, 0, 0⟩)
/-- One of the three lines of spill row `r` is poisoned. -/
def State.spillBad (s : State) (d : Desc) (r : Nat) : Bool :=
  [0, 32, 64].any (fun k => s.psn (lineOf (d.bitAddr ⟨k, r, 0, 0⟩ / 8)))

/-- Entry `l` of spill row `r`, an input of the instruction (R116, R301). -/
def State.spillEnt (s : State) (d : Desc) (ftz : Bool) (r l : Nat) : RowEnt :=
  let word := fun k => ftz32 ftz (s.spillWord d r (32 * k + l))
  ⟨word 0, word 1, word 2⟩

/-- LOAD of trows 0 to T − 1 (R300, R116). -/
def State.loadRows (s : State) (d : Desc) (ftz : Bool) (T : Nat) : State :=
  (List.range T).foldl (fun s r =>
    ((List.range 32).foldl (fun s l => s.putRow (32 * r + l) (s.spillEnt d ftz r l)) s).setRowBad r (s.spillBad d r)) s

/-- Bit writes of spill row `r`. -/
def State.spillBits (s : State) (d : Desc) (r : Nat) : List BitW :=
  (List.range 32).flatMap (fun l =>
    let e := s.rowEnt (32 * r + l)
    [d.bitW ⟨l, r, 0, 0⟩ e.m.toNat, d.bitW ⟨32 + l, r, 0, 0⟩ e.l.toNat, d.bitW ⟨64 + l, r, 0, 0⟩ e.a.toNat])

/-- Spill and LSE2 at completion; lines of poisoned entries are written poisoned (R302, R313). A spill row takes the row state as
it stands, a subnormal word with it, the model's choice (log 64); LSE2 is a result that FTZ flushes (R116), of the rows of DST alone, also
where the second stream's differ, the model's choice (log 93). -/
def State.closeRows (s : State) (q : QEntry) : State :=
  let ok := q.w.poisonOk
  let T := q.trows
  let put := fun (s : State) (d : Desc) (bws : List (Nat × BitW)) =>
    let bad := (bws.filter (fun p => s.rowBad p.1)).flatMap (fun p => p.2.lines)
    s.putLines d (bws.map (·.2)) bad.contains (fun _ => 0) ok
  let s := if xpSpl q.w then
      put s q.xSpill.d ((List.range T).flatMap (fun r => (s.spillBits q.xSpill.d r).map (fun b => (r, b)))) else s
  if xpFin q.w then
    let rs := (List.range (q.dst.n 1)).map (fun row =>
      let e := s.rowEnt row
      let (g, f) := primX .log2 false false e.l
      let (v, h) := addX false q.w.ftz e.m g
      (row / 32, q.xLse.d.bitW ⟨row, 0, 0, 0⟩ v.toNat, f ||| h))
    (put s q.xLse.d (rs.map (fun r => (r.1, r.2.1)))).flag (orFlags (rs.map (fun r => r.2.2)))
  else s

/-! ### Online softmax and the merge (R303, R306) -/

def negInf : W32 := 0xFF80_0000#32

/-- The exponential of x relative to a maximum. -/
def xpRel (x m : W32) : W32 × Fl :=
  if x = negInf then (0, 0)
  else
    let (d, f) := subX false false x m
    let (p, g) := primX .exp2 false false d
    (p, f ||| g)

/-- SMX on the leaves of one row in column order: what each leaf receives, the new entry, the flags. -/
def smxRow (e : RowEnt) (xs : List (Option W32)) : List W32 × RowEnt × Fl :=
  let mn := maxF e.m ((tree maxOp xs).1.getD negInf)
  let (a, fa) := if mn = negInf then (K.one, 0) else xpRel e.m mn
  let ps := xs.map (fun o => o.map (fun x => xpRel x mn))
  let (sb, fs) := tree addOp (ps.map (fun o => o.map (·.1)))
  let (l, fl) := fmaX false false e.l a (sb.getD 0)
  (ps.map (fun o => (o.map (·.1)).getD 0), ⟨mn, l, a⟩, fa ||| orFlags (ps.map (fun o => (o.map (·.2)).getD 0)) ||| fs ||| fl)

/-- The merge of one row with the incoming (mj, lj): the new entry, the factors a and b, the flags. -/
def mergeRow (e : RowEnt) (mj lj : W32) : RowEnt × W32 × W32 × Fl :=
  let mn := maxF e.m mj
  let (a, fa) := if mn = negInf then (K.one, 0) else xpRel e.m mn
  let (b, fb) := if mn = negInf then (K.one, 0) else xpRel mj mn
  let (p, fp) := mulX false false lj b
  let (l, fl) := fmaX false false e.l a p
  (⟨mn, l, a⟩, a, b, fa ||| fb ||| fp ||| fl)

/-- One element of the merge: O ← fma(O, a, mul(Oj, b)), then times `r` where nrm = 1. R306 rounds each helper with FTZ = 0, and a
subnormal result goes to DST as it is, under FTZ = 1 too, which R116 would flush: the model's choice (log 89). -/
def mergeElem (o oj a b : W32) (r : Option W32) : W32 × Fl :=
  let (p, f) := mulX false false oj b
  let (v, g) := fmaX false false o a p
  match r with
  | none => (v, f ||| g)
  | some r => let (z, h) := mulX false false v r
              (z, f ||| g ||| h)

/-- What a MERGE makes of one trow: the new entries, whether the trow is poisoned, the elements written, the flags (R306, R314). -/
structure Merged where
  trow : Nat
  rows : List (Nat × RowEnt)
  bad : Bool
  es : List (Ix × Nat)
  fl : Fl
  deriving DecidableEq, Repr

/-- The rows of one trow of a MERGE. -/
def State.mergeTrow (s : State) (q : QEntry) (r : Nat) : Merged :=
  let w := q.w
  let d := q.dst
  let ix := fun row c => (⟨c, row, 0, 0⟩ : Ix)
  let rows := strided (32 * r) 1 (min 32 (d.n 1 - 32 * r))
  let xs := rows.flatMap (fun row => (List.range (d.n 0)).map (ix row))
  let bad := s.rowBad r || s.spillBad q.sb r
    || (!s.sp.psnLines.isEmpty && xs.any (fun x => s.elemPsn d x || s.elemPsn q.sa x))
  let f32 := fun (t : Desc) (x : Ix) => leaf32 (s.elem t false w.ftz x)
  let in_ := fun k row => leaf32 (ofF32z w.ftz (s.spillWord q.sb r (32 * k + row % 32)))
  let res := rows.map (fun row =>
    let (e, a, b, f) := mergeRow (s.rowEnt row) (in_ 0 row) (in_ 1 row)
    let (rc, g) : Option W32 × Fl := if xpNrm w then (let (z, h) := primX .rcp false false e.l; (some z, h)) else (none, 0)
    let es := (((List.range (d.n 0)).map (ix row)).filter (q.gate d)).map (fun x =>
      (x, mergeElem (f32 d x) (f32 q.sa x) a b rc))
    (row, e, es, f ||| g))
  ⟨r, res.map (fun t => (t.1, t.2.1)), bad, res.flatMap (fun t => t.2.2.1.map (fun p => (p.1, p.2.1.toNat))),
    orFlags (res.flatMap (fun t => t.2.2.2 :: t.2.2.1.map (fun p => p.2.2)))⟩

/-! ### Tiles through a chain (R287 to R296, R312) -/

/-- Where an element of a tile lies in the destination. -/
def Elem.ix (e : Elem) (h : HeldTile) : Ix := ⟨e.col, e.row, h.batch, 0⟩

/-- The elements of a tile within the destination, at the start of their chain. No step runs, and none sets a flag, on those beyond its
edge, which R295 does not write: the model's choice against R287's 'every element' (log 88). -/
def State.tileElems (s : State) (q : QEntry) (x : XStream) (h : HeldTile) : List Elem :=
  let d := x.d
  let rd := fun (t : Desc) (b : Bool) (i : Ix) =>
    if b then (leaf32 (s.elem t false false i), leaf32 (s.elem t false q.w.ftz i)) else (0, 0)
  let rv := chainReads x.chain 13
  let cv := chainReads x.chain 14
  (strided (32 * h.trow) 1 (min 32 (d.n 1 - 32 * h.trow))).flatMap (fun row =>
    let e := s.rowEnt row
    (strided (32 * h.tcol) 1 (min 32 (d.n 0 - 32 * h.tcol))).map (fun col =>
      let lane := col % 32
      { c := h.data.getD (32 * (row % 32) + lane) 0 :: List.replicate 7 0
        p := (List.range 16).map (fun k => decide (k = 0) || (AL.getD h.preds k 0).getLsbD lane)
        row := row, col := col
        aux := rd x.aux.d x.auxUsed ⟨col, row, h.batch, 0⟩
        rowv := rd q.xRowv.d rv ⟨row, 0, 0, 0⟩
        colv := rd q.xColv.d cv ⟨col, 0, 0, 0⟩
        rs := (e.m, e.l, e.a), fl := 0, out := none }))

/-- A tile enters its chain poisoned (R276, R312): its header, or a poisoned line that it reads. -/
def State.tileBad (s : State) (q : QEntry) (x : XStream) (h : HeldTile) (es : List Elem) : Bool :=
  let hit := fun (o : Desc) (i : Ix) => (o.elemLines i).any s.psn
  h.psn || (!s.sp.psnLines.isEmpty && es.any (fun e =>
    (x.auxUsed && hit x.aux.d (e.ix h)) || (chainReads x.chain 13 && hit q.xRowv.d ⟨e.row, 0, 0, 0⟩)
    || (chainReads x.chain 14 && hit q.xColv.d ⟨e.col, 0, 0, 0⟩)))

/-- What steps take for an element of a stream (R288). -/
def State.stepCtx (s : State) (q : QEntry) (x : XStream) (h : HeldTile) (e : Elem) : StepCtx :=
  let sr : SrCtx := ⟨s.sb.seed, x.d.tensorId, q.step⟩
  ⟨q.w.ftz, s.cfg.active.dfltRnd.toNat % 8, fun k => sr.rbits k (x.d.lin (e.ix h))⟩

def State.steps (s : State) (q : QEntry) (x : XStream) (h : HeldTile) (lo hi : Nat) (es : List Elem) : List Elem :=
  es.map (fun e => runSteps (s.stepCtx q x h e) x.chain lo hi e)

/-- One stored element: index, value, rounding, saturate, rounding bits. -/
structure Stored where
  ix : Ix
  v : W32
  rnd : Nat
  sat : Bool
  rb : Nat
  deriving DecidableEq, Repr

/-- What ST stores of a tile, under the PRED of the instruction as well (R291). PRED gates by the lane of the destination's word (R57), not
by the accumulator's column that the steps' predicates take (R269), where the two differ: the model's choice (log 88). -/
def State.stored (s : State) (q : QEntry) (x : XStream) (h : HeldTile) (es : List Elem) : List Stored :=
  es.filterMap (fun e => match e.out with
    | none => none
    | some (v, rnd, sat, k) =>
      if q.gate x.d (e.ix h) then
        some ⟨e.ix h, v, rnd, sat, if rnd = rSR then (s.stepCtx q x h e).rbits k else 0⟩ else none)

/-- Round what is stored into the destination's format (R295, R296): elements, scale bytes, flags. -/
def XStream.place (x : XStream) (ftz : Bool) (byte : Nat) (os : List Stored) : List (Ix × Nat) × List (Ix × Nat) × Fl :=
  let val := fun (o : Stored) => ofF32 o.v
  if isMX x.d.fmt then
    let rs := ((os.map (fun o => o.ix.block)).eraseDups).map (fun b =>
      let g := os.filter (fun o => o.ix.block = b)
      let m := (g.head?.map (fun o => (o.rnd, o.sat))).getD (0, true)
      (b, g, mxQuant x.d.fmt m.1 m.2 ftz (g.map (fun o => (val o, o.rb)))))
    (rs.flatMap (fun r => (r.2.1.map (·.ix)).zip r.2.2.2.1), rs.map (fun r => (r.1, r.2.2.1)),
      orFlags (rs.map (fun r => r.2.2.2.2)))
  else
    let rs := os.map (fun o => (o.ix, roundTo x.d.fmt false o.rnd o.sat ftz o.rb ((val o).scale (127 - (byte : Int)))))
    (rs.map (fun r => (r.1, r.2.1)), [], orFlags (rs.map (fun r => r.2.2)))

def XprProg.setStream (g : XprProg) (one : Bool) (t : XprStream) : XprProg :=
  if one then { g with st1 := t } else { g with st0 := t }

/-- The lines of a matrix port that a tile's elements fill (R277, R283, R327): number and bytes. The bits of an element that PRED or the
step's pred gates are zero in a line that other elements fill, and a line of which every element is gated is not sent: the model's choice
(log 101). -/
def portLines (d : Desc) (es : List (Ix × Nat)) : List (Nat × List Byte) :=
  let t := d.least
  let bws := es.map (fun p => t.bitW p.1 p.2)
  let m := bitsImage bws
  ((bws.flatMap BitW.lines).foldl insNat []).map (fun l => (l / 128, m.readBytes l 128))

/-- The bits that a stream has written of each line, after these writes (R357). -/
def noteCover (bws : List BitW) (m : AL Nat) : AL Nat :=
  ((bws.flatMap BitW.lines).foldl insNat []).foldl (fun m l => AL.put m l (AL.getD m l 0 + coverOn bws l)) m

/-- Store one tile at the end of its chain: into the scratchpad, to a matrix port, or to a network port (R295, R296, R308,
R312, R315, Table 14.4 source 2). A tile that only a kept, poisoned row-state entry poisons counts as a poisoned source line in R137: no
amax entry is appended and amax_skip is set, the model's choice (log 90). A NET store's trigger takes its value as it is posted. -/
def State.storeTile (s : State) (q : QEntry) (x : XStream) (g : XprProg) (h : HeldTile) (es : List Elem) (bad : Bool) :
    State × XprProg :=
  let d := x.d
  let t := g.stream x.one
  let os := s.stored q x h es
  let (ws, scs, f) := x.place q.w.ftz t.scale.toNat os
  let tiles := if bad then (es.flatMap (fun e => d.tilesOf (e.ix h))).eraseDups else []
  let A := amaxOf ((t.amax.map ofF32).toList ++ os.map (fun o => ofF32 o.v))
  let t := { t with
    run := t.run + 1
    amax := if os.isEmpty && t.amax.isNone then none else some (amaxEntry A)
    bad := (t.bad ++ tiles).eraseDups }
  let s := (s.flag (orFlags (es.map (·.fl)) ||| f)).updInst q.seq (fun i =>
    { i with worked := some s.tickW, readPoison := i.readPoison || (bad && !q.w.poisonOk) })
  let bws := ws.map (fun p => d.bitW p.1 p.2)
  let (s, t) :=
    if x.kind = 0 then
      let s := if h.psn && !q.w.poisonOk then ((bws.flatMap BitW.lines).foldl insNat []).foldl (fun s l => s.enterPoison 2 l) s else s
      (s.putLines d bws (t.bad.flatMap d.tileLines).contains (AL.getD t.lines · 0) q.w.poisonOk,
        { t with lines := noteCover bws t.lines })
    else if x.kind = 3 then
      let p := s.netPort q.w d
      let s := (remoteRuns bws).foldl (fun s r => s.send p (some q.seq) (s.rwriteMsg bad r.1 r.2)) s
      (s.send p (some q.seq) (.trigger (xpTrig q.w) 0), t)
    else
      ((portLines d ws).foldl (fun s l =>
        s.send (x.kind - 1) (some q.seq) (.operand bad (xpOtag q.w) (BitVec.ofNat 32 l.1) l.2)) s, t)
  let (s, t) :=
    if isMX d.fmt then
      let hit := if bad then scs.flatMap (fun b => x.scl.d.elemLines b.1) else []
      let badScale := hit.foldl insNat t.badScale
      let sws := scs.map (fun b => x.scl.d.bitW b.1 b.2)
      (s.putLines x.scl.d sws badScale.contains (AL.getD t.scales · 0) q.w.poisonOk,
        { t with badScale := badScale, scales := noteCover sws t.scales })
    else (s, t)
  (s, g.setStream x.one t)

/-- Run one tile of a chain without SMX. -/
def State.runTile (s : State) (q : QEntry) (x : XStream) (g : XprProg) (h : HeldTile) : State × XprProg :=
  let es := s.tileElems q x h
  let bad := s.tileBad q x h es || (q.usesRow && s.rowBad h.trow)
  s.storeTile q x g h (s.steps q x h 0 16 es) bad

/-- Run the group of one trow through a chain with SMX (R303, R304, R313). RM, RL or RA as the operand of the SMX step itself is the entry
before it, the model's choice (log 82). -/
def State.runSmx (s : State) (q : QEntry) (x : XStream) (g : XprProg) (trow : Nat) (hs : List HeldTile) : State × XprProg :=
  let k := smxAt x.chain
  let w := x.chain.getD k 0
  let st := hs.map (fun h => let es := s.tileElems q x h
    (h, s.tileBad q x h es, s.steps q x h 0 k es))
  let bad := st.any (fun t => t.2.1) || s.rowBad trow
  let all := st.flatMap (fun t => t.2.2)
  let rows := (strided (32 * trow) 1 (min 32 (x.d.n 1 - 32 * trow))).map (fun row =>
    let xs := (all.filter (fun e => e.row = row)).map (fun e =>
      if e.p.getD (stPred w) true then some (e.operand (stSa w) (stImm w)) else none)
    (row, smxRow (s.rowEnt row) xs))
  let s := (rows.foldl (fun s r => s.putRow r.1 r.2.2.1) s).setRowBad trow bad
  let s := s.flag (orFlags (rows.map (fun r => r.2.2.2)))
  st.foldl (fun (r : State × XprProg) t =>
    let es := t.2.2.map (fun e =>
      let z := ((rows.find? (fun y => y.1 = e.row)).map (·.2)).getD ([], RowEnt.init, 0)
      { e with c := e.c.set (stDst w) (z.1.getD e.col 0), rs := (z.2.1.m, z.2.1.l, z.2.1.a) })
    r.1.storeTile q x r.2 t.1 (r.1.steps q x t.1 (k + 1) 16 es) bad) (s, g)

/-- Run what is ready: the tile that has just come, a group that is whole, tiles held for an SMX (R294, R303). A stream-1 tile of a trow in
which stream 0 has no tile waits for an SMX that does not come, the model's choice (log 83). -/
def State.runReady (s : State) (q : QEntry) (g : XprProg) (h : HeldTile) : State × XprProg :=
  match q.streams with
  | [] => (s, g)
  | x0 :: more =>
    let x1 := more.head?.getD x0
    let smx := chainSmx x0.chain
    if h.stream then
      if smx && !g.smxDone.contains h.trow then (s, { g with held := g.held ++ [h] }) else s.runTile q x1 g h
    else if !smx then s.runTile q x0 g h
    else
      let held := g.held ++ [h]
      let mine := held.filter (fun t => !t.stream && t.trow = h.trow)
      if mine.length < x0.cols then (s, { g with held := held })
      else
        let cols := (List.range x0.cols).flatMap (fun c => mine.filter (fun t => t.tcol = c))
        let late := held.filter (fun t => t.stream && t.trow = h.trow)
        let g := { g with held := held.filter (fun t => t.trow ≠ h.trow), smxDone := insNat g.smxDone h.trow }
        late.foldl (fun (r : State × XprProg) t => r.1.runTile q x1 r.2 t) (s.runSmx q x0 g h.trow cols)

/-! ### Completion (R285, R295, R296, R302, R308) -/

/-- The lines written in a tile that became poisoned take the bit, the scale byte is written, the amax is kept. -/
def State.closeStream (s : State) (q : QEntry) (x : XStream) (t : XprStream) : State :=
  let d := x.d
  let bad := t.bad.flatMap d.tileLines
  let hit := if q.w.poisonOk || x.kind ≠ 0 then [] else (t.lines.map (·.1)).filter (fun l => bad.contains l)
  let s := { s with sp := hit.foldl (fun sp l => sp.setPsn l true) s.sp }
  let A := (t.amax.map ofF32).getD (amaxOf [])
  let s := if x.dscl then
      let s := s.putScales x.scl.d [((⟨0, 0, 0, 0⟩ : Ix), t.scale.toNat)] (fun _ => false) q.w.poisonOk
      if scaleMiss A t.scale.toNat d.fmt false then s.fcMissed else s
    else s
  if gathersAmax d.fmt then
    s.updInst q.seq (fun i => { i with amax := i.amax ++ [(d.tensorId.toNat, amaxEntry A)] })
  else s

/-- The lines of the row state that a T.XPR writes as it completes: its spill rows and LSE2 of the rows of DST. -/
def rowWrites (q : QEntry) : List Nat :=
  (if xpSpl q.w then (List.range q.trows).flatMap (fun r => let a := q.xSpill.d.bitAddr ⟨0, r, 0, 0⟩ / 8; linesIn a (a + 384)) else [])
  ++ (if xpFin q.w then q.xLse.d.linesOf ((List.range (q.dst.n 1)).map (fun r => ⟨r, 0, 0, 0⟩)) else [])

/-- The lines that a STREAM writes once its last tile has run: of the row state, and of its scale bytes. -/
def closeWrites (q : QEntry) : List Nat :=
  rowWrites q ++ q.streams.flatMap (fun x => if x.dscl then x.scl.d.linesOf [⟨0, 0, 0, 0⟩] else [])

/-- The T.XPR in flight that has only its last trigger to post, once all that it sends has left. -/
def State.lastDue (s : State) : Option (Nat × Byte) :=
  s.fl.findSome? (fun f => match f.prog with
    | .lastTrig id => if s.sentAll f.q.seq then some (f.q.seq, id) else none
    | _ => none)

/-- At its completion a T.XPR with a NET stream posts its trigger once more, with the count and the done mark (R285, R308). -/
def State.postLast (s : State) : State :=
  match s.lastDue with
  | some (seq, id) => (s.setProg seq .idle).handOver (some seq) id (BitVec.ofNat 64 (2 ^ 63 + s.yd.netSent))
  | none => s

/-- The last tile has run: what a T.XPR does then, and, where nothing of it waits at a port, its last trigger. -/
def State.closeXpr (s : State) (q : QEntry) (g : XprProg) : State :=
  let s := (q.streams.foldl (fun s x => s.closeStream q x (g.stream x.one)) s).closeRows q
  if q.streams.any (fun x => x.kind = 3) then
    (s.setProg q.seq (.lastTrig (xpTrig q.w))).postLast
  else s.setProg q.seq .idle

/-! ### Start -/

/-- The lines that a stream has written since `old`. -/
def XprStream.newLines (t old : XprStream) : List Nat :=
  (t.lines.filter (fun p => AL.getD old.lines p.1 0 ≠ p.2)).map (·.1) ++ (t.scales.filter (fun p => AL.getD old.scales p.1 0 ≠ p.2)).map (·.1)

/-- Run the tiles that have come, in their order; one that would write a line that the scrub has not reached waits (09 R402). -/
def State.runTiles (s : State) (q : QEntry) (g : XprProg) : State × XprProg :=
  g.waiting.foldl (fun (r : State × XprProg) h =>
    let t := r.1.runReady q r.2 h
    if r.1.scrubLines (t.2.st0.newLines r.2.st0 ++ t.2.st1.newLines r.2.st1) then (r.1, { r.2 with waiting := r.2.waiting ++ [h] }) else t)
    (s, { g with waiting := [] })

/-- Every tile has run, and what is written then waits for no line that the scrub has not reached. -/
def State.canClose (s : State) (q : QEntry) (g : XprProg) : Bool :=
  decide (g.st0.run + g.st1.run = (q.streams.map XStream.tiles).sum) && !s.scrubLines (closeWrites q)

/-- Run what can run, and complete the STREAM when all has. -/
def State.goTiles (s : State) (q : QEntry) (g : XprProg) : State :=
  let (s, g) := s.runTiles q g
  if s.canClose q g then s.closeXpr q g else s.setProg q.seq (.xpr g)

/-- The STREAM in flight whose tiles, or whose end, wait for the scrub no longer. -/
def State.tilesFreed (s : State) : Option (QEntry × XprProg) :=
  s.fl.findSome? (fun f => match f.prog with
    | .xpr g =>
      if g.waiting.isEmpty && g.left.any (· ≠ 0) then none
      else
      let (t, h) := s.runTiles f.q g
      if h.waiting.length < g.waiting.length || t.canClose f.q h then some (f.q, g) else none
    | _ => none)

/-- Grant credits of an intake port (R273). -/
def State.grant (s : State) (p n : Nat) : State :=
  let r := s.port p
  (s.setPort p { r with rxFree := r.rxFree - n, rxOut := r.rxOut + n }).credits p n

/-- Grant what each intake port may hold out: no more than the tiles still to arrive there. -/
def State.grantIntake (s : State) (g : XprProg) : State × XprProg :=
  (List.range 4).foldl (fun (r : State × XprProg) i =>
    let n := min (r.2.left.getD i 0 - r.2.granted.getD i 0) (r.1.port (2 + i)).rxFree
    (r.1.grant (2 + i) n, { r.2 with granted := r.2.granted.set i (r.2.granted.getD i 0 + n) })) (s, g)

/-- The per-tensor scale byte is chosen at the start (R138, R296). -/
def State.scaleOf (s : State) (x : XStream) : Nat × Fl :=
  if !x.dscl then (127, 0)
  else if x.pol = 3 then (x.opts % 256, 0)
  else s.policyByte x.pol x.d.tensorId.toNat x.d.fmt false

def State.freshStream (s : State) (x : Option XStream) : XprStream :=
  ⟨[0, 1, 2, 3], 0, BitVec.ofNat 8 ((x.map (fun x => (s.scaleOf x).1)).getD 127), none, [], [], [], []⟩

/-- rsi and the feed, at the start of either mode (R284, R300). -/
def State.openXpr (s : State) (q : QEntry) : State :=
  let T := q.trows
  let s := if xpRsi q.w = 0 then { s with xp := s.xp.initRows T }
    else if xpRsi q.w = 1 then s.loadRows q.xSpill.d q.w.ftz T else s
  if xpFeedEn q.w then s.sendTensor (xpFeedPort q.w) q.seq q.xFeed.d (xpOtag q.w) else s

def streamRun (q : QEntry) (s : State) : State :=
  let sts := q.streams
  let s := s.openXpr q
  let g : XprProg := ⟨s.freshStream (sts.find? (fun x => !x.one)), s.freshStream (sts.find? (·.one)), [0, 0, 0, 0],
    (List.range 4).map (fun i => (sts.map (fun x => x.onPort i)).sum), [], [], [], s.tickW, s.xp.stall.toNat⟩
  let s := s.flag (orFlags (sts.map (fun x => (s.scaleOf x).2)))
  let (s, g) := { s with yd := { s.yd with netSent := 0 } }.grantIntake g
  s.setProg q.seq (.xpr g)

/-- The effect of MERGE: every trow reads DST and the spill rows as they stood, then the elements are written at once. -/
def mergeRun (q : QEntry) (s : State) : State :=
  let s := s.openXpr q
  let ms := (List.range q.trows).map (s.mergeTrow q)
  let s := ms.foldl (fun s m => (m.rows.foldl (fun s r => s.putRow r.1 r.2) s).setRowBad m.trow m.bad) s
  ((s.putElems q.dst (ms.flatMap (·.es)) (fun t => ms.any (fun m => m.bad && decide (m.trow = t.tr))) q.w.poisonOk).flag
    (orFlags (ms.map (·.fl)))).closeRows q

/-- R280: an earlier T.XPR is in flight. -/
def xpHold (_ : QEntry) (s : State) : Bool := s.fl.any (fun f => f.q.w.opc = 0x38)

/-- A STREAM writes nothing as it starts: its tiles test their own lines as they run. -/
def streamOp : TOp := { plainOp xpSrcs QEntry.xOuts streamRun with hold := xpHold, lines := xpLines, writes := fun _ _ => [] }
def mergeOp : TOp :=
  { plainOp xpSrcs QEntry.xOuts mergeRun with
    hold := xpHold, lines := xpLines, writes := fun q _ => lineRanges (q.written q.oDst ++ rowWrites q) }

def execStream (w : InsWord) (s : State) : Out := tensorRow (.stream w) w s (xpAuxLo.map (auxDesc w)) xpChk streamOp
def execMerge (w : InsWord) (s : State) : Out := tensorRow (.merge w) w s (xpAuxLo.map (auxDesc w)) xpChk mergeOp

/-! ### Arriving tiles (R271 to R276) -/

/-- The STREAM-mode T.XPR in flight. -/
def State.xprInFlight (s : State) : Option Inflight :=
  s.fl.find? (fun f => f.q.w.opc = 0x38 && !xpMerge f.q.w)

/-- A tile is rejected: counted, its header recorded, 0x6006 (R272, R274). -/
def State.rejectTile (s : State) (hdr : W64) : State :=
  let s := { s with xp := { s.xp with hdrErr := satAdd s.xp.hdrErr 1, hdr := hdr } }
  match s.xprInFlight with
  | some f => s.raiseHalt f.q.seq f.q.pc 0x6006 hdr
  | none => s.logOnly 0x6006 hdr

/-- The tile number that a header names in its stream, where the header keeps R272. -/
def tileNumber (q : QEntry) (hdr : Nat) : Option (Bool × Nat) :=
  let one := bitOf hdr 45
  let b := bitsOf hdr 30 10
  let tr := bitsOf hdr 15 15
  let tc := bitsOf hdr 0 15
  match q.streams.find? (fun x => x.one = one) with
  | none => none
  | some x =>
    if bitsOf hdr 48 16 = xpTag q.w && !bitOf hdr 46 && bitsOf hdr 40 5 = 0 && decide (b < x.d.n 2 ∧ tr < x.rows ∧ tc < x.cols)
    then some (one, tc + x.cols * (tr + x.rows * b)) else none

/-- A tile with a credit of the T.XPR in flight. -/
def State.takeTile (s : State) (f : Inflight) (g : XprProg) (p : Nat) (hdr : W64) (data : List W32) : State :=
  let q := f.q
  let i := p - 2
  let h := hdr.toNat
  let spend := { g with granted := g.granted.set i (g.granted.getD i 0 - 1) }
  let r := s.port p
  let s := s.setPort p { r with rxOut := r.rxOut - 1, rxFree := r.rxFree + 1 }
  let ok := (tileNumber q h).filter (fun t => (g.stream t.1).next.getD i 0 = t.2)
  match ok with
  | none =>
    let (s, g) := s.grantIntake spend
    (s.setProg q.seq (.xpr g)).rejectTile hdr
  | some (one, _) =>
    let t := g.stream one
    let g := { spend.setStream one { t with next := t.next.set i (t.next.getD i 0 + 4) } with
      left := g.left.set i (g.left.getD i 0 - 1), lastTick := s.tickW, limit := s.xp.stall.toNat }
    let s := { s with xp := { s.xp with tiles := satAdd s.xp.tiles 1 } }
    let (s, g) := s.grantIntake g
    let psn := bitOf h 47
    let tile : HeldTile := ⟨one, bitsOf h 30 10, bitsOf h 15 15, bitsOf h 0 15, psn, q.preds, data⟩
    s.goTiles q { g with waiting := g.waiting ++ [tile] }

/-- A tile arrives on an intake port. -/
def State.tileArrives (s : State) (p : Nat) (hdr : W64) (data : List W32) : State :=
  let left := AL.getD s.xp.discard p 0
  if 0 < left then
    let r := s.port p
    { s.setPort p { r with rxOut := r.rxOut - 1, rxFree := r.rxFree + 1 } with
      xp := { s.xp with discard := AL.put s.xp.discard p (left - 1) } }
  else match s.xprInFlight with
    | none => s.rejectTile hdr
    | some f => match f.prog with
      | .xpr g => if g.granted.getD (p - 2) 0 = 0 then s.rejectTile hdr else s.takeTile f g p hdr data
      | _ => s.rejectTile hdr

end Sys2Proof.Machine
end

