-- ==== Sys2Proof/Machine/Start.lean ====
section
/-! DEFINITION. The tensor queue's own events: room, start, the end of a presence wait, completion, and the waits that end at
a tick (02 R61 to R80, R636; 03 R136; 10 R424, R431). -/

namespace Sys2Proof.Machine

/-! ### What each class says of itself -/

/-- The class of a tensor instruction; none for a scalar one. -/
def opOf (i : Instr) : Option TOp :=
  match i with
  | .binary _ | .unary _ | .ternary _ | .compareAndSelect _ | .specialFunctions _ => some ewOp
  | .tCvt _ => some cvtOp
  | .tRed _ => some tRedOp
  | .tNorm _ => some normOp
  | .topk _ => some topkOp
  | .hist _ => some histOp
  | .dispatch _ => some dispOp
  | .smax _ => some smaxOp
  | .lse _ => some lseOp
  | .tDot _ => some dotOp
  | .stream _ => some streamOp
  | .merge _ => some mergeOp
  | .tCopy _ => some copyOp
  | .tGath _ => some (gsOp gathRun)
  | .scatter _ => some (gsOp scatterRun)
  | .scatterAdd _ => some (gsOp scatterAddRun)
  | .tXfer _ | .offl _ | .reld _ => some moveOp
  | .winOpen _ => some openOp
  | .winClose _ => some closeOp
  | .winExpect _ => some expectOp
  | .waitcl _ => some waitclOp
  | .claim _ => some claimOp
  | .contrib _ => some contribOp
  | .collect _ => some collectOp
  | .release _ => some releaseOp
  | .fwd _ => some fwdOp
  | .post _ => some postOp
  | .trigWait _ => some waitOp
  | .tickBarrier _ => some barrierOp
  | .windowCheck _ => some windowOp
  | .tMark _ => some markOp
  | .powerDown _ => some downOp
  | .powerUp _ => some upOp
  | .zero _ => some zeroOp
  | .record _ => some (plainOp (fun q => [q.oSa]) (fun q => [q.oSb]) recordRun)
  | .check _ => some (plainOp (fun q => [q.oSa, q.oSb]) (fun _ => []) checkRun)
  | _ => none

/-- The descriptors that an instruction names in AUX64 (R55). -/
def auxOf (i : Instr) : List Nat :=
  match i with
  | .tNorm w => if normStats w then [auxDesc w 8] else []
  | .topk w => if topkVal w then [auxDesc w 0] else []
  | .dispatch w => (if dispCnt w then [auxDesc w 0] else []) ++ (if dispPos w then [auxDesc w 8] else [])
  | .tDot w => if dotMX w then [auxDesc w 0, auxDesc w 8] else []
  | .stream w | .merge w => xpAuxLo.map (auxDesc w)
  | _ => []

/-- Do `k` with the class of the front of the tensor queue. -/
def State.withFront (s : State) (k : TOp → State) : State :=
  match s.tq.head?.bind (fun q => opOf q.w.toInstr) with
  | some op => k op
  | none => s

/-- Note the tick at which the front of the queue may start. -/
def State.noteFront (s : State) : State := s.withFront s.noteAllowed
/-- Start the front of the queue if nothing holds it. -/
def State.startFront (s : State) : State := (s.withFront s.tryStart).noteFront
/-- A presence wait of the front that is over its grace ends. -/
def State.graceFront (s : State) : State := s.withFront s.presenceDue

/-! ### Room in the queue, start, and the presence grace -/

/-- TENSOR_QUEUE_ROOM: a tensor instruction that waits at a full queue enters it (R61). -/
def State.enterQueue (s : State) : State :=
  match s.sb.wait with
  | none => s
  | some w =>
    match opOf w.toInstr with
    | none => s
    | some op =>
      if Config.queueRoom ≤ s.tq.length || s.ft.halting.isSome || s.job.kill.isSome then s
      else
        let q := s.entry w (auxOf w.toInstr)
        let first := s.tq.isEmpty
        let s := { s.advance with tq := s.tq ++ [q], live := { s.live with issued := s.live.issued + 1 } }
        let s := { s with sb := { s.sb with nextSeq := s.sb.nextSeq + 1, wait := none } }
        if first then s.tryStart op else s

def execTensorQueueRoom (s : State) : Out := .next s.enterQueue

/-- The tick before which the front may not start: its start tick, once its class allows it (R73). -/
def State.frontTick (s : State) : Nat :=
  match s.tq with
  | [] => 0
  | q :: _ => if q.readyAt.isSome then (q.startAt.getD 0).toNat else 0

/-- INSTRUCTION_START: the front becomes ready, waits for its start tick, and starts, unless a presence wait holds it or has
ended (R73 to R80). -/
def execInstructionStart (s : State) : Out :=
  let s := s.noteFront
  .next ((s.elapseTo s.frontTick).graceFront.startFront)

/-! ### Completion (R65, R66, R136, R137, R413) -/

/-- What the instruction itself still waits for has come. -/
def State.progDone (s : State) (f : Inflight) : Bool :=
  match f.prog with
  | .idle => true
  | .scrub => false
  | .offl _ _ => !s.scrubLines (f.q.sb.linesOf f.q.sb.ixs)
  | .untilTick t => decide (t.toNat ≤ s.now)
  | .waitcl w => (s.window w).state s.now = 0
  | .trigWait c t _ _ => reached (s.evt c).count t
  | .spad gs => s.spadDone f.q.w.fn gs
  | .claim _ _ => false
  | .xpr _ => false
  | .coll _ => false
  | .dma _ => false
  | .presence .. => false
  | .lastTrig .. => false

/-- Nothing of the instruction waits at a port, at the yard or for an answer. -/
def State.quiet (s : State) (seq : Nat) : Bool :=
  s.sentAll seq
  && !(s.reqs.any (fun r => r.waits && r.owner = some seq))
  && !(s.yd.trigs.any (fun t => t.owner = some seq))
  && !(s.yd.held.any (fun h => h.owner = some seq))
  && !(s.xf.parked.any (fun x => match x with | .chunk own .. => own = some seq | _ => false))

/-- The instruction can complete, once it is the oldest. -/
def State.instDone (s : State) (f : Inflight) : Bool := s.progDone f && s.quiet f.q.seq

/-- The scratchpad operands that an instruction in flight reads, and those it writes. -/
def Inflight.reads (f : Inflight) : List Opnd := ((opOf f.q.w.toInstr).map (fun op => spadOnly (op.srcs f.q))).getD []
def Inflight.writes (f : Inflight) : List Opnd := ((opOf f.q.w.toInstr).map (fun op => spadOnly (op.outs f.q))).getD []

/-- Two instructions in flight together are not independent: one writes what the other reads or writes (R69, R97). -/
def Inflight.clashes (f g : Inflight) : Bool :=
  f.writes.any (fun o => (g.reads ++ g.writes).any (fun a => o.d.meets a.d)) || g.writes.any (fun o => f.reads.any (fun a => o.d.meets a.d))

/-- The results of the oldest instruction and of those that ran beside it under a false OVL are free values, as is what a STREAM
T.XPR or an OPC 0x49 whose own operands meet has written since its start (R3, R69, R99, log 47). -/
def State.unspecifyClashes (s : State) (f : Inflight) (rest : List Inflight) : State :=
  let gs := rest.filter (fun g => f.clashes g)
  let own := (f.q.w.opc = 0x38 || f.q.w.opc = 0x49) && f.prog = .idle && f.q.misread f.reads f.writes
  let s := if own || !gs.isEmpty then s.unspecify f.q f.writes else s
  gs.foldl (fun s g => s.unspecify g.q g.writes) s

/-- The effects of completion: a T.OFFL's record, the amax entries, the trace records and the count. -/
def State.finish (s : State) (f : Inflight) : State :=
  let s := match f.prog with
    | .offl crc psn =>
      let s := s.writeRecord f.q crc psn
      if f.q.misread f.reads f.writes then s.scrambleDesc f.q.sb else s
    | _ => s
  let s := if f.readPoison then (if f.amax.any (fun p => decide (p.1 < Config.amaxIds)) then s.flag flAmaxSkip else s)
    else f.amax.foldl (fun s p => s.appendAmax p.1 p.2) s
  let s := if f.q.w.tmark then s.trace 2 f.q.tracePayload else s
  let s := if f.q.w.opc = 0x60 && f.q.w.fn = 0 then s.trace 3 (f.q.pc.toNat * 2 ^ 41 + f.q.w.imm32.toNat) else s
  { s with fl := s.fl.tail, live := { s.live with completed := s.live.completed + 1 } }

/-- TENSOR_INSTRUCTION_COMPLETE: the oldest instruction in flight completes; what waited for that goes on: a scalar
instruction, a halt, the front of the queue (R44, R50, R66, R67, R92, R153). -/
def State.completeOldest (s : State) : State :=
  match s.fl with
  | [] => s
  | f :: rest =>
    if s.instDone f then
      let s := s.unspecifyClashes f rest
      (s.finish (s.fl.headD f)).settleHalt.resumeScalar.noteFront
    else s

def execTensorInstructionComplete (s : State) : Out := .next s.completeOldest

/-! ### Waits that end at a tick -/

/-- WAITT_TICK_REACHED: the tick of the oldest barrier comes and the barrier completes (R636). -/
def State.barrierReached (s : State) : State :=
  match s.fl with
  | f :: _ => match f.prog with
    | .untilTick t => (s.elapseTo t.toNat).completeOldest
    | _ => s
  | [] => s

def execWaittTickReached (s : State) : Out := .next s.barrierReached

/-- WINDOW_CLOSE_TICK: the tick reaches close_ts and the window is DRAINING (R424). -/
def State.closeTick (s : State) (i : Nat) : State :=
  let x := s.window i
  if x.openTs ≠ none64 && x.closeTs ≠ none64 then s.elapseTo x.closeTs.toNat else s

def execWindowCloseTick (win : BitVec 5) (s : State) : Out := .next (s.closeTick win.toNat)

/-- DRAIN_END: the drain grace ends, the window is CLOSED, and a WAITCL on it completes when it is the oldest (R424, R431). -/
def State.drainEnds (s : State) (i : Nat) : State :=
  let x := s.window i
  if x.openTs ≠ none64 && x.closeTs ≠ none64 then
    let s := s.elapseTo (x.closeTs.toNat + x.drain.toNat)
    match s.fl with
    | f :: _ => if f.prog = .waitcl i then s.completeOldest else s
    | [] => s
  else s

def execDrainEnd (win : BitVec 5) (s : State) : Out := .next (s.drainEnds win.toNat)

/-! ### Remote writes (10 R432 to R438) -/

/-- `accept` of R432. -/
def Window.accept (x : Window) (h : RwHdr) (now : Nat) : Nat :=
  let st := h.stamp.toNat
  let off := bitsOf h.addr.toNat 0 27
  let n := 4 * (h.lenM1.toNat + 1)
  if x.openTs = none64 then 1
  else if before40 st (x.openTs.toNat % 2 ^ 40) then 1
  else if x.closeTs ≠ none64 ∧ ¬ before40 st (x.closeTs.toNat % 2 ^ 40) then 1
  else if x.closeTs ≠ none64 ∧ x.closeTs.toNat + x.drain.toNat ≤ now then 4
  else if h.sender.toNat < x.sndLo.toNat ∨ x.sndHi.toNat < h.sender.toNat then 3
  else if off % 4 ≠ 0 ∨ 128 < off % 128 + n ∨ 128 * (x.linesM1.toNat + 1) < off + n then 2
  else if h.psn && !x.psnOk then 5
  else 0

/-- The answer code: 2 for a header error (14 Table 14.6), else R432's. -/
def State.judgeWrite (s : State) (h : RwHdr) (words : List W32) : Nat :=
  if h.resHi ≠ 0 ∨ h.resLo ≠ 0 ∨ bitsOf h.addr.toNat 32 12 ≠ s.job.chipId.toNat ∨ words.length ≠ h.lenM1.toNat + 1 then 2
  else (s.window (bitsOf h.addr.toNat 27 5)).accept h s.now

/-- The waits for presence that the arrived bytes end (R78). -/
def State.writesStored (s : State) : State := s.settlePresence.startFront

/-- A remote write is judged, recorded, stored or refused, and answered. One to store in a line that the scrub has not reached waits
(09 R402). -/
def State.writeArrives (s : State) (p : Nat) (h : RwHdr) (words : List W32) : State :=
  let i := bitsOf h.addr.toNat 27 5
  let code := s.judgeWrite h words
  let a := (s.window i).base.toNat + bitsOf h.addr.toNat 0 27
  let s := if (s.window i).trace then
      s.trace 4 (i * 2 ^ 55 + code * 2 ^ 52 + h.sender.toNat * 2 ^ 40 + h.stamp.toNat)
    else s
  let s := if code = 1 then s.nackOne i else s
  if (code = 0 || code = 5) && s.scrubRange a (a + 4 * words.length) then
    { s with xf := { s.xf with parked := s.xf.parked ++ [.write p h words code a] } }
  else (s.landWrite p h words code a).writesStored

/-- The scrub has passed what an arrival or a patrol read waits for. -/
def State.freed (s : State) (x : Parked) : Bool :=
  match x with
  | .write _ _ ws _ a => !s.scrubRange a (a + 4 * ws.length)
  | .chunk _ _ h _ _ => !s.scrubChunk h
  | .patrol l _ _ => !s.scrubRange l (l + 128)

/-- Patrol comes after every other requester at one line (09 R377). -/
def Parked.isPatrol (x : Parked) : Bool := match x with | .patrol .. => true | _ => false

/-- What `sel` names of all that waited for the scrub, which has passed it, takes effect in its order (09 R402). -/
def State.unpark (s : State) (sel : Parked → Bool) : State :=
  let mine := s.xf.parked.filter (fun x => sel x && s.freed x)
  let s := { s with xf := { s.xf with parked := s.xf.parked.filter (fun x => !(sel x && s.freed x)) } }
  mine.foldl (fun s x => match x with
    | .write p h ws code a => (s.landWrite p h ws code a).writesStored
    | .chunk own p h pl since => (s.arrive own p h pl (some since)).yardSettle
    | .patrol l found copies => s.patrolLine l found copies) s

/-- The arrivals at the ports that the scrub has passed. -/
def State.portsFreed (s : State) : Bool := s.xf.parked.any (fun x => !x.isPatrol && s.freed x)
/-- The patrol reads that it has passed. -/
def State.patrolFreed (s : State) : Bool := s.xf.parked.any (fun x => x.isPatrol && s.freed x)

/-- The first instruction in flight whose accesses waited for the scrub, which has passed them all, with its class. -/
def State.workFreed (s : State) : Option (QEntry × TOp) :=
  s.fl.findSome? (fun f => if f.prog = .scrub then
    (opOf f.q.w.toInstr).bind (fun op => if s.scrubWaits op f.q then none else some (f.q, op)) else none)

/-- It makes them now (09 R402); array work takes the tick in which it is made (log 9). -/
def State.workNow (s : State) (q : QEntry) (op : TOp) : State :=
  ((s.setProg q.seq .idle).work op q).updInst q.seq (fun f => if f.prog = .idle then { f with worked := some s.tickW } else f)

/-- A COLLECT whose chunk waited for the scrub. -/
def State.collFreed (s : State) : Bool :=
  s.fl.any (fun f => match f.prog with
    | .coll c => (s.chunkReady f.q c).isSome && !s.scrubLines (collNext f.q c)
    | _ => false)

/-! ### What is due -/

/-- What happens when a condition holds. -/
abbrev Act := (State → Bool) × (State → State)

/-- The first of these that is due happens. -/
def firstDue : List Act → State → Option State
  | [], _ => none
  | (c, f) :: r, s => if c s then some (f s) else firstDue r s

/-- At most `k` of these happen, one after another, while one is due. -/
def runDue (acts : List Act) : Nat → State → State
  | 0, s => s
  | k + 1, s => match firstDue acts s with
    | none => s
    | some t => runDue acts k t

/-- More than can fall due at one TCLK: each act uses up something that waits, or a move of an instruction. -/
def State.dueFuel (s : State) : Nat :=
  256 + 4 * (s.reqs.length + (s.ports.map (fun p => p.2.txq.length)).sum + s.yd.trigs.length + s.yd.held.length + s.xf.parked.length)

/-- What waited for the scrub goes on, in the order of 09 R377: the ports, then the array. -/
def scrubActs : List Act :=
  [(State.portsFreed, fun s => s.unpark (fun x => !x.isPatrol)),
   (fun s => s.workFreed.isSome, fun s => match s.workFreed with | some (q, op) => s.workNow q op | none => s),
   (fun s => s.tilesFreed.isSome, fun s => match s.tilesFreed with | some (q, g) => s.goTiles q g | none => s),
   (fun s => s.moveFreed.isSome, fun s => match s.moveFreed with | some (q, d) => s.finishMove q d | none => s),
   (State.collFreed, State.yardSettle)]

end Sys2Proof.Machine
end

