-- ==== Sys2Proof/Machine/Units.lean ====
section
/-! DEFINITION. Units and their reserves: what is in service, the substitution pass, the monitors and the prediction, the
patrol and the ECC write-back (09 R381 to R389; 14 R540 to R542; 16 R574 to R591). -/

namespace Sys2Proof.Machine

/-! ### The distance table (R369, R381 to R384) -/

/-- R369. -/
def geo (s k : Nat) : Nat := if s = k then 0 else if s / 32 = k / 32 then 1 else if s / 64 = k / 64 then 2 else 3

/-- The districts of the attach points, rows 128 to 142 (Table 9.3). -/
def attach : List Nat := [31, 32, 15, 47, 79, 111, 7, 39, 71, 103, 64, 96, 127, 95, 0]

/-- The districts in which the banks that serve district `k` lie. -/
def State.homes (s : State) (k : Nat) : List Nat :=
  (List.range Config.banksPerDistrict).foldl (fun l j => match s.serving 1 k j with
    | some phys => insNat l (phys / 68)
    | none => l) []

/-- Entry (r, k) of the table by the requester's district; 0 where no bank of the district is in service (log 33). -/
def distEntry (a : Nat) (homes : List Nat) : Nat := homes.foldl (fun m h => max m (geo a h)) 0

def State.buildTable (s : State) : List (List Nat) :=
  let homes := (List.range Config.districts).map s.homes
  ((List.range Config.districts ++ attach).map (fun a => homes.map (distEntry a))) ++ [List.replicate 128 0]

/-- The 32 bytes of a row (R381). -/
def rowBytes (row : List Nat) : List Byte :=
  (List.range 32).map (fun b => BitVec.ofNat 8 ((List.range 4).map (fun i => row.getD (4 * b + i) 0 * 4 ^ i)).sum)

/-- R383. -/
def tableHash (t : List (List Nat)) : W32 := crc32c (t.flatMap rowBytes)

/-! ### Units in service (R540, R543, R584; 18 R630) -/

/-- VCs in service of a platform: the slot is served, and so is every pipe slot of the VC that serves it (R584). -/
def State.vcsOf (s : State) (p : Nat) : Nat :=
  if !s.platformOk p then 0
  else ((List.range 16).filter (fun i => match s.serving 0 p i with
    | some v => s.allServed 3 v 8
    | none => false)).length

/-- Planes that serve: 8, or one whenever fewer than 8 remain (R584). -/
def State.planesOk (s : State) : Nat :=
  let n := ((List.range 8).filter (fun i => (s.serving 4 0 i).isSome)).length
  if n = 8 then 8 else min 1 n

/-- Rebuild the distance table, its hash, JUNC_CFG, SKV_PARAM's counts and SVC_STAT from the units in service (R384, R563,
R586). -/
def State.rebuild (s : State) : State :=
  let tab := s.buildTable
  let plats := ((List.range Config.platDesign).filter s.platformOk).length
  let vcs := ((List.range Config.platDesign).map s.vcsOf).sum
  let planes := s.planesOk
  let core := s.serving 5 0 0
  let none_ := plats = 0 || planes = 0 || core.isNone
  let full := plats = Config.platDesign && vcs = Config.vcDesign && planes = 8
  { s with
    sp := { s.sp with
      distTab := tab, distHash := tableHash tab
      planeMap := BitVec.ofNat 9 ((List.range 9).map (fun i => if (s.unit 4 i).state = 0 then 2 ^ i else 0)).sum }
    svc := { s.svc with
      limp := !none_ && !full, none_ := none_
      vcs := BitVec.ofNat 12 vcs, platforms := BitVec.ofNat 8 plats, planes := BitVec.ofNat 4 planes
      sbCore := match core with | some 1 => true | some _ => false | none => s.svc.sbCore } }

/-! ### Substitution (R582 to R586) -/

/-- Group and local slot that a unit stands for: its own, or those recorded for a reserve. -/
def unitPlace (kind index : Nat) (u : UnitRec) : Nat × Nat :=
  let grp := index / unitPer kind
  let i := index % unitPer kind
  if i < unitActive kind then (grp, i)
  else (if u.borrower = 0xFF then grp else u.borrower.toNat, u.slot.toNat)

/-- The unit's record as it leaves service for good. -/
def UnitRec.out (u : UnitRec) : UnitRec := { u with state := 2, slot := 0xFFF, borrower := 0xFF }

/-- The unit leaves service for good; the pipes of a retired VC count as retired. -/
def State.retireUnit (s : State) (kind index : Nat) : State :=
  let s := s.setUnit kind index (s.unit kind index).out
  if kind = 0 then (strided (9 * index) 1 9).foldl (fun s i => s.setUnit 3 i (s.unit 3 i).out) s else s

/-- A unit that no spare can serve leaves service; the VC of a pipe leaves with it (R584). -/
def State.loseUnit (s : State) (kind index : Nat) : State :=
  if kind = 3 then (s.retireUnit 3 index).retireUnit 0 (index / 9) else s.retireUnit kind index

/-- A spare that may not serve: one that was marked when the pass under way began (R582, R588). A start-up self-test has retired the
spares that failed it (R560, R563). -/
def State.barred (s : State) (kind index : Nat) : Bool := s.hl.pass && s.hl.snapMarks.contains (unitKey kind index)

/-- A spare enters service in a slot; the pipes of a spare VC enter service with it, its reserve pipe in the slot of one that has retired
(log 98). -/
def State.activate (s : State) (kind index slot : Nat) (borrower : Byte) : State :=
  let s := s.setUnit kind index { s.unit kind index with state := 0, slot := BitVec.ofNat 12 slot, borrower := borrower }
  if kind ≠ 0 then s
  else
    let own := strided (9 * index) 1 8
    let s := own.foldl (fun s i =>
      if (s.unit 3 i).state = 1 then s.setUnit 3 i { s.unit 3 i with state := 0 } else s) s
    let spare := 9 * index + 8
    match own.find? (fun i => (s.unit 3 i).state = 2) with
    | some i => if (s.unit 3 spare).state = 1 && !s.barred 3 spare then
        s.setUnit 3 spare { s.unit 3 spare with state := 0, slot := BitVec.ofNat 12 (i % 9) } else s
    | none => s

/-- The spares of a group that may serve. -/
def State.spares (s : State) (kind grp : Nat) : List Nat :=
  (strided (unitPer kind * grp + unitActive kind) 1 (unitPer kind - unitActive kind)).filter (fun i =>
    (s.unit kind i).state = 1 && !s.barred kind i)

/-- The spare with the largest rem_h, then the lowest index (R582). -/
def State.bestSpare (s : State) (kind : Nat) (l : List Nat) : Option Nat :=
  l.foldl (fun b i => match b with
    | none => some i
    | some x => if (s.unit kind x).remH.toNat < (s.unit kind i).remH.toNat then some i else some x) none

/-- The district that lends a bank to district `k`: the lowest geo, the most spares, the lowest number (R583). -/
def State.lender (s : State) (k : Nat) : Option Nat :=
  (List.range Config.districts).foldl (fun b j =>
    let n := (s.spares 1 j).length
    if j = k ∨ n = 0 then b
    else match b with
      | none => some j
      | some x => if geo k j < geo k x ∨ (geo k j = geo k x ∧ (s.spares 1 x).length < n) then some j else some x) none

/-- Every line of a logical bank becomes zero (R586). -/
def Spad.zeroBank (sp : Spad) (b : Nat) : Spad :=
  { sp with
    mem := sp.mem.filter (fun c => bankOf c.1 ≠ b)
    poison := sp.poison.filter (fun p => bankOf p.1 ≠ b)
    decay := sp.decay.filter (fun d => bankOf d.1 ≠ b)
    wb := sp.wb.filter (fun l => bankOf l ≠ b) }

/-- A reserve, or a lent bank, takes the slot of a unit; none where no spare can serve it. -/
def State.replace (s : State) (kind index : Nat) (mayLend : Bool) : Option (State × Bool) :=
  let (grp, slot) := unitPlace kind index (s.unit kind index)
  let enter := fun (i : Nat) (br : Byte) =>
    let s := (s.retireUnit kind index).activate kind i slot br
    if kind = 1 then { s with sp := s.sp.zeroBank (64 * grp + slot) } else s
  match s.bestSpare kind (s.spares kind grp) with
  | some i => some (enter i 0xFF, false)
  | none =>
    if kind = 1 && mayLend then
      ((s.lender grp).bind (fun j => s.bestSpare 1 (s.spares 1 j))).map (fun i => (enter i (BitVec.ofNat 8 grp), true))
    else none

/-- A marked spare, which has no slot that another could take, becomes RETIRED (R582). A pipe of a spare VC leaves the VC's reserve pipe for
its slot; where none is left, or the policy is HOLD, a failed one takes the VC with it (R584, R585), and a warned one stays: the model's
reading (log 98). -/
def State.passSpare (s : State) (kind index : Nat) (failed : Bool) : State :=
  let vc := index / 9
  let alone := kind = 3 && (s.unit 0 vc).state = 1
    && ((s.policy = 2 && decide (index % 9 < 8)) || (strided (9 * vc) 1 9).any (fun i => (s.unit 3 i).state = 2))
  if !alone then s.retireUnit kind index
  else
    let s := if s.policy = 2 then s else s.logOnly 0x8002 (infoH kind index)
    if failed then s.loseUnit kind index else s

/-- One unit of the snapshot, with its failed mark there: replaced, or out of service, or left as it is (R582 to R585). -/
def State.passUnit (s : State) (key : Nat) (failed : Bool) : State :=
  let kind := key / 32768
  let index := key % 32768
  if (s.unit kind index).state = 2 then s
  else if (s.unit kind index).state = 1 then s.passSpare kind index failed
  else if s.policy = 2 then (if failed then s.loseUnit kind index else s)
  else match s.replace kind index (failed && s.lends) with
    | some (s, lent) => if lent then s.logOnly 0x8002 (infoH kind index) else s
    | none =>
      let s := s.logOnly 0x8002 (infoH kind index)
      if failed then s.loseUnit kind index else s

/-- The record changes (R591). -/
def State.bumpWear (s : State) : State := { s with hl := { s.hl with wearGen := s.hl.wearGen + 1 } }

/-- The pass works through its snapshot and ends (R586). -/
def State.endPass (s : State) : State :=
  if !s.hl.pass then s
  else
    let s := s.hl.snap.foldl (fun s p => s.passUnit p.1 p.2) s
    let s := { s with hl := { s.hl with pass := false, snap := [], snapMarks := [] } }
    s.rebuild.bumpWear

/-! ### Monitors (R576 to R581) -/

/-- The exponent of the stress factor by the district's temperature in 1/4 °C (Table 16.3). -/
def stressExp (t : Int) : Int :=
  if t < 180 then -4 else if t < 220 then -3 else if t < 260 then -2 else if t < 300 then -1 else if t < 340 then 0
  else if t < 380 then 1 else if t < 420 then 2 else 3

/-- This window's factor as a power of two; profile 3 halves it (R577). -/
def State.factorExp (s : State) (k : Nat) : Int := stressExp (s.temp k) - (if s.cfg.profile = 3 then 1 else 0)

/-- 2^e in FP32. -/
def pow2F (e : Int) : W32 := BitVec.ofNat 32 ((127 + e).toNat * 2 ^ 23)

/-- A number in FP32, rounded once to nearest even. -/
def natF (n : Nat) : W32 := (toF32 false false (Val.ofInt n)).1

/-- Stress hours of a count: one unit is 2^23 ticks of 2.5 ns (R577), rounded once (log 34). -/
def stressHours (count : W64) : W32 :=
  (toF32 false false (Val.divNat (Val.ofInt (count.toNat * 2 ^ 23 * 25 : Nat)) (36 * 10 ^ 12))).1

/-- 0.08 in FP32. -/
def dfailRing : W32 := 0x3DA3_D70A#32
def dfailOf (kind : Nat) : W32 := if kind = 1 then K.half else dfailRing

/-- The district in which a unit lies; planes and cores lie in none. -/
def unitDistrict (kind index : Nat) : Option Nat :=
  match kind with
  | 0 => some (index / 17) | 1 => some (index / 68) | 2 => some (index / 9) | 3 => some (index / 153) | _ => none

/-- A stress count grows, its MONITOR record is written, and rho follows the factor (R577, R579, R581). -/
def State.stressOne (s : State) (k : Nat) : State :=
  let e := s.factorExp k
  let inc := 2 ^ (5 + e).toNat
  let rho := AL.getD s.hl.rho k K.one
  let rho := fAdd rho (fMul (fSub (pow2F e) rho) K.tiny)
  let s := { s with hl := { s.hl with
    stress := AL.put s.hl.stress k (AL.getD s.hl.stress k 0 + BitVec.ofNat 64 inc)
    rho := AL.put s.hl.rho k rho } }
  s.trace 13 (6 * 2 ^ 57 + k * 2 ^ 42 + inc)

/-- The integer part of a number that is not negative; 0 for a negative one. -/
def Dy.floorPos (d : Dy) : Nat :=
  if d.neg then 0 else if 0 ≤ d.e then d.n * pow2 d.e else d.n / pow2 (-d.e)

/-- rem_h from `r / rho`: floored, saturating; a negative number gives 0 (log 34), a NaN a free value. -/
def State.hoursOf (s : State) (v : W32) : W32 × State :=
  match ofF32 v with
  | .nan => let (r, s) := s.freeWord; (r.setWidth 32, s)
  | .inf neg => (if neg then 0 else 0xFFFF_FFFF, s)
  | .fin d => (BitVec.ofNat 32 (min d.floorPos (2 ^ 32 - 1)), s)

/-- The prediction of R579: d, and rem_h. A plane or core has no district: its s and rho are free values (log 34). -/
def State.predict (s : State) (kind index : Nat) (b x : W32) : W32 × W32 × State :=
  let fb := natF b.toNat
  let d := fMul (fSub fb (natF x.toNat)) (fPrim .rcp fb)
  if (ofF32 d).isNan = false ∧ ¬ Val.lt (Val.zero false) (ofF32 d) then (d, 0xFFFF_FFFF, s)
  else
    let (hs, rho, s) : W32 × W32 × State := match unitDistrict kind index with
      | some k => (stressHours (AL.getD s.hl.stress k 0), AL.getD s.hl.rho k K.one, s)
      | none => let (a, s) := s.freeWord
                let (c, s) := s.freeWord
                (a.setWidth 32, c.setWidth 32, s)
    let q := fMul (dfailOf kind) (fPrim .rcp d)
    let q4 := fMul (fMul q q) (fMul q q)
    let r := fSub (fMul hs q4) hs
    let (h, s) := s.hoursOf (fMul r (fPrim .rcp rho))
    (d, h, s)

/-- MONITOR record of a mark (R581). -/
def State.monitorRec (s : State) (kind index event : Nat) (x : W32) : State :=
  s.trace 13 (kind * 2 ^ 57 + index * 2 ^ 42 + event * 2 ^ 40 + x.toNat)

/-- One sample: baseline, prediction, marks (R576, R579, R580). -/
def State.sampleOne (s : State) (m : Sample) : State :=
  let kind := m.kind.toNat
  let index := m.index.toNat
  if unitInstalled kind ≤ index then s
  else
    let u := s.unit kind index
    let b := if u.baseline = 0 then m.x else u.baseline
    let (d, h, s) := s.predict kind index b m.x
    let warn := decide (h.toNat ≤ s.hl.warnH.toNat) && !u.warned
    let fail := Val.lt (ofF32 d) (ofF32 (dfailOf kind)) = false && !(ofF32 d).isNan && !u.failed
    let s := s.setUnit kind index { u with
      baseline := b, x := m.x, remH := h, warned := u.warned || warn, failed := u.failed || fail }
    let s := if warn then (s.logOnly 0x8001 (infoH kind index)).monitorRec kind index 1 m.x else s
    if fail then s.monitorRec kind index 2 m.x else s

/-- The monitors of window number `n` take this sample: every ring oscillator, and of each district's 68 banks the one whose turn
it is (Table 16.2; with which bank the rotation begins is the model's choice, log 8). -/
def inWindow (n : Nat) (m : Sample) : Bool :=
  decide (m.kind.toNat < 6 ∧ m.index.toNat < unitInstalled m.kind.toNat) && (m.kind ≠ 1 || m.index.toNat % 68 = n % 68)

/-- The first sample of each unit that the window takes. -/
def windowSamples (n : Nat) (samples : List Sample) : List Sample :=
  samples.foldl (fun l m => if inWindow n m && !l.any (fun x => x.kind = m.kind && x.index = m.index) then l ++ [m] else l) []

/-- MONITOR_WINDOW: the samples of the window that ends are applied and stress accrues (R576). -/
def State.monitorEnds (s : State) (samples : List Sample) : State :=
  let n := s.now / 2 ^ 28
  let s := s.elapseTo ((n + 1) * 2 ^ 28)
  let s := (List.range Config.districts).foldl State.stressOne s
  ((windowSamples n samples).foldl State.sampleOne s).bumpWear

def execMonitorWindow (samples : List Sample) (s : State) : Out :=
  .next (if s.running then s.monitorEnds samples else s)

/-! ### Patrol and write-back (09 R386, R387, R389) -/

/-- A patrol read of a line that the scrub has not reached waits until it is scrubbed, as every requester's access does (R402). -/
def State.patrolRead (s : State) (line : Nat) (found : List EccFind) (copies : BitVec 3) : State :=
  if s.groupOn (groupOf line) && s.scrubRange line (line + 128) then { s with xf := { s.xf with parked := s.xf.parked ++ [.patrol line found copies] } }
  else s.patrolLine line found copies

def execPatrol (line : BitVec 22) (found : List EccFind) (copies : BitVec 3) (s : State) : Out :=
  .next (if s.running then s.patrolRead (128 * line.toNat) found copies else s)

/-- ECC_WRITE_BACK: the corrected line and the three copies of its poison bit are written back, unless the write-back was
cancelled (R386). -/
def State.writeBack (s : State) (line : Nat) : State :=
  if s.sp.wb.contains line then
    { s with sp := { s.sp.setPsn line (s.psn line) with
      wb := s.sp.wb.filter (fun l => decide (l ≠ line))
      decay := s.sp.decay.filter (fun d => decide (lineOf d.1 ≠ line) || d.2) } }
  else s

def execEccWriteBack (line : BitVec 22) (s : State) : Out := .next (s.writeBack (128 * line.toNat))

end Sys2Proof.Machine
end

