-- ==== Sys2Proof/Machine/Boot.lean ====
section
/-! DEFINITION. Start-up: reset, the configuration image, the profile, the reserve map, the self-tests, and what each step
begins (15 R545 to R569, Tables 15.1 to 15.5). -/

namespace Sys2Proof.Machine

/-- A step fails with the Start response: start-up stops there (14 Table 14.1). -/
def State.startFails (s : State) (code : Nat) (info : W64) : State :=
  let s := s.logFault code 3 0 s.sb.nextSeq info
  { s with boot := { s.boot with phase := .stopped } }

def State.atStep (s : State) (k : Nat) : Bool := decide (s.boot.phase = .step k)
def State.toStep (s : State) (k : Nat) : State := { s with boot := { s.boot with phase := .step k } }
def State.stepDone (s : State) (k : Nat) : State := { s with cfg := { s.cfg with step := BitVec.ofNat 4 k } }

/-! ### Reset (R545, R605) -/

/-- Every unit resets; the waiting commands and what was sent are the model's own. -/
def State.resetTo (s : State) (ph : BootPhase) : State :=
  { State.reset with
    pending := s.pending, out := s.out, freeCtr := s.freeCtr, boot := { Boot.reset with phase := ph } }

def execReset (s : State) : Out := .next (s.resetTo .inReset)
def execResetRelease (s : State) : Out := .next (if s.boot.phase = .inReset then s.resetTo (.step 0) else s)
def execPllLossOfLock (s : State) : Out := .next (if s.running then s.resetTo (.step 0) else s)

/-! ### The image (R550 to R553, Table 15.2) -/

/-- The bytes from `pos` up that the parts of the copy give without a gap. -/
def gather (parts : AL (List Byte)) : Nat → Nat → List Byte
  | 0, _ => []
  | k + 1, pos =>
    match parts.find? (fun p => decide (p.1 ≤ pos ∧ pos < p.1 + p.2.length)) with
    | none => []
    | some p => let bs := p.2.drop (pos - p.1)
                bs ++ gather parts k (pos + bs.length)

def bytesAt (bs : List Byte) (at_ n : Nat) : Nat := leNat ((bs.drop at_).take n)

/-- The copy as delivered so far. -/
def Boot.image (b : Boot) : List Byte := gather b.img (b.img.length + 1) 0

/-- The copy's length field, once its header's first 8 bytes are there. -/
def imageLen (bs : List Byte) : Nat := bytesAt bs 4 4

/-- A unit entry keeps to Table 16.5. -/
def entryOk (kind index : Nat) (e : Nat) : Bool :=
  let state := bitsOf e 62 2
  let slot := bitsOf e 48 12
  let br := bitsOf e 40 8
  let reserve := decide (unitActive kind ≤ index % unitPer kind)
  state ≠ 3 && bitsOf e 32 8 = 0
  && (if reserve && state = 0 then decide (slot < unitActive kind) else slot = 0xFFF)
  && (br = 0xFF || (kind = 1 && reserve && state = 0 && decide (br < 128 ∧ br ≠ index / unitPer kind)))

/-- Bytes as 64-bit words, little-endian. -/
def dwords : List Byte → List Nat
  | a :: b :: c :: d :: e :: f :: g :: h :: r => leNat [a, b, c, d, e, f, g, h] :: dwords r
  | _ => []

/-- The unit entries of a wear record: kind, physical index, entry (Table 16.4). -/
def wearEntries (rec_ : List Byte) : List (Nat × Nat × Nat) :=
  (dwords (rec_.drop 1040)).zipIdx.filterMap (fun p => (unitOfEntry p.2).map (fun u => (u.1, u.2, p.1)))

/-- A wear record keeps to Tables 16.4 and 16.5 (R590). -/
def wearOk (rec_ : List Byte) : Bool :=
  rec_.length = 254056 && bytesAt rec_ 0 2 = 1 && bytesAt rec_ 2 2 = 0 && bytesAt rec_ 4 4 = 31627 && bytesAt rec_ 8 8 = 0
  && (wearEntries rec_).all (fun e => entryOk e.1 e.2.1 e.2.2)

/-- The bytes of a section by its offset field in the header. -/
def section_ (bs : List Byte) (field n : Nat) : List Byte := (bs.drop (bytesAt bs field 4)).take n

/-- Bytes of the lattice self-test section (Table 15.5) and of the stored distance table. -/
def testLen : Nat := 86020
def distLen : Nat := 4608

/-- R552, R590. -/
def copyUsable (bs : List Byte) : Bool :=
  let len := bs.length
  let fits := fun (field n : Nat) => decide (bytesAt bs field 4 + n ≤ len)
  (crc32 (bs.drop 4)).toNat = bytesAt bs 0 4 && bytesAt bs 8 2 = 1 && bytesAt bs 10 2 = Config.part
  && decide (bytesAt bs 12 1 ≤ 3 ∧ bytesAt bs 13 1 ≤ 1 ∧ 1 ≤ bytesAt bs 14 1 ∧ bytesAt bs 14 1 ≤ 7
    ∧ 10 ≤ bytesAt bs 16 2 ∧ bytesAt bs 16 2 ≤ 1000)
  && fits 20 512 && fits 24 (bytesAt bs 28 4) && fits 32 distLen && fits 40 testLen
  && wearOk (section_ bs 24 (bytesAt bs 28 4))

/-- A profile record (Table 15.3). -/
def profileOf (r : List Byte) : Profile :=
  { rootMhz := BitVec.ofNat 16 (bytesAt r 0 2), capW := BitVec.ofNat 16 (bytesAt r 2 2), yardMib := BitVec.ofNat 8 (bytesAt r 4 1)
    rsv := BitVec.ofNat 8 (bytesAt r 5 1), dfltRnd := BitVec.ofNat 8 (bytesAt r 6 1), flags := BitVec.ofNat 8 (bytesAt r 7 1)
    ports := BitVec.ofNat 64 (bytesAt r 8 8), floors := BitVec.ofNat 64 (bytesAt r 16 8)
    groups := BitVec.ofNat 256 (bytesAt r 24 32), resv := BitVec.ofNat 576 (bytesAt r 56 72) }

/-- Profile `n` is valid (R554). -/
def Profile.valid (x : Profile) (n : Nat) : Bool :=
  let yard := x.yardMib.toNat
  x.rootMhz = (if n = 3 then 4200 else 4800) && decide (100 ≤ x.capW.toNat ∧ x.capW.toNat ≤ 440)
  && decide (yard % 2 = 0 ∧ yard ≤ 64) && bitsOf x.rsv.toNat 0 2 ≠ 3 && x.rsv.toNat / 8 = 0 && decide (x.dfltRnd.toNat ≤ 4)
  && x.flags.toNat / 4 = 0 && x.ports.getLsbD 33 && x.ports.getLsbD 34 && x.ports.toNat / 2 ^ 35 = 0 && x.resv = 0
  && (strided (256 - yard / 2) 1 (yard / 2)).all (fun g => x.groups.getLsbD g)

/-! ### Step 1 (R550 to R556) -/

/-- Ask the KPC for a copy (R550). -/
def State.askCopy (s : State) (b : Bool) : State :=
  ({ s with boot := { s.boot with copyB := b, img := [] } }).emit 33 (.imageReq b)

/-- The copy is unusable: B is asked for, or neither is usable (R552). -/
def State.copyBad (s : State) : State :=
  if s.boot.copyB then s.startFails 0x7002 (infoC 0 3)
  else ({ s with boot := { s.boot with badA := true } }).askCopy true

/-- Order 2 of Table 15.6 and the F events of Table 18.5: the power cap of a profile. -/
def State.profileCap (s : State) : State :=
  let s := { s with pw := { s.pw with capW := s.cfg.active.capW.setWidth 9, capNew := none } }
  { s with pw := { s.pw with capEff := BitVec.ofNat 9 s.effectiveCap } }

/-- Step 2: the reserve map of the image is applied (R559). -/
def State.applyMap (s : State) : State :=
  let bs := s.boot.image
  let rec_ := section_ bs 24 (bytesAt bs 28 4)
  let units := (wearEntries rec_).filterMap (fun e =>
    let b : W64 := BitVec.ofNat 64 e.2.2
    let u : UnitRec := ⟨b.extractLsb' 62 2, b.getLsbD 61, b.getLsbD 60, b.extractLsb' 48 12, b.extractLsb' 40 8, b.setWidth 32, 0, 0⟩
    if u = UnitRec.factory e.1 e.2.1 then none else some (unitKey e.1 e.2.1, u))
  let stress := ((dwords ((rec_.drop 16).take 1024)).zipIdx.filter (·.1 ≠ 0)).map (fun p => (p.2, BitVec.ofNat 64 p.1))
  { s with hl := { s.hl with units := units, stress := stress }
           boot := { s.boot with img := [], sect := section_ bs 40 testLen } }

/-- The tables are rebuilt; dist_changed says whether the hash differs from the image's (R559, R563). -/
def State.rebuildBoot (s : State) : State :=
  let s := s.rebuild
  { s with cfg := { s.cfg with distChanged := s.cfg.distChanged || s.sp.distHash ≠ s.boot.distHash } }

/-- CFG_STAT.pins: what the pins were sampled as, 0 where they do not choose (R556). -/
def Boot.shownPins (b : Boot) : BitVec 2 := if b.selSrc = 1 then 0 else b.pins

/-- What step 1 has loaded and chosen shows in the registers as the step ends (R556, 18 R627). -/
def State.showConfig (s : State) : State :=
  let x := (s.boot.profiles[s.boot.chosen]?).getD Profile.zero
  ({ s with
    cfg := { s.cfg with
      serial := s.boot.serial, copy := s.boot.copyB, pins := s.boot.shownPins
      profile := BitVec.ofNat 2 s.boot.chosen, active := x, src := if s.boot.selSrc = 1 then 1 else 0 }
    tb := { s.tb with inc := nominalInc x.rootMhz } }).profileCap

/-- Profile 2, in which alone start-up may go on at level LIMP (R555). -/
def State.diagnostic (s : State) : Bool := s.cfg.profile = 2

/-- A unit that has left service and whose slot no reserve serves; a pipe only where its VC serves. -/
def State.lostUnit (s : State) : Option (Nat × Nat) :=
  (s.hl.units.find? (fun p =>
    let kind := p.1 / 32768
    let i := p.1 % 32768
    p.2.state ≠ 0 && decide (i % unitPer kind < unitActive kind) && (s.serving kind (i / unitPer kind) (i % unitPer kind)).isNone
      && (kind ≠ 3 || (s.unit 0 (i / 9)).state = 0))).map (fun p => (p.1 / 32768, p.1 % 32768))

/-- The units in service allow start-up to go on: FULL service, or in profile 2 at least LIMP (R541, R542, R555). -/
def State.serves (s : State) : Bool := if s.diagnostic then !s.svc.none_ else !s.svc.limp && !s.svc.none_

/-- Step 1 ends, step 2 runs, and step 3 begins. A reserve map that leaves a unit unreplaced ends start-up as a unit that fails its
test does (R541, R542, log 61); what step 2 was building then keeps its reset values (R627). -/
def State.endStep1 (s : State) : State :=
  let s := (s.showConfig.stepDone 1).toStep 2
  let t := s.applyMap.rebuildBoot
  if t.serves then ({ t with hl := { t.hl with wearOn := true } }.stepDone 2).toStep 3
  else let u := t.lostUnit.getD (0, 0)
       s.startFails 0x8002 (infoH u.1 u.2)

/-- The profile is chosen; 4.2 GHz waits for the PLL's relock (R556, Table 15.1). -/
def State.takeProfile (s : State) (n : Nat) (x : Profile) : State :=
  let s := { s with boot := { s.boot with chosen := n } }
  if x.rootMhz = 4200 then { s with boot := { s.boot with relock := true }, pw := { s.pw with pllLock := false } }
  else s.endStep1

/-- Choose the profile once the image is loaded and, where they choose, the pins are sampled (R556). -/
def State.choose (s : State) : State :=
  if !s.boot.imgOk || s.boot.relock || !(s.boot.selSrc = 1 || s.boot.pinsOk) then s
  else
    let n := if s.boot.selSrc = 1 then s.boot.defProf else s.boot.pins.toNat
    match s.boot.profiles[n]? with
    | some x => if x.valid n then s.takeProfile n x else s.startFails 0x7006 (infoC 0 s.boot.shownPins.toNat)
    | none => s.startFails 0x7006 (infoC 0 s.boot.shownPins.toNat)

/-- A usable copy is loaded; copy B after a bad copy A logs 0x7001 (R552). -/
def State.copyGood (s : State) (bs : List Byte) : State :=
  let s := if s.boot.copyB then s.logFault 0x7001 1 0 s.sb.nextSeq (infoC 0 1) else s
  let prof := section_ bs 20 512
  ({ s with
    boot := { s.boot with
      imgOk := true, defProf := bytesAt bs 12 1, selSrc := bytesAt bs 13 1, negTries := bytesAt bs 14 1
      negUs := bytesAt bs 16 2, serial := BitVec.ofNat 32 (bytesAt bs 44 4), distHash := BitVec.ofNat 32 (bytesAt bs 36 4)
      profiles := (List.range 4).map (fun i => profileOf ((prof.drop (128 * i)).take 128)) } }).choose

/-- A part of the copy arrives; a copy whose every byte is there is judged (R550, R552). -/
def State.imagePart (s : State) (off : Nat) (bytes : List Byte) : State :=
  let s := { s with boot := { s.boot with img := AL.put s.boot.img off bytes } }
  let bs := s.boot.image
  let len := imageLen bs
  if bs.length < 8 then s
  else if len < 64 ∨ 2097152 < len then s.copyBad
  else if bs.length < len then s
  else
    let copy := bs.take len
    if copyUsable copy then { s with boot := { s.boot with img := [(0, copy)] } }.copyGood copy else s.copyBad

/-- IMAGE_DATA is accepted: step 1, and no copy is loaded yet. -/
def State.wantsImage (s : State) : Bool := s.atStep 1 && !s.boot.imgOk

/-- PROFILE_SEL_SAMPLING in step 1: the pins are sampled once (14 Table 14.6). -/
def State.samplePins (s : State) (pins : BitVec 2) : State :=
  if !s.atStep 1 || s.boot.pinsOk then s else { s with boot := { s.boot with pins := pins, pinsOk := true } }.choose
/-- The limit of the configuration load: 25 ms, in ticks (14 Table 14.5). -/
def loadLimit : Nat := 10000000

/-- The wait for the configuration, or for the pins, runs. -/
def State.loadWaits (s : State) : Bool := s.atStep 1 && !s.boot.relock

/-- The load has lasted its limit: 0x7003, or 0x7006 where only the pins are missing (R552, R556). -/
def State.loadLate (s : State) : State :=
  if s.boot.imgOk then s.startFails 0x7006 (infoC 0 s.boot.pins.toNat)
  else s.startFails 0x7003 (infoC 0 (if s.boot.badA then 1 else 0))

/-- CONFIGURATION_LOAD_TIMEOUT: the time advances to the limit, and the load ends there (14 R527). -/
def State.loadTimeout (s : State) : State :=
  if s.loadWaits then (s.elapseClock (s.boot.loadFrom + loadLimit)).loadLate else s
def execConfigurationLoadTimeout (s : State) : Out := .next s.loadTimeout

/-- The PLL locks at the end of step 0: SCLK moves to ROOT/48, step 1 begins and copy A is asked for (R546, R550). -/
def State.firstLock (s : State) : State :=
  (((({ s with pw := { s.pw with pllLock := true, sclkRoot := true, rootMhz := 4800 }
               boot := { s.boot with loadFrom := s.clock } }).stepDone 0).toStep 1).askCopy false)

/-- The PLL locks at the root of the chosen profile, and step 1 ends (Table 15.1). -/
def State.relocked (s : State) : State :=
  ({ s with pw := { s.pw with pllLock := true, rootMhz := ((s.boot.profiles[s.boot.chosen]?).getD Profile.zero).rootMhz }
            boot := { s.boot with relock := false } }).endStep1

/-! ### Steps 3 and 4 (R560 to R563) -/

/-- A unit that failed its self-test is marked failed (R578). -/
def State.markFailed (s : State) (kind index : Nat) : State :=
  s.setUnit kind index { s.unit kind index with failed := true }

/-- A unit in service that failed its self-test retires, replaced where a reserve can serve it; where none can, profile 2 goes on
without it and any other profile ends start-up (R541, R542, R560, R563). -/
def State.testUnit (s : State) (kind code index : Nat) : State :=
  if s.boot.phase = .stopped then s
  else match s.replace kind index s.lends with
    | some (s, _) => s
    | none =>
      let s := s.retireUnit kind index
      if s.diagnostic then s.logFault code 1 0 s.sb.nextSeq (infoH kind index)
      else (s.logFault code 3 0 s.sb.nextSeq (infoH kind index)).startFails 0x8002 (infoH kind index)

/-- What both self-tests do with the units that failed: the spares among them retire, then those in service are replaced in increasing
index; the tables are rebuilt as the step ends (R563). -/
def State.selfTest (s : State) (kind code : Nat) (failed : List Nat) : State :=
  let fs := failed.foldl insNat []
  let s := fs.foldl (fun s i => s.markFailed kind i) s
  let serving := fs.filter (fun i => (s.unit kind i).state = 0)
  let s := (fs.filter (fun i => !serving.contains i)).foldl (fun s i => s.retireUnit kind i) s
  let s := serving.foldl (fun s i => s.testUnit kind code i) s
  let s := if fs.isEmpty then s else s.bumpWear
  if s.boot.phase = .stopped then s
  else
    let t := s.rebuildBoot
    if t.diagnostic && t.svc.none_ then s.startFails 0x8002 (infoH kind (fs.getLastD 0)) else t

/-- Every line of every bank holds zero, and the groups that the profile does not power are OFF (R561). -/
def State.zeroAll (s : State) : State :=
  { s with sp := { s.sp with
    mem := [], poison := [], decay := [], wb := []
    groups := ((List.range 256).filter (fun g => !s.cfg.active.groups.getLsbD g)).map (fun g => (g, ⟨.off, false⟩)) } }

def State.memoryTest (s : State) (failed : List Nat) : State :=
  if !s.atStep 3 then s
  else
    let s := s.selfTest 1 0x8003 (failed.filter (· < unitInstalled 1))
    if s.atStep 3 then (s.zeroAll.stepDone 3).toStep 4 else s
def execMemorySelfTest (failed : List Nat) (s : State) : Out := .next (s.memoryTest failed)

/-- The stored signature (Table 15.5). -/
def State.signature (s : State) : W32 := BitVec.ofNat 32 (bytesAt s.boot.sect (testLen - 4) 4)

/-- Step 5 begins: every enabled port negotiates, the others are held down (R564, R567). A port that a link error has FAILED stays
so until reset (R602). -/
def State.beginNegotiation (s : State) : State :=
  let s := s.toStep 5
  ((List.range 35).filter (fun p => s.cfg.active.ports.getLsbD p && !(s.port p).broken)).foldl State.negotiate s

/-- The first `k` whole rows of `n` entries. -/
def rowsOf {α : Type} (n : Nat) : Nat → List α → List (List α)
  | 0, _ => []
  | k + 1, l => if l.length < n then [] else l.take n :: rowsOf n k (l.drop n)

/-- A row of packed B1 (mode 2) or T2 (mode 3) weights (06 R262). -/
def packedRow (mode : Nat) (bs : List Byte) : List Int :=
  bs.flatMap (fun b => (List.range (if mode = 2 then 8 else 4)).map (fun k => (packedWeight mode b.toNat k).1))

/-- The dot products of every row of activations with every row of weights (06 R263). -/
def testLayer (ws xs : List (List Int)) : List (List Int) := xs.map (fun x => ws.map (fun w => (List.zipWith (· * ·) x w).sum))

/-- sat8((v + 2^(n−1)) >> n). -/
def requant (n : Nat) (v : Int) : Int := max (-128) (min 127 ((v + 2 ^ (n - 1)) / 2 ^ n))

/-- The signature that the network of Table 15.5 gives: CRC-32C of Z. -/
def testSignature (sect : List Byte) : W32 :=
  let part := fun (at_ mode n rows : Nat) => (rowsOf n rows (sect.drop at_)).map (packedRow mode)
  let x := (rowsOf 1024 32 (sect.take 32768)).map (fun r => r.map BitVec.toInt)
  let h1 := (testLayer (part 32768 2 128 256) x).map (fun r => r.map (requant 10))
  let h2 := (testLayer (part 65536 3 64 256) h1).map (fun r => r.map (requant 8))
  let z := testLayer (part 81920 3 64 64) h2
  crc32c (z.flatten.flatMap (fun v => leBytes 4 (BitVec.ofInt 32 v).toNat))

/-- LATTICE_SELF_TEST: each DPU runs the network; `wrong` lists those whose datapath gives another signature. A DPU whose signature
differs from the stored one is retired (R562, R563). -/
def State.latticeTest (s : State) (wrong : List (Nat × W32)) : State :=
  if !s.atStep 4 then s
  else
    let other := fun (v : W32) => decide (v ≠ s.signature)
    let mine := if other (testSignature s.boot.sect) then
        (List.range (unitInstalled 2)).filter (fun i => !wrong.any (fun p => p.1 = i)) else []
    let bad := mine ++ (wrong.filter (fun p => decide (p.1 < unitInstalled 2) && other p.2)).map (·.1)
    let s := s.selfTest 2 0x8004 bad
    if s.atStep 4 then (s.stepDone 4).beginNegotiation else s
def execLatticeSelfTest (wrong : List (Nat × W32)) (s : State) : Out := .next (s.latticeTest wrong)

/-! ### Steps 5 to 7 -/

/-- READY (R548). -/
def State.becomeReady (s : State) : State :=
  let s := { s with boot := { s.boot with phase := .ready }, svc := { s.svc with ready := true }
                    sp := { s.sp with scrubWm := 32768 } }
  (((s.stepDone 7).toState stIdle).reportState 0 0 0).enterIdle

/-- Step 6 begins: the tick starts at 0, at which it stands until then (R493, R568, R569). -/
def State.beginTimebase (s : State) : State :=
  let s := (({ s with tb := { s.tb with on := true } }).toStep 6).beginLock
  if s.tbFree then (s.stepDone 6).becomeReady else s

/-- Start-up goes on where what step 5 or 6 waits for has come. -/
def State.bootGoesOn (s : State) : State :=
  if s.atStep 5 && s.negotiated then (s.stepDone 5).beginTimebase
  else if s.atStep 6 && s.tb.lock = 2 then (s.stepDone 6).becomeReady
  else s

end Sys2Proof.Machine
end

