-- ==== Sys2Proof/Machine/Timeouts.lean ====
section
/-! DEFINITION. Waits that reach their limits (14 R527 to R531, Table 14.5; 02 R75; 12 R502). A row whose wait is under
way advances the time to its limit and acts; with no such wait it changes nothing (log 10). -/

namespace Sys2Proof.Machine

/-- The entry with the lowest first component; the first of equals. -/
def earliest {α : Type} (l : List (Nat × α)) : Option (Nat × α) :=
  l.foldl (fun b x => match b with
    | none => some x
    | some y => if x.1 < y.1 then some x else some y) none

/-- The waits at the heads of the ports that `sel` names: limit's tick, port, owner, tick at which the wait began. -/
def State.headWaits (s : State) (sel : Nat → Bool) : List (Nat × Nat × Option Nat × W64) :=
  s.ports.filterMap (fun p => if sel p.1 then
    (match p.2.txq with
     | i :: _ => i.since.map (fun w => (w.1.toNat + w.2, p.1, i.owner, w.1))
     | [] => none) else none)

/-- The item at the head of a port's queue is given up. -/
def State.dropHead (s : State) (p : Nat) : State := s.setPort p { s.port p with txq := (s.port p).txq.tail }

/-- A fault at the instruction `own` of a wait that began at `since` on port `p`; none where that instruction is gone, but one that
the KILL in progress abandoned is counted (R517). -/
def State.portLate (s : State) (own : Option Nat) (code p : Nat) (since : W64) : State :=
  match own with
  | some o => s.raiseWait o code p since
  | none => s

/-! ### PRESENCE_GRACE_EXPIRY (02 R78) -/

/-- The presence waits: of the front of the queue, and of window checks in flight. -/
def State.graceWaits (s : State) : List (Nat × Option Inflight) :=
  (match s.tq with
   | q :: _ => if q.short.isEmpty then [] else [(q.readyTick + q.grace, none)]
   | [] => [])
  ++ s.fl.filterMap (fun f => match f.prog with
    | .presence _ since grace => some (since.toNat + grace, some f)
    | _ => none)

def State.graceTimeout (s : State) : State :=
  match earliest s.graceWaits with
  | none => s
  | some (t, none) => (s.elapseTo t).graceFront
  | some (t, some f) => (s.elapseTo t).presenceFails f
def execPresenceGraceExpiry (s : State) : Out := .next s.graceTimeout

/-! ### STALL_TIMEOUT (07 R275, R277) -/

inductive StallWait where
  | head (port : Nat) (own : Option Nat) (since : W64)
  | intake (port seq : Nat) (since : W64)
  deriving DecidableEq, Repr

def State.stallWaits (s : State) : List (Nat × StallWait) :=
  (s.headWaits (· ≤ 1)).map (fun w => (w.1, .head w.2.1 w.2.2.1 w.2.2.2))
  ++ s.fl.filterMap (fun f => match f.prog with
    | .xpr g => (g.left.findIdx? (· ≠ 0)).map (fun k => (g.lastTick.toNat + g.limit, .intake (2 + k) f.q.seq g.lastTick))
    | _ => none)

def State.stallTimeout (s : State) : State :=
  match earliest s.stallWaits with
  | none => s
  | some (t, .head p own since) => (((s.elapseTo t).dropHead p).portLate own 0x6004 p since).flush p
  | some (t, .intake p seq since) => (s.elapseTo t).portLate (some seq) 0x6004 p since

def execStallTimeout (s : State) : Out := .next s.stallTimeout

/-! ### TRANSFER_TIMEOUT (10 R443, Table 10.9) -/

def lateCode (p : Nat) : Nat :=
  match portClass p with
  | .mem => 0x6002 | .host => 0x6005 | _ => 0x6003

inductive XferWait where
  | head (port : Nat) (own : Option Nat) (since : W64)
  | req (index : Nat) (r : Req)
  deriving DecidableEq, Repr

def State.xferWaits (s : State) : List (Nat × XferWait) :=
  (s.headWaits (fun p => decide (6 ≤ p ∧ p ≤ 32))).map (fun w => (w.1, .head w.2.1 w.2.2.1 w.2.2.2))
  ++ s.reqs.zipIdx.map (fun r => (r.1.since.toNat + r.1.limit, .req r.2 r.1))

def State.xferTimeout (s : State) : State :=
  match earliest s.xferWaits with
  | none => s
  | some (t, .head p own since) => (((s.elapseTo t).dropHead p).portLate own (lateCode p) p since).flush p
  | some (t, .req i r) => (((s.elapseTo t).dropReq i).portLate r.owner (lateCode r.port) r.port r.since).flush r.port

def execTransferTimeout (s : State) : Out := .next s.xferTimeout

/-! ### Triggers and T.TRIG WAIT (11 R483, R485) -/

/-- The triggers that wait, each with its own limit (R528). -/
def State.trigWaits (s : State) : List (Nat × TrigItem) := s.yd.trigs.map (fun t => (t.since.toNat + t.limit, t))
def State.trigTimeout (s : State) : State :=
  match earliest s.trigWaits with
  | none => s
  | some (d, t) => (s.elapseTo d).trigLate t
def execTriggerAcceptanceTimeout (s : State) : Out := .next s.trigTimeout

def State.waitWaits (s : State) : List (Nat × Unit) :=
  s.fl.filterMap (fun f => match f.prog with
    | .trigWait _ _ since limit => some (since.toNat + limit, ())
    | _ => none)
def State.waitTimeout (s : State) : State :=
  match earliest s.waitWaits with
  | none => s
  | some (t, _) => (s.elapseTo t).waitLate
def execWaitTimeout (s : State) : Out := .next s.waitTimeout

/-! ### The yard (11 R457, R464, R473) -/

def State.claimWaits (s : State) : List (Nat × Inflight) :=
  s.fl.filterMap (fun f => match f.prog with
    | .claim since limit => some (since.toNat + limit, f)
    | _ => none)
def State.claimTimeout (s : State) : State :=
  match earliest s.claimWaits with
  | none => s
  | some (t, f) => (s.elapseTo t).claimLate f.q
def execClaimTimeout (s : State) : Out := .next s.claimTimeout

/-- The chunks that an earlier chunk still holds (R464). -/
def State.holdWaits (s : State) : List (Nat × HeldChunk × Nat) :=
  (s.yd.held.zipIdx.filter (fun h => s.mustHold h.1.hdr)).map (fun h => (h.1.since.toNat + h.1.limit, h))
def State.holdTimeout (s : State) : State :=
  match earliest s.holdWaits with
  | none => s
  | some (t, h, i) =>
    let s := s.elapseTo t
    ({ s with yd := { s.yd with held := s.yd.held.eraseIdx i } }).holdLate h
def execFrameHoldTimeout (s : State) : Out := .next s.holdTimeout

/-- The COLLECTs and FWDs whose next chunk is incomplete (R473). -/
def State.chunkWaits (s : State) : List (Nat × QEntry × CollProg) :=
  s.fl.filterMap (fun f => match f.prog with
    | .coll c => if c.next < c.count && (s.chunkReady f.q c).isNone then some (c.due, f.q, c) else none
    | _ => none)
def State.chunkTimeout (s : State) : State :=
  match earliest s.chunkWaits with
  | none => s
  | some (t, q, c) => (s.elapseTo t).chunkLate q c
def execChunkWaitTimeout (s : State) : Out := .next s.chunkTimeout

/-! ### JOB_WATCHDOG (14 R531) and TRACE_ENTRY_TIMEOUT (12 R502) -/

/-- The watchdog of this launch runs; it raises its fault once. -/
def State.watched (s : State) : Bool := s.active && s.job.wdog ≠ 0 && !s.job.wdogDone
def State.wdogTick (s : State) : Nat := s.job.launch.toNat + s.job.wdog.toNat
def State.watchdog (s : State) : State :=
  if s.watched then
    let s := s.elapseTo s.wdogTick
    ({ s with job := { s.job with wdogDone := true } }).raiseAll 0x9004 (s.job.wdog.setWidth 64)
  else s
def execJobWatchdog (s : State) : Out := .next s.watchdog

/-- The records that have waited their 256 TCLK are dropped. -/
def execTraceEntryTimeout (s : State) : Out := .next { s with tr := s.tr.dropLate }

end Sys2Proof.Machine
end

