-- ==== Sys2Proof/Machine/Kpc.lean ====
section
/-! DEFINITION. The KPC's commands, loads, kills and profile switches, and the order in which commands are taken (02 R83 to
R96, R637; 14 R533 to R539; 15 R549, R557, R558, R570, R571; 18 Tables 18.2, 18.3, R633). -/

namespace Sys2Proof.Machine

/-! ### Completions of commands that are turned away -/

/-- An error completion: malformed, or not accepted in the state found (Table 14.6). -/
def State.cmdBad (s : State) (code : Byte) : State := (s.logOnly 0x6007 (infoP 33 s.now)).complete code 1 0x6007 []

/-- The command is taken (R633). -/
def State.taken (s : State) (code : Byte) : State := { s with cmd := { s.cmd with lastCode := code } }

def State.isReady (s : State) : Bool := decide (s.boot.phase = .ready)

/-! ### LOAD and DATA (R83 to R86, R570, R571, R618) -/

/-- A manifest that R570 calls malformed. -/
def manifestBad (m : Manifest) : Bool :=
  m.res39 ≠ 0 || m.resTail ≠ 0 || m.ports.toNat / 2 ^ 35 ≠ 0 || m.imgLen.toNat % 32 ≠ 0 || decide (524288 < m.imgLen.toNat)
  || m.entry.toNat % 32 ≠ 0 || m.entry.toNat / 2 ^ 19 ≠ 0

/-- The checks of Table 15.9 that fail, with their shortfalls, in the order of the resources. -/
def State.shortfalls (s : State) (m : Manifest) : List (Nat × Nat) :=
  let y := s.yardBytes
  let lost := fun (r have_ need : Nat) => if need ≤ have_ then [] else [(r, need - have_)]
  let groups := ((List.range 256).filter (fun g => m.groups.getLsbD g
    && !(s.cfg.active.groups.getLsbD g && decide ((g + 1) * 2 ^ 21 ≤ s.yardBase)))).length
  let ports := ((List.range 35).filter (fun p => m.ports.getLsbD p && !(s.port p).up)).length
  (if m.spadTop.toNat ≤ s.yardBase then [] else [(0, (m.spadTop.toNat - s.yardBase) / 4)])
  ++ (if m.yardNeed.toNat ≤ y then [] else [(1, (m.yardNeed.toNat - y) / 4)])
  ++ lost 2 0 groups ++ lost 3 s.svc.vcs.toNat m.vcs.toNat ++ lost 4 s.svc.platforms.toNat m.plats.toNat
  ++ lost 5 0 ports ++ (if s.job.chipValid then [] else [(6, 1)])

/-- The load is refused: the state returns under R85 and is reported with the code and result 2 (R571, R637). -/
def State.refuseLoad (s : State) (code : Nat) (info : W64) : State :=
  let c : BitVec 16 := BitVec.ofNat 16 code
  (s.logFault code 2 0 s.sb.nextSeq info).endLoad.reportState c 2 0

/-- The whole image has arrived: the rest of the memory becomes zero, and the manifest is checked (R84, R86, R571). -/
def State.loadDone (s : State) : State :=
  let m := s.job.manifest
  let mem := s.sb.mem.clear m.imgLen.toNat Config.sbSize
  let s := { s with sb := { s.sb with mem := mem, fmem := mem, ecc := [] } }
  match s.shortfalls m with
  | (r, n) :: _ => s.refuseLoad 0x7004 (infoC r n)
  | [] =>
    if m.distHash ≠ s.sp.distHash then s.refuseLoad 0x7005 (s.sp.distHash ++ m.distHash)
    else (s.toState stLoaded).reportState 0 0 0

/-- A LOAD is accepted: the fault registers clear, the job's uncorrectable lines are counted from here (16 R578), and the state is
LOADING (R539). -/
def State.acceptLoad (s : State) (m : Manifest) : State :=
  let s := { s with
    ft := { s.ft with valid := false, pc := 0, code := 0, tick := 0, info := 0, seq := 0, logged := 0, suppressed := 0
                      ovf := false, log := [] }
    bankJ := { s.bankJ with faultLog := 0 }, bankK := { s.bankK with faultLog := 0 }
    sp := { s.sp with bad := [] }
    job := { s.job with manifest := m, image := [] } }
  let s := (s.toState stLoading).complete 1 0 0 []
  if m.imgLen = 0 then s.loadDone else s

/-- A LOAD is held (R587): a pass runs, or the scrub does and a unit is marked failed. -/
def State.mustHoldLoad (s : State) : Bool := s.hl.pass || (s.job.state = stScrubbing && s.anyFailed)

def State.takeLoad (s : State) (m : Manifest) (junk : BitVec 56) : State :=
  if !s.isReady || junk ≠ 0 || manifestBad m || !(s.job.state = stIdle || s.job.state = stScrubbing) || s.pw.trip then s.cmdBad 1
  else if s.mustHoldLoad then { s with cmd := { s.cmd with heldLoad := some m } }
  else s.acceptLoad m

/-- Add [lo, hi) to a list of intervals of which no two touch. -/
def addInterval (l : List (Nat × Nat)) (lo hi : Nat) : List (Nat × Nat) :=
  let near := fun (p : Nat × Nat) => decide (p.1 ≤ hi ∧ lo ≤ p.2)
  let t := l.filter near
  (t.foldl (fun m p => min m p.1) lo, t.foldl (fun m p => max m p.2) hi) :: l.filter (fun p => !near p)

/-- A DATA message (R618): its bytes enter signal-box memory; the last ends LOADING. One outside LOADING or beyond the image is
unsolicited. -/
def State.takeData (s : State) (off : W64) (bytes : List Byte) : State :=
  let lo := off.toNat
  let hi := lo + bytes.length
  if s.job.state ≠ stLoading ∨ 2 ^ 32 ≤ lo ∨ s.job.manifest.imgLen.toNat < hi then s.logOnly 0x6007 (infoP 33 s.now)
  else
    let s := { s with
      sb := { s.sb with mem := s.sb.mem.writeBytes lo bytes
                        ecc := s.sb.ecc.filter (fun e => !decide (lo ≤ e.1 ∧ e.1 + 8 ≤ hi)) }
      job := { s.job with image := addInterval s.job.image lo hi } }
    if s.job.image.any (fun p => decide (p.1 = 0 ∧ s.job.manifest.imgLen.toNat ≤ p.2)) then s.loadDone else s

/-! ### LAUNCH (R87, R88) -/

/-- Fetch begins (R87). -/
def State.beginRun (s : State) : State := (s.toState stRunning).reportState 0 0 0

def State.takeLaunch (s : State) (t : W64) (junk : BitVec 56) : State :=
  if !s.isReady || junk ≠ 0 || s.job.state ≠ stLoaded then s.cmdBad 2
  else
    let s := ((s.launchReset t).toState stWaiting).complete 2 0 0 []
    if t.toNat ≤ s.now then s.beginRun else s

/-- LAUNCH_TICK. -/
def State.launchTick (s : State) : State :=
  if s.job.state ≠ stWaiting || s.job.kill.isSome then s
  else
    let s := s.elapseTo s.job.launch.toNat
    if s.job.launch.toNat ≤ s.now then s.beginRun else s

def execLaunchTick (s : State) : Out := .next s.launchTick

/-! ### KILL (R533 to R537) -/

/-- Every request made before the KILL is answered or has timed out: the job ends and KILL completes (R536). -/
def State.killEnds (s : State) : State :=
  if s.job.kill.isNone || !s.reqs.isEmpty then s
  else (({ s with job := { s.job with kill := none } }).endJob).complete 3 0 0 []

/-- Windows and slots close, every instruction is abandoned, nothing more leaves a port but answers and credits (R535). -/
def State.stopJob (s : State) : State :=
  let gone := s.fl.map (fun f => f.q.seq)
  let s := (s.closeWindows.releaseSlots).abandonFrom 0 none false
  { s with
    ft := { s.ft with halting := none }
    ports := s.ports.map (fun p => (p.1, if p.1 = 33 then p.2 else { p.2 with txq := [] }))
    yd := { s.yd with trigs := [] }
    job := { s.job with kill := some gone } }

def State.killable (s : State) : Bool :=
  s.job.state = stLoading || s.job.state = stLoaded || s.active || s.job.state = stFaulted

def State.takeKill (s : State) (preserve : Bool) (junk : BitVec 56) : State :=
  if !s.isReady || junk ≠ 0 || !s.killable then s.cmdBad 3
  else
    let s := { s with job := { s.job with preserve := preserve } }
    if s.job.state = stLoading then s.endLoad.complete 3 0 0 []
    else s.stopJob.killEnds

/-! ### PROFILE (R557, R558, Table 15.6) -/

/-- The groups outside the profile are OFF, and no transition of the others runs. One that a job left OFF and that both profiles
power is not new to the profile: it stays OFF (log 62). -/
def State.groupsSettled (s : State) : Bool :=
  (List.range 256).all (fun g => !(s.group g).held
    && ((s.group g).phase = .off || ((s.group g).phase = .on && s.cfg.active.groups.getLsbD g)))

/-- Change 2: power cap and power groups of the new profile; its yard, ports and time source follow in their order. -/
def State.switchPower (s : State) (n : Nat) (x : Profile) : State :=
  let old := s.cfg.active
  let s := ({ s with cfg := { s.cfg with
    profile := BitVec.ofNat 2 n, src := 2, switching := some (n, 2)
    active := { x with yardMib := old.yardMib, ports := old.ports, floors := old.floors, flags := old.flags } } }).profileCap
  let sel := fun (b : Bool) => (List.range 256).filter (fun g => old.groups.getLsbD g ≠ b && x.groups.getLsbD g = b)
  (s.groupsDown (sel false)).groupsUp (sel true)

/-- A port whose enable bit or, enabled, whose floor differs. -/
def portDiffers (old new : Profile) (p : Nat) : Bool :=
  old.ports.getLsbD p ≠ new.ports.getLsbD p
  || (new.ports.getLsbD p && (match (portClass p).index with
      | some c => bitsOf old.floors.toNat (8 * c) 8 ≠ bitsOf new.floors.toNat (8 * c) 8
      | none => false))

/-- Change 4: renegotiate, or hold down; a port that a link error has failed stays FAILED (17 R602). -/
def State.switchPorts (s : State) (n : Nat) (x : Profile) : State :=
  let old := s.cfg.active
  let s := { s with cfg := { s.cfg with switching := some (n, 4), active := { old with ports := x.ports, floors := x.floors } } }
  ((List.range 35).filter (fun p => portDiffers old x p && !(s.port p).broken)).foldl (fun s p =>
    if x.ports.getLsbD p then s.negotiate p
    else (s.setPort p { Port.down with crcErr := (s.port p).crcErr, drops := (s.port p).drops, dropIv := (s.port p).dropIv }).dropClass p) s

/-- One change of a switch, where what the one before waits for has come. -/
def State.switchOne (s : State) : State :=
  match s.cfg.switching with
  | none => s
  | some (n, k) =>
    match s.boot.profiles[n]? with
    | none => s
    | some x =>
      match k with
      | 1 => if s.pw.pllLock then s.switchPower n x else s
      | 2 => if s.groupsSettled then
          (let s := s.releaseSlots
           { s with cfg := { s.cfg with switching := some (n, 3), active := { s.cfg.active with yardMib := x.yardMib } } })
        else s
      | 3 => s.switchPorts n x
      | 4 => if !s.negotiated then s
          else if s.cfg.active.flags.toNat % 2 = x.flags.toNat % 2 then
            { s with cfg := { s.cfg with switching := some (n, 6), active := x } }
          else ({ s with cfg := { s.cfg with switching := some (n, 5), active := x } }).beginLock
      | 5 => if s.tbFree || s.tb.lock = 2 then { s with cfg := { s.cfg with switching := some (n, 6) } } else s
      | _ => s

/-- A switch goes on as far as it can (Table 15.6). -/
def State.advanceSwitch (s : State) : State := s.switchOne.switchOne.switchOne.switchOne.switchOne

/-- Change 1: the PLL relocks when the root differs. -/
def State.beginSwitch (s : State) (n : Nat) (x : Profile) : State :=
  let s := { s with cfg := { s.cfg with switching := some (n, 1) } }
  let s := if x.rootMhz = s.cfg.active.rootMhz then s else { s with pw := { s.pw with pllLock := false } }
  s.advanceSwitch

def State.takeProfileCmd (s : State) (n : Nat) (junk : BitVec 56) : State :=
  if !s.isReady || junk ≠ 0 then s.cmdBad 4
  else if n = s.cfg.profile.toNat then ({ s with cfg := { s.cfg with src := 2 } }).complete 4 0 0 []
  else
    let refuse := (s.logFault 0x7006 2 s.logPc s.sb.nextSeq (infoC 0 s.cfg.pins.toNat)).complete 4 2 0x7006 []
    match s.boot.profiles[n]? with
    | none => refuse
    | some x =>
      if s.job.state = stIdle && bitOf s.cfg.active.flags.toNat 1 && x.valid n then s.beginSwitch n x else refuse

/-! ### STATUS, RREG, WREG, IMAGE_DATA -/

def State.takeStatus (s : State) (junk : BitVec 56) : State :=
  if junk ≠ 0 then s.cmdBad 5 else s.complete 5 0 0 [s.readReg .kpc 0x108, s.readReg .kpc 0x3058]

/-- A register access by the KPC: a fault is logged and answered with an error completion that carries it, and the zero that a
faulting read returns (00 R19; R516). -/
def State.answerAccess (s : State) (code : Byte) (f : Option Flt) (vals : List W64) : State :=
  match f with
  | none => s.complete code 0 0 vals
  | some (c, i) => (s.logOnly c i).complete code 1 (BitVec.ofNat 16 c) vals

def State.takeRreg (s : State) (off : BitVec 21) (junk : BitVec 56) : State :=
  if junk ≠ 0 then s.cmdBad 6
  else let (s, v, f) := s.regRead .kpc off.toNat
       s.answerAccess 6 f [v]

def State.takeWreg (s : State) (off : BitVec 21) (v : W64) (junk : BitVec 56) : State :=
  if !s.isReady || junk ≠ 0 then s.cmdBad 7
  else let (s, f) := s.regWrite .kpc off.toNat v
       s.answerAccess 7 f []

def State.takeImage (s : State) (off : W64) (bytes : List Byte) (junk : BitVec 56) : State :=
  if junk ≠ 0 || !s.wantsImage || 2 ^ 32 ≤ off.toNat then s.cmdBad 8
  else (s.complete 8 0 0 []).imagePart off.toNat bytes

/-! ### Commands in order (R558, R633) -/

/-- Take one command, or a DATA message among them. -/
def State.takeCmd (s : State) (c : KCmd) : State :=
  match c with
  | .load m j => (s.taken 1).takeLoad m j
  | .launch t j => (s.taken 2).takeLaunch t j
  | .kill p j => (s.taken 3).takeKill p j
  | .profile n j => (s.taken 4).takeProfileCmd n.toNat j
  | .status j => (s.taken 5).takeStatus j
  | .rreg o j => (s.taken 6).takeRreg o j
  | .wreg o v j => (s.taken 7).takeWreg o v j
  | .imageData o bs j => (s.taken 8).takeImage o bs j
  | .unknown c => (s.taken c).cmdBad c
  | .data o bs => s.takeData o bs

/-- A KILL, a switch or a held LOAD runs, so no command is taken. -/
def State.cmdRuns (s : State) : Bool := s.job.kill.isSome || s.cfg.switching.isSome || s.cmd.heldLoad.isSome

/-- Take the waiting commands while none runs. -/
def State.drainN : Nat → State → State
  | 0, s => s
  | k + 1, s =>
    match s.cmd.queue with
    | [] => s
    | c :: cs => if s.cmdRuns then s
        else State.drainN k ((({ s with cmd := { s.cmd with queue := cs } }).doneWaiting (cs.length + 1)).takeCmd c)
def State.drainCmds (s : State) : State := s.drainN s.cmd.queue.length

/-- A command arrives on the command port: it waits behind what runs, or is taken. -/
def State.command (s : State) (c : KCmd) : State :=
  s.receiveCmd (fun s =>
    if s.cmdRuns || !s.cmd.queue.isEmpty then
      { s with cmd := { s.cmd with queue := s.cmd.queue ++ [c] } }
    else s.doneCmd.takeCmd c)

def execLoad (m : Manifest) (junk : BitVec 56) (s : State) : Out := .next (s.command (.load m junk))
def execLaunch (t : W64) (junk : BitVec 56) (s : State) : Out := .next (s.command (.launch t junk))
def execProfile (n : BitVec 2) (junk : BitVec 56) (s : State) : Out := .next (s.command (.profile n junk))
def execStatus (junk : BitVec 56) (s : State) : Out := .next (s.command (.status junk))
def execRreg (off : BitVec 21) (junk : BitVec 56) (s : State) : Out := .next (s.command (.rreg off junk))
def execWreg (off : BitVec 21) (v : W64) (junk : BitVec 56) (s : State) : Out := .next (s.command (.wreg off v junk))

/-- A body is whole 8-byte units, at most `n` of them after the first (Table 17.8, R618). -/
def bodyOk (bytes : List Byte) (n : Nat) : Bool := decide (bytes.length % 8 = 0 ∧ bytes.length ≤ 8 * n)

def execData (off : W64) (bytes : List Byte) (s : State) : Out :=
  .next (if bodyOk bytes 1023 then s.command (.data off bytes) else s.dropMsg 33 2)

/-- A message that R619 may drop; a well-formed COMMAND of a code that Table 18.2 does not list is taken and rejected (R633). -/
def State.messageArrives (s : State) (p : Nat) (link : W64) (body : List Byte) : State :=
  let code := body.head?.getD 0
  match s.dropReason p link body with
  | some r => s.dropMsg p r
  | none => if bitsOf link.toNat 58 6 = 0x0F && (code = 0 || decide (8 < code.toNat)) then s.command (.unknown code) else s
def execMessageDrop (port : Fin 35) (link : W64) (body : List Byte) (s : State) : Out :=
  .next (s.messageArrives port.val link body)

/-- KILL_DRAIN_COMPLETE: the requests that are left time out in their order, and the killed job ends (R536). -/
def State.killDrains (s : State) : State :=
  if s.job.kill.isNone then s else (s.reqs.length.repeat State.xferTimeout s).killEnds.drainCmds
def execKillDrainComplete (s : State) : Out := .next s.killDrains

/-- PROFILE_SWITCH_COMPLETE: the last change is made and PROFILE completes (R558). -/
def State.switchEnds (s : State) : State :=
  match s.cfg.switching with
  | some (_, 6) => (({ s with cfg := { s.cfg with switching := none } }).complete 4 0 0 []).drainCmds
  | _ => s
def execProfileSwitchComplete (s : State) : Out := .next s.switchEnds

/-! ### Negotiation attempts that end (R567) -/

/-- A port that has failed its last attempt: 0x6001, with the Start response on the command port, which goes on in the base mode
(R549, R567). A profile switch under way ends there, its PROFILE with an error completion, the model's choice (log 96), and the
commands that waited for it are taken as R549 has them. -/
def State.portFails (s : State) (p : Nat) : State :=
  let q := s.port p
  let s := ((s.setPort p { q with state := 3, confirmed := false }).dropClass p)
  if p = 33 then
    let t := { s.logFault 0x6001 3 0 s.sb.nextSeq (infoP p q.negAt.toNat) with
      boot := { s.boot with phase := .stopped }, svc := { s.svc with ready := false }, cfg := { s.cfg with switching := none } }
    if s.cfg.switching.isSome then (t.complete 4 1 0x6001 []).drainCmds else t
  else s.logOnly 0x6001 (infoP p q.negAt.toNat)

/-- An attempt's time ends without a match: another attempt, or out of service (R567). -/
def State.attemptEnds (s : State) (p : Nat) : State :=
  if !s.hears p || (s.port p).state ≠ 1 then s
  else
    let s := s.elapseClock ((s.port p).negFrom + 400 * s.boot.negUs)
    if s.boot.negTries ≤ (s.port p).attempts.toNat then s.portFails p else s.startAttempt p

end Sys2Proof.Machine
end

