-- ==== Sys2Proof/Machine/Events.lean ====
section
/-! DEFINITION. Events that let start-up, a profile switch, a scrub or a substitution pass go on (15 R546, R564 to R569,
Table 15.6; 09 R395 to R401; 16 R582 to R587). -/

namespace Sys2Proof.Machine

/-- What start-up or a profile switch waited for may have come. -/
def State.goOn (s : State) : State := s.bootGoesOn.advanceSwitch

/-! ### Clocks -/

/-- The relock of a profile switch (Table 15.6, order 1). -/
def State.switchLocked (s : State) : State :=
  match s.cfg.switching with
  | some (n, 1) =>
    match (if s.pw.pllLock then none else s.boot.profiles[n]? : Option Profile) with
    | some x => ({ s with pw := { s.pw with pllLock := true, rootMhz := x.rootMhz }
                          tb := { s.tb with inc := nominalInc x.rootMhz } }).advanceSwitch
    | none => s
  | _ => s

/-- PLL_LOCK: step 0 ends, or the relock of step 1 or of a switch (R546, R604, Table 15.1). -/
def State.pllLocks (s : State) : State :=
  if s.atStep 0 then s.firstLock
  else if s.atStep 1 && s.boot.relock then s.relocked
  else s.switchLocked
def execPllLock (s : State) : Out := .next s.pllLocks

/-- TIMEBASE_LOCK_TIMEOUT: start-up, or a switch, goes on without LOCKED (R568). -/
def State.lockTimeout (s : State) : State :=
  if s.atStep 6 then (s.lockLate.stepDone 6).becomeReady
  else match s.cfg.switching with
    | some (n, 5) => let s := s.lockLate
                     { s with cfg := { s.cfg with switching := some (n, 6) } }
    | _ => s
def execTimebaseLockTimeout (s : State) : Out := .next s.lockTimeout

/-! ### Ports -/

def execNegotiationAttemptTimeout (port : Fin 35) (s : State) : Out := .next (s.attemptEnds port.val).goOn

/-! ### Power groups -/

def execGroupSafePoint (g : BitVec 8) (s : State) : Out := .next (s.safePoint g.toNat).goOn
def execGroupRampDone (g : BitVec 8) (s : State) : Out := .next (s.rampDone g.toNat).goOn
def execGroupZeroingDone (g : BitVec 8) (s : State) : Out := .next (s.zeroingDone g.toNat).goOn

/-! ### The scrub and the substitution pass -/

/-- A held LOAD is taken up once the state is IDLE and no pass runs (R587), and rejected while THERM_TRIP_N is low (17 R613). -/
def State.releaseLoad (s : State) : State :=
  match s.cmd.heldLoad with
  | none => s
  | some m =>
    if s.hl.pass || s.job.state ≠ stIdle then s
    else
      let s := { s with cmd := { s.cmd with heldLoad := none } }
      (if s.pw.trip then s.cmdBad 1 else s.acceptLoad m).drainCmds

/-- SCRUB_COMPLETE: every line is scrubbed; without a job loaded the state becomes IDLE; what waited above the watermark goes on
in the order of 09 R377: ports, the array, the signal box, patrol (09 R400 to R402, 02 R85). -/
def State.scrubEnds (s : State) : State :=
  if !s.sp.scrubRun then s
  else
    let s := s.elapse (cdiv (32768 - s.sp.scrubWm) 96)
    let s := { s with sp := { s.sp with scrubRun := false, scrubWm := 32768, scrubOn := [] } }
    let s := if s.job.state = stScrubbing then ((s.toState stIdle).reportState 0 0 0).enterIdle else s
    (runDue scrubActs s.dueFuel s.releaseLoad).resumeScalar.startFront.unpark Parked.isPatrol
def execScrubComplete (s : State) : Out := .next s.scrubEnds

/-- SUBSTITUTION_PASS_END (R586, R587). -/
def execSubstitutionPassEnd (s : State) : Out := .next s.endPass.releaseLoad

end Sys2Proof.Machine
end

