-- ==== Sys2Proof/Machine/Access.lean ====
section
/-! DEFINITION. The rows that name one register access: each goes through the one read and the one write of the register map
(18 R620 to R629), with the fault of an access outside its rules (02 R51, 14 R516). -/

namespace Sys2Proof.Machine

/-- A write by a party: the KPC's is a WREG command, which the completion answers (R516); the job's is an S.REG WREG, which the
signal box can make while it issues and which waits for the array where R153 says so (R629). -/
def State.accessWrite (s : State) (by_ : Party) (off : Nat) (v : W64) : State :=
  match by_ with
  | .kpc => s.command (.wreg (BitVec.ofNat 21 off) v 0)
  | .job =>
    if !s.canIssue then s
    else if regWaits off && !s.drained then { s with sb := { s.sb with waitReg := some (off, v) } }
    else s.jobWrite off v

/-- A read by a party, for its effects: the KPC's is an RREG command. -/
def State.accessRead (s : State) (by_ : Party) (off : Nat) : State :=
  match by_ with
  | .kpc => s.command (.rreg (BitVec.ofNat 21 off) 0)
  | .job =>
    if !s.canIssue then s
    else let (t, _, f) := s.regRead .job off
         t.accessFault .job f

/-- JOB_CTL (02 R94). -/
def execJobCtlRelease (v : W64) (s : State) : Out := .next (s.accessWrite .kpc 0x0100 v)
/-- AMAX_CTL (03 R140). -/
def execAmaxCtlClear (by_ : Party) (v : W64) (s : State) : Out := .next (s.accessWrite by_ 0x0200 v)
/-- AMAX_DATA (03 R155). -/
def execAmaxDataWrite (by_ : Party) (v : W64) (s : State) : Out := .next (s.accessWrite by_ 0x0210 v)
/-- SPAD_MDATA (09 R404). -/
def execSpadMdataRead (s : State) : Out := .next (s.accessRead .kpc 0x0560)
/-- SPAD_MADDR (09 R405). -/
def execSpadMaddrWrite (v : W64) (s : State) : Out := .next (s.accessWrite .kpc 0x0558 v)
/-- WEAR_DATA (16 R591). -/
def execWearDataRead (s : State) : Out := .next (s.accessRead .kpc 0x4038)
/-- TRACE_REC0 (12 R504). -/
def execTraceRec0Read (by_ : Party) (s : State) : Out := .next (s.accessRead by_ 0x2048)
/-- CNT_CTL (12 R508). -/
def execCntCtlSnap (by_ : Party) (v : W64) (s : State) : Out := .next (s.accessWrite by_ 0x2080 v)
/-- CHIP_ID (02 R89). -/
def execChipIdWrite (v : W64) (s : State) : Out := .next (s.accessWrite .kpc 0x0030 v)
/-- PWR_CTL (17 R610). -/
def execPwrCtlWrite (v : W64) (s : State) : Out := .next (s.accessWrite .kpc 0x4800 v)

/-- An offset in the management window onto signal-box memory (02 R35). -/
def inMemoryWindow (off : Nat) : Bool := decide (0x10_0000 ≤ off ∧ off < 0x18_0000)

/-- A management access to signal-box memory: `v` is the value of a write (02 R35). -/
def execSignalBoxMemoryAccess (off : BitVec 21) (v : Option W64) (s : State) : Out :=
  .next (if !inMemoryWindow off.toNat then s
    else match v with
      | some x => s.accessWrite .kpc off.toNat x
      | none => s.accessRead .kpc off.toNat)

/-- The registers with RC fields (00 Table 0.4, 12 R509). -/
def rcRegs : List Nat :=
  [0x0028, 0x0128, 0x0190, 0x0220, 0x0308, 0x0400, 0x0408, 0x0500, 0x0510, 0x0610, 0x0620, 0x0628, 0x0710, 0x0748, 0x2010,
   0x2058, 0x3020, 0x3048, 0x4808]

/-- An RC read (12 R509, 18 R625). -/
def execReadToClear (by_ : Party) (off : BitVec 21) (s : State) : Out :=
  .next (if rcRegs.contains off.toNat then s.accessRead by_ off.toNat else s)

/-- A write to any register (18 R623). -/
def execRegisterWrite (by_ : Party) (off : BitVec 21) (v : W64) (s : State) : Out := .next (s.accessWrite by_ off.toNat v)

end Sys2Proof.Machine
end

