-- ==== Sys2Proof/Machine/Idle.lean ====
section
/-! DEFINITION. What the block does by itself when no command waits: one TCLK passes, then everything that is due happens, and
the signal box fetches its next instruction (log 3). -/

namespace Sys2Proof.Machine

/-- Read the instruction at the PC through ECC (02 R31, R34): its word, or none where the read fails. -/
def State.fetch (s : State) : Option InsWord × State :=
  let pc := s.sb.pc.toNat
  match s.sbEccAll pc 32 with
  | (t, some a) => (none, t.sbFail 5 a)
  | (t, none) => (some (InsWord.ofBits (BitVec.ofNat 256 (t.sb.fmem.readLE pc 32))), t)

/-- A limit of these waits has been reached. -/
def State.due {α : Type} (s : State) (ws : List (Nat × α)) : Bool := ws.any (fun w => decide (w.1 ≤ s.now))

/-- The presence wait of the front of the queue has lasted its grace with a count unmet (02 R78). -/
def State.graceDue (s : State) : Bool :=
  match s.tq with
  | [] => false
  | q :: _ => !q.short.isEmpty && decide (q.readyTick + q.grace ≤ s.now)
    && (opOf q.w.toInstr).any (fun op => !(s.short (op.present q s)).isEmpty)

/-- The front of the queue becomes ready, starts, or begins to wait now (02 R73 to R80). -/
def State.frontMoves (s : State) : Bool :=
  match s.tq with
  | [] => false
  | q :: _ =>
    match opOf q.w.toInstr with
    | none => false
    | some op =>
      let sh := s.short (op.present q s)
      if q.readyAt.isNone then s.allowed op q
      else if decide (s.now < (q.startAt.getD 0).toNat) then false
      else (q.short.isEmpty || sh.isEmpty) && s.allowed op q

/-- The window check in flight whose presence wait has lasted its grace. -/
def State.checkDue (s : State) : Option Inflight :=
  s.fl.find? (fun f => match f.prog with
    | .presence ws since grace => decide (since.toNat + grace ≤ s.now) && !(s.short ws).isEmpty
    | _ => false)

/-- The port whose negotiation attempt has lasted its time (15 R567). -/
def State.attemptDue (s : State) : Option Nat :=
  (List.range 35).find? (fun p => s.hears p && decide ((s.port p).state = 1)
    && decide ((s.port p).negFrom + 400 * s.boot.negUs ≤ s.clock))

/-- The waits of Table 14.5 whose limit has come: an event at the limit is late (14 R527). -/
def limitActs : List Act :=
  [(fun s => s.watched && decide (s.wdogTick ≤ s.now), State.watchdog),
   (fun s => s.due s.stallWaits, State.stallTimeout),
   (fun s => s.due s.xferWaits, State.xferTimeout),
   (fun s => s.trigDue.isSome, fun s => match s.trigDue with | some t => s.trigLate t | none => s),
   (fun s => s.due s.waitWaits, State.waitTimeout),
   (fun s => s.due s.claimWaits, State.claimTimeout),
   (fun s => s.due s.holdWaits, State.holdTimeout),
   (fun s => s.due s.chunkWaits, State.chunkTimeout),
   (State.graceDue, State.graceFront),
   (fun s => s.checkDue.isSome, fun s => match s.checkDue with | some f => s.presenceFails f | none => s),
   (fun s => s.attemptDue.isSome, fun s => match s.attemptDue with | some p => (s.attemptEnds p).goOn | none => s),
   (fun s => s.tb.lock ≠ 0 && s.tb.lock ≠ 3 && s.pulsesLost,
    State.holdover),
   (fun s => s.loadWaits && decide (s.boot.loadFrom + loadLimit ≤ s.clock), State.loadTimeout),
   (fun s => s.locking && !s.tbFree && decide (s.lockEnd ≤ s.now), State.lockTimeout)]

/-- What takes effect before an arrival of the same tick is judged (10 R432, R436; 11 R463): what waited for the scrub at the
ports and in the array, the last trigger of a T.XPR, and the instructions that complete and start. -/
def arriveActs : List Act :=
  scrubActs ++
  [(fun s => s.lastDue.isSome, State.postLast),
   (fun s => s.fl.head?.any s.instDone, State.completeOldest),
   (State.frontMoves, State.startFront)]

/-- What can be due at a TCLK, in the order in which it is looked for. -/
def dueActs : List Act :=
  (fun s => s.job.state = stWaiting && s.job.kill.isNone && decide (s.job.launch.toNat ≤ s.now), State.launchTick) :: limitActs ++
  arriveActs ++
  [(fun s => s.sb.wait.any (fun w => (opOf w.toInstr).isSome) && decide (s.tq.length < Config.queueRoom)
      && s.ft.halting.isNone && s.job.kill.isNone, State.enterQueue),
   (State.spldFree, State.resumeScalar),
   (fun s => !s.yd.trigs.isEmpty && s.trigPort.isSome, State.handNext),
   (fun s => s.job.kill.isSome && s.reqs.isEmpty, State.killDrains),
   (fun s => (match s.cfg.switching with | some (_, 6) => true | _ => false), State.switchEnds),
   (fun s => s.sp.scrubRun && decide (s.sp.scrubWm = 32768), State.scrubEnds),
   (fun s => s.tr.anyLate, fun s => { s with tr := s.tr.dropLate }),
   (State.patrolFreed, fun s => s.unpark Parked.isPatrol)]

/-- Every wait whose limit has come ends; an arrival at that tick comes after (14 R527). -/
def State.expire (s : State) : State := runDue limitActs s.dueFuel s
/-- What comes before an arrival of this tick that is to be judged: the waits whose limit has come, then what acts at this tick. -/
def State.beforeArrival (s : State) : State := runDue arriveActs s.dueFuel s.expire
/-- Everything that is due at this tick happens. -/
def State.settle (s : State) : State := runDue dueActs s.dueFuel s

/-- One TCLK of the block by itself: the state, and the instruction that the signal box then takes, if it takes one. -/
def State.idle (s : State) : State × Option Instr :=
  if s.boot.phase = .inReset then (s, none)
  else
    let s := (s.elapse 1).settle
    if s.canIssue then
      match s.fetch with
      | (some w, t) => (t, some w.toInstr)
      | (none, t) => (t, none)
    else (s, none)

end Sys2Proof.Machine
end

