-- ==== Sys2Proof/Machine/Arrive.lean ====
section
/-! DEFINITION. Messages, pins, pulses and commands that can end a wait: the waits whose limit has come end first (14 R527), a remote write
or a chunk also finds done what acts at its tick (10 R432, 11 R463), and a KILL finds what is due at its tick done (14 R537). -/

namespace Sys2Proof.Machine

/-- A CAP word (15 R564). -/
def execCap (port : Fin 35) (word : W64) (s : State) : Out := .next (s.expire.capArrives port.val word)

/-- A confirm word; start-up or a profile switch may go on (15 R566, R567). -/
def execConfirm (port : Fin 35) (word : W64) (s : State) : Out := .next (s.expire.confirmArrives port.val word).goOn

/-- CREDIT (17 R600). -/
def execCredit (port : Fin 35) (word : W64) (s : State) : Out := .next (s.expire.creditArrives port.val word)

/-- A filtered PTB pulse (12 R494). -/
def execPtbPulse (s : State) : Out := .next s.expire.pulse.goOn

/-- An ACC_TILE message (17 Table 17.8). -/
def execAccTile (port : Fin 35) (hdr : W64) (data : List W32) (s : State) : Out :=
  let s := s.expire
  .next (if data.length ≠ 1024 then s.dropMsg port.val 2
    else s.receive port.val [.intake] 0 (fun s => s.tileArrives port.val hdr data))

/-- An RWRITE message: 1 to 32 words (17 Table 17.8). -/
def execRwrite (port : Fin 35) (hdr : RwHdr) (words : List W32) (s : State) : Out :=
  let s := s.beforeArrival
  .next (if words.length = 0 ∨ 32 < words.length then s.dropMsg port.val 2
    else s.receive port.val [.net, .peer] 1 (fun s => s.writeArrives port.val hdr words))

/-- An ANSWER message (10 R439, 11 R463). -/
def execAnswer (port : Fin 35) (word : W64) (s : State) : Out :=
  .next (s.expire.receive port.val [.net, .peer] 0 (fun s => s.answerArrives port.val word))

/-- A CHUNK message (11 R463). -/
def execChunk (port : Fin 35) (hdr : ChunkHdr) (payload : List Byte) (s : State) : Out :=
  .next (s.beforeArrival.chunkArrives port.val hdr payload)

/-- An EVENT message (17 Table 17.8). -/
def execEvent (port : Fin 35) (b : EventBody) (s : State) : Out :=
  .next (s.expire.receive port.val [.net] 0 (fun s => s.eventArrives port.val b))

/-- An MRESP message: a line, or an acknowledgement without one (17 Table 17.8). -/
def execMresp (port : Fin 35) (hdr : MrespHdr) (line : List Byte) (s : State) : Out :=
  let s := s.expire
  .next (if line.length ≠ (if hdr.ack then 0 else 128) then s.dropMsg port.val 2
    else s.receive port.val [.mem, .host] 0 (fun s => s.memResponse port.val hdr line))

/-- IMAGE_DATA: a part of the configuration image (15 R550). -/
def execImageData (args : ImageArgs) (bytes : List Byte) (s : State) : Out :=
  let s := s.expire
  .next (if bodyOk bytes 1022 then s.command (.imageData args.offset bytes args.junk) else s.dropMsg 33 2)

/-- PROFILE_SEL_SAMPLING (14 Table 14.6, 15 R556). -/
def execProfileSelSampling (pins : BitVec 2) (s : State) : Out := .next (s.expire.samplePins pins)

/-- KILL (14 R533 to R537). -/
def execKill (preserve : Bool) (junk : BitVec 56) (s : State) : Out := .next (s.settle.command (.kill preserve junk))

end Sys2Proof.Machine
end

