-- ==== Sys2Proof/Machine/Dispatch.lean ====
section
/-! DEFINITION. One arm per command: its meaning. -/

namespace Sys2Proof.Machine

def exec (i : Instr) (s : State) : Host.Outcome State Fault Refusal :=
  match i with
  | .nop w => Sys2Proof.Machine.execNop w s
  | .tfence w => Sys2Proof.Machine.execTfence w s
  | .ifence w => Sys2Proof.Machine.execIfence w s
  | .sAlu w => Sys2Proof.Machine.execSAlu w s
  | .sAlui w => Sys2Proof.Machine.execSAlui w s
  | .sDiv w => Sys2Proof.Machine.execSDiv w s
  | .sLd w => Sys2Proof.Machine.execSLd w s
  | .spld w => Sys2Proof.Machine.execSpld w s
  | .sSt w => Sys2Proof.Machine.execSSt w s
  | .sBr w => Sys2Proof.Machine.execSBr w s
  | .sJmp w => Sys2Proof.Machine.execSJmp w s
  | .dld w => Sys2Proof.Machine.execDld w s
  | .dsto w => Sys2Proof.Machine.execDsto w s
  | .dsetf w => Sys2Proof.Machine.execDsetf w s
  | .dgetf w => Sys2Proof.Machine.execDgetf w s
  | .sPset w => Sys2Proof.Machine.execSPset w s
  | .now w => Sys2Proof.Machine.execNow w s
  | .getep w => Sys2Proof.Machine.execGetep w s
  | .setep w => Sys2Proof.Machine.execSetep w s
  | .sRegRreg w => Sys2Proof.Machine.execSRegRreg w s
  | .sRegWreg w => Sys2Proof.Machine.execSRegWreg w s
  | .sStep w => Sys2Proof.Machine.execSStep w s
  | .halt w => Sys2Proof.Machine.execHalt w s
  | .tensorQueueRoom => Sys2Proof.Machine.execTensorQueueRoom s
  | .binary w => Sys2Proof.Machine.execBinary w s
  | .unary w => Sys2Proof.Machine.execUnary w s
  | .ternary w => Sys2Proof.Machine.execTernary w s
  | .compareAndSelect w => Sys2Proof.Machine.execCompareAndSelect w s
  | .specialFunctions w => Sys2Proof.Machine.execSpecialFunctions w s
  | .tCvt w => Sys2Proof.Machine.execTCvt w s
  | .tRed w => Sys2Proof.Machine.execTRed w s
  | .tNorm w => Sys2Proof.Machine.execTNorm w s
  | .topk w => Sys2Proof.Machine.execTopk w s
  | .hist w => Sys2Proof.Machine.execHist w s
  | .dispatch w => Sys2Proof.Machine.execDispatch w s
  | .smax w => Sys2Proof.Machine.execSmax w s
  | .lse w => Sys2Proof.Machine.execLse w s
  | .tDot w => Sys2Proof.Machine.execTDot w s
  | .stream w => Sys2Proof.Machine.execStream w s
  | .merge w => Sys2Proof.Machine.execMerge w s
  | .tCopy w => Sys2Proof.Machine.execTCopy w s
  | .tGath w => Sys2Proof.Machine.execTGath w s
  | .scatter w => Sys2Proof.Machine.execScatter w s
  | .scatterAdd w => Sys2Proof.Machine.execScatterAdd w s
  | .tXfer w => Sys2Proof.Machine.execTXfer w s
  | .offl w => Sys2Proof.Machine.execOffl w s
  | .reld w => Sys2Proof.Machine.execReld w s
  | .winOpen w => Sys2Proof.Machine.execWinOpen w s
  | .winClose w => Sys2Proof.Machine.execWinClose w s
  | .winExpect w => Sys2Proof.Machine.execWinExpect w s
  | .waitcl w => Sys2Proof.Machine.execWaitcl w s
  | .claim w => Sys2Proof.Machine.execClaim w s
  | .contrib w => Sys2Proof.Machine.execContrib w s
  | .collect w => Sys2Proof.Machine.execCollect w s
  | .release w => Sys2Proof.Machine.execRelease w s
  | .fwd w => Sys2Proof.Machine.execFwd w s
  | .post w => Sys2Proof.Machine.execPost w s
  | .triggerHandover => Sys2Proof.Machine.execTriggerHandover s
  | .trigWait w => Sys2Proof.Machine.execTrigWait w s
  | .tickBarrier w => Sys2Proof.Machine.execTickBarrier w s
  | .windowCheck w => Sys2Proof.Machine.execWindowCheck w s
  | .tMark w => Sys2Proof.Machine.execTMark w s
  | .powerDown w => Sys2Proof.Machine.execPowerDown w s
  | .powerUp w => Sys2Proof.Machine.execPowerUp w s
  | .zero w => Sys2Proof.Machine.execZero w s
  | .record w => Sys2Proof.Machine.execRecord w s
  | .check w => Sys2Proof.Machine.execCheck w s
  | .instructionStart => Sys2Proof.Machine.execInstructionStart s
  | .presenceGraceExpiry => Sys2Proof.Machine.execPresenceGraceExpiry s
  | .tensorInstructionComplete => Sys2Proof.Machine.execTensorInstructionComplete s
  | .waittTickReached => Sys2Proof.Machine.execWaittTickReached s
  | .load m junk => Sys2Proof.Machine.execLoad m junk s
  | .data offset bytes => Sys2Proof.Machine.execData offset bytes s
  | .launch tick junk => Sys2Proof.Machine.execLaunch tick junk s
  | .launchTick => Sys2Proof.Machine.execLaunchTick s
  | .kill preserve junk => Sys2Proof.Machine.execKill preserve junk s
  | .killDrainComplete => Sys2Proof.Machine.execKillDrainComplete s
  | .profile n junk => Sys2Proof.Machine.execProfile n junk s
  | .profileSwitchComplete => Sys2Proof.Machine.execProfileSwitchComplete s
  | .status junk => Sys2Proof.Machine.execStatus junk s
  | .rreg off junk => Sys2Proof.Machine.execRreg off junk s
  | .wreg off v junk => Sys2Proof.Machine.execWreg off v junk s
  | .imageData args bytes => Sys2Proof.Machine.execImageData args bytes s
  | .jobCtlRelease v => Sys2Proof.Machine.execJobCtlRelease v s
  | .amaxCtlClear by_ v => Sys2Proof.Machine.execAmaxCtlClear by_ v s
  | .amaxDataWrite by_ v => Sys2Proof.Machine.execAmaxDataWrite by_ v s
  | .spadMdataRead => Sys2Proof.Machine.execSpadMdataRead s
  | .spadMaddrWrite v => Sys2Proof.Machine.execSpadMaddrWrite v s
  | .wearDataRead => Sys2Proof.Machine.execWearDataRead s
  | .traceRec0Read by_ => Sys2Proof.Machine.execTraceRec0Read by_ s
  | .cntCtlSnap by_ v => Sys2Proof.Machine.execCntCtlSnap by_ v s
  | .chipIdWrite v => Sys2Proof.Machine.execChipIdWrite v s
  | .pwrCtlWrite v => Sys2Proof.Machine.execPwrCtlWrite v s
  | .signalBoxMemoryAccess off v => Sys2Proof.Machine.execSignalBoxMemoryAccess off v s
  | .readToClear by_ off => Sys2Proof.Machine.execReadToClear by_ off s
  | .registerWrite by_ off v => Sys2Proof.Machine.execRegisterWrite by_ off v s
  | .cap port word => Sys2Proof.Machine.execCap port word s
  | .confirm port word => Sys2Proof.Machine.execConfirm port word s
  | .negotiationAttemptTimeout port => Sys2Proof.Machine.execNegotiationAttemptTimeout port s
  | .credit port word => Sys2Proof.Machine.execCredit port word s
  | .accTile port hdr data => Sys2Proof.Machine.execAccTile port hdr data s
  | .rwrite port hdr words => Sys2Proof.Machine.execRwrite port hdr words s
  | .answer port word => Sys2Proof.Machine.execAnswer port word s
  | .chunk port hdr payload => Sys2Proof.Machine.execChunk port hdr payload s
  | .chunkHoldRelease port => Sys2Proof.Machine.execChunkHoldRelease port s
  | .event port b => Sys2Proof.Machine.execEvent port b s
  | .mresp port hdr line => Sys2Proof.Machine.execMresp port hdr line s
  | .tick port t => Sys2Proof.Machine.execTick port t s
  | .linkError port word => Sys2Proof.Machine.execLinkError port word s
  | .messageDrop port link body => Sys2Proof.Machine.execMessageDrop port link body s
  | .reset => Sys2Proof.Machine.execReset s
  | .resetRelease => Sys2Proof.Machine.execResetRelease s
  | .pllLock => Sys2Proof.Machine.execPllLock s
  | .pllLossOfLock => Sys2Proof.Machine.execPllLossOfLock s
  | .configurationLoadTimeout => Sys2Proof.Machine.execConfigurationLoadTimeout s
  | .memorySelfTest failed => Sys2Proof.Machine.execMemorySelfTest failed s
  | .latticeSelfTest wrong => Sys2Proof.Machine.execLatticeSelfTest wrong s
  | .timebaseLockTimeout => Sys2Proof.Machine.execTimebaseLockTimeout s
  | .ptbPulse => Sys2Proof.Machine.execPtbPulse s
  | .holdover => Sys2Proof.Machine.execHoldover s
  | .thermWarnN level => Sys2Proof.Machine.execThermWarnN level s
  | .thermTripN level => Sys2Proof.Machine.execThermTripN level s
  | .governorInterval a temps => Sys2Proof.Machine.execGovernorInterval a temps s
  | .monitorWindow samples => Sys2Proof.Machine.execMonitorWindow samples s
  | .patrol line found copies => Sys2Proof.Machine.execPatrol line found copies s
  | .eccWriteBack line => Sys2Proof.Machine.execEccWriteBack line s
  | .scrubComplete => Sys2Proof.Machine.execScrubComplete s
  | .substitutionPassEnd => Sys2Proof.Machine.execSubstitutionPassEnd s
  | .groupSafePoint g => Sys2Proof.Machine.execGroupSafePoint g s
  | .groupRampDone g => Sys2Proof.Machine.execGroupRampDone g s
  | .groupZeroingDone g => Sys2Proof.Machine.execGroupZeroingDone g s
  | .windowCloseTick win => Sys2Proof.Machine.execWindowCloseTick win s
  | .drainEnd win => Sys2Proof.Machine.execDrainEnd win s
  | .stallTimeout => Sys2Proof.Machine.execStallTimeout s
  | .transferTimeout => Sys2Proof.Machine.execTransferTimeout s
  | .triggerAcceptanceTimeout => Sys2Proof.Machine.execTriggerAcceptanceTimeout s
  | .waitTimeout => Sys2Proof.Machine.execWaitTimeout s
  | .claimTimeout => Sys2Proof.Machine.execClaimTimeout s
  | .frameHoldTimeout => Sys2Proof.Machine.execFrameHoldTimeout s
  | .chunkWaitTimeout => Sys2Proof.Machine.execChunkWaitTimeout s
  | .jobWatchdog => Sys2Proof.Machine.execJobWatchdog s
  | .traceEntryTimeout => Sys2Proof.Machine.execTraceEntryTimeout s
  | .profileSelSampling pins => Sys2Proof.Machine.execProfileSelSampling pins s

end Sys2Proof.Machine
end

