-- ==== Sys2Proof/Safety.lean ====
section
/-! DEFINITION. What counts as a safe state: the invariants that statements are made in. -/

namespace Sys2Proof.Machine

/-- Every memory of the state is in canonical form. -/
def State.memOk (s : State) : Bool := Memory.wf s.sp.mem && Memory.wf s.sb.mem && Memory.wf s.sb.fmem

end Sys2Proof.Machine
end

