-- ==== Sys2Proof/WellFormed.lean ====
section
/-! DEFINITION. Which commands a sender can form: an instruction word belongs to its row, and a message's body has a
length its type allows (17 Table 17.8). -/

namespace Sys2Proof

/-- The instruction word a command presents, if it is an instruction row. -/
def Instr.word? : Instr → Option InsWord
  | .nop w | .tfence w | .ifence w | .sAlu w | .sAlui w | .sDiv w | .sLd w | .spld w | .sSt w | .sBr w | .sJmp w
  | .dld w | .dsto w | .dsetf w | .dgetf w | .sPset w | .now w | .getep w | .setep w | .sRegRreg w | .sRegWreg w
  | .sStep w | .halt w | .binary w | .unary w | .ternary w | .compareAndSelect w | .specialFunctions w | .tCvt w
  | .tRed w | .tNorm w | .topk w | .hist w | .dispatch w | .smax w | .lse w | .tDot w | .stream w | .merge w
  | .tCopy w | .tGath w | .scatter w | .scatterAdd w | .tXfer w | .offl w | .reld w | .winOpen w | .winClose w
  | .winExpect w | .waitcl w | .claim w | .contrib w | .collect w | .release w | .fwd w | .post w | .trigWait w
  | .tickBarrier w | .windowCheck w | .tMark w | .powerDown w | .powerUp w | .zero w | .record w | .check w => some w
  | _ => none

/-- Units of each kind that the monitors measure (16 Tables 16.1, 16.2). -/
def monitored (kind : Nat) : Nat :=
  match kind with
  | 0 => 2176 | 1 => 8704 | 2 => 1152 | 3 => 19584 | 4 => 9 | 5 => 2 | _ => 0

/-- The samples of one window: every ring oscillator once, and one bank of each district, at one place of their rotation (Table 16.2). -/
def samplesOk (l : List Sample) : Bool :=
  l.all (fun m => decide (m.index.toNat < monitored m.kind.toNat))
  && l.all (fun m => m.kind ≠ 1 || l.all (fun n => n.kind ≠ 1 || m.index.toNat % 68 = n.index.toNat % 68))
  && decide (l.length = 2176 + 128 + 1152 + 19584 + 9 + 2) && decide (l.map (fun m => (m.kind, m.index))).Nodup

/-- What one reading of a line finds: each ECC word once, and at most one copy of the poison bit flipped. -/
def patrolOk (found : List EccFind) (copies : BitVec 3) : Bool :=
  decide (found.map EccFind.word).Nodup && (copies = 0 || copies = 1 || copies = 2 || copies = 4)

/-- A command that a sender can form. -/
def Instr.wf (i : Instr) : Bool :=
  (match i.word? with
   | some w => w.ofRow i
   | none => true) &&
  match i with
  | .data _ bytes => decide (bytes.length % 8 = 0 ∧ bytes.length ≤ 8 * 1023)
  | .imageData _ bytes => decide (bytes.length % 8 = 0 ∧ bytes.length ≤ 8 * 1022)
  | .accTile _ _ d => decide (d.length = 1024)
  | .rwrite _ _ ws => decide (1 ≤ ws.length ∧ ws.length ≤ 32)
  | .chunk _ _ p => decide (p.length = 4096 ∨ p.length = 2048)
  | .mresp _ h l => decide (l.length = if h.ack then 0 else 128)
  | .memorySelfTest failed => failed.all (fun i => decide (i < 8704))
  | .latticeSelfTest wrong => wrong.all (fun p => decide (p.1 < 1152))
  | .governorInterval _ temps => temps.all (fun p => decide (p.1 < 128))
  | .monitorWindow samples => samplesOk samples
  | .patrol _ found copies => patrolOk found copies
  | .messageDrop _ _ body => decide (body.length % 8 = 0)
  | _ => true

end Sys2Proof
end

