-- ==== Sys2Proof/Certificates/Slice0/Obligations.lean ====
section
/-! DEFINITION. The statements for the provers, and the small vocabulary they are written in (namespace Claims). -/

open Sys2Proof Sys2Proof.Machine

namespace Sys2Proof.Claims

/-! ### Vocabulary -/

/-- The word of opcode `opc` and function `fn` whose other fields are zero (Table 2.2). -/
def word (opc fn : Byte) : InsWord := { InsWord.blank with opc := opc, fn := fn }

/-- The signal box takes the instruction at its head of issue: RUNNING, not waiting, no halt and no KILL under way. -/
def issues (s : State) : Prop :=
  s.job.state = 4 ∧ s.sb.wait = none ∧ s.sb.waitReg = none ∧ s.ft.halting = none ∧ s.job.kill = none

/-- The array is empty: every earlier tensor instruction has completed. -/
def empty (s : State) : Prop := s.fl = [] ∧ s.tq = []

/-- The next address PC + 32 is an address of R33: at most 0x7_FFE0. -/
def room (s : State) : Prop := s.sb.pc.toNat + 32 ≤ 0x7FFE0

/-- A scalar register number. -/
def reg (r : BitVec 6) : Prop := r.toNat < 32

/-- Info words of 14 Table 14.3: format A with an operand and an address, format W with a window. -/
def infoAt (operand addr : Nat) : W64 := BitVec.ofNat 64 (operand * 2 ^ 56 + addr % 2 ^ 48)
def infoWin (hi win : Nat) : W64 := BitVec.ofNat 64 (hi * 2 ^ 32 + win)

/-- The block attends to its ports: it is out of reset, and no start-up fault has stopped it (R545, 14 Table 14.1). -/
def attends (s : State) : Prop := s.boot.phase ≠ .inReset ∧ s.boot.phase ≠ .stopped

/-- No wait of Table 14.5 has reached its limit: an arrival finds none to end first (R527). -/
def onTime (s : State) : Prop := firstDue limitActs s = none

/-- The tick goes on: the timebase runs (R493, R569). -/
def ticking (s : State) : Prop := s.tb.on = true ∧ 1 ≤ s.tb.inc.toNat

/-- Nothing at this tick comes before an arrival that a window or a frame judges: no wait has reached its limit, nothing that waited for
the scrub goes on, and no instruction completes or starts (R402, R432, R436, R463). -/
def atRest (s : State) : Prop := onTime s ∧ firstDue arriveActs s = none

/-- The scrub that runs has not reached line `line` (R402). -/
def unscrubbed (s : State) (line : Nat) : Prop :=
  s.sp.scrubRun = true ∧ line / 2 ^ 21 ∈ s.sp.scrubOn ∧ s.sp.scrubWm ≤ line / 128 % 32768

/-- From `s` to `t` one more fault is logged, `code` with its response (0 Halt, 1 Log, 2 Refuse, 3 Start) and info word, at the
tick of `t`; the log holds 64 entries (R515). -/
def logs (s t : State) (code : BitVec 16) (resp : BitVec 2) (info : W64) : Prop :=
  t.ft.logged = satAdd s.ft.logged 1 ∧ (64 ≤ s.ft.log.length → t.ft.log = s.ft.log ∧ t.ft.ovf = true) ∧
  (s.ft.log.length < 64 → ∃ pc, t.ft.log = s.ft.log ++ [⟨code, resp, pc, t.tickW, info⟩])

/-- `t` is `s` after an instruction that goes on: the PC is 32 further. -/
def goneOn (s : State) : State := { s with sb := { s.sb with pc := s.sb.pc + 32 } }

/-- `t` is `s` with register `r` at `v` and the PC 32 further, and nothing else changed; s0 reads zero and ignores the write. -/
def wrote (s t : State) (r : BitVec 6) (v : W64) : Prop :=
  t = { goneOn s with sb := { (goneOn s).sb with s := t.sb.s } }
    ∧ ∀ k, t.getS k = if k = 0 then 0 else if k = r.toNat then v else s.getS k

/-- The signal box stops at the instruction with a fault of Halt response: the fault record names it, no scalar, descriptor or
predicate register, byte of signal-box memory or PC changes, and with an empty array the job is FAULTED at once (R44, R515). -/
def stops (s t : State) (code : BitVec 16) (info : W64) : Prop :=
  t.ft.valid = true ∧ t.ft.code = code ∧ t.ft.info = info ∧ t.ft.pc = s.sb.pc ∧ t.ft.tick = s.tickW
    ∧ t.sb.s = s.sb.s ∧ t.sb.d = s.sb.d ∧ t.sb.p = s.sb.p ∧ t.sb.mem = s.sb.mem ∧ t.sb.fmem = s.sb.fmem
    ∧ (empty s → t.job.state = 6 ∧ t.sb.pc = s.sb.pc ∧ t.sp = s.sp ∧ empty t)

end Sys2Proof.Claims

open Sys2Proof.Claims

/-! ### The machine -/

/-- A step takes the command at the front of the queue and runs it on the state with the queue's rest. -/
def Obligations.StepRunsFrontCommand : Prop :=
  ∀ (c : Instr) (rest : List Instr) (s : State), s.pending = c :: rest → step s = exec c { s with pending := rest }

namespace Sys2Proof.Claims

/-- BUSY_ARRAY and the eight IDLE counters, in the order of Table 12.6. -/
def counts (c : Counters) : List W64 :=
  [c.busyArray, c.idleMatrix, c.idleNet, c.idleWindow, c.idleYard, c.idleMem, c.idleTime, c.idlePower, c.idleIssue]

/-- The place in that list of the counter of a wait in flight (Table 12.4); none where it may be at a port. -/
def waitsOn : Prog → Option Nat
  | .scrub => some 5 | .xpr g => some (if g.waiting.isEmpty && g.left.any (· ≠ 0) then 1 else 5)
  | .trigWait .. => some 2 | .waitcl _ => some 3 | .presence .. => some 3 | .claim .. => some 4
  | .dma _ => some 5 | .offl .. => some 5 | .untilTick _ => some 6 | .spad _ => some 7 | .coll _ => none | .lastTrig .. => none
  | .idle => none

end Sys2Proof.Claims

/-- The model's own rule for an empty queue (log 3): in reset nothing happens; else one TCLK passes, everything that is due at its tick
happens, one thing after another, and then a signal box that takes instructions runs the row of the word it fetches. A TCLK, which is
four ACLK, in which the job is RUNNING adds 4 to RUN_ACLK and to exactly one of BUSY_ARRAY and the eight IDLE counters (R506, Table
12.4): the array's while an instruction executes, a stream's chain among them; the oldest instruction's wait, IDLE_MEM where the scrub
holds it (R402); IDLE_ISSUE with none incomplete, or, the model's choice (log 51), where R68, R138 or R280 holds the next. In any other
state none counts. -/
def Obligations.EmptyQueuePassesOneClock : Prop :=
  ((∀ s : State, s.pending = [] → s.boot.phase = .inReset → step s = .next s) ∧
  (∀ s : State, firstDue dueActs s = none → s.settle = s) ∧
  (∀ s t : State, firstDue dueActs s = some t → ∃ k, s.settle = runDue dueActs k t) ∧
  (∀ s : State, s.pending = [] → s.boot.phase ≠ .inReset →
    let u := (s.elapse 1).settle
    (¬ issues u → step s = .next u) ∧
    (issues u → (∀ e ∈ u.sb.ecc, e.1 < u.sb.pc.toNat / 8 * 8 ∨ u.sb.pc.toNat / 8 * 8 + 32 ≤ e.1) →
      step s = exec (InsWord.ofBits (BitVec.ofNat 256 (u.sb.fmem.readLE u.sb.pc.toNat 32))).toInstr u) ∧
    (issues u → u.sb.pc.toNat % 8 = 0 → u.sb.ecc.find? (fun e => e.1 = u.sb.pc.toNat) = some (u.sb.pc.toNat, true) →
      ∃ t, step s = .next t ∧ stops u t 0x1004 (infoAt 5 u.sb.pc.toNat)))) ∧
  (∀ s : State, s.pending = [] → s.boot.phase ≠ .inReset → ¬ issues s → firstDue dueActs (s.elapse 1) = none →
    ∃ t, step s = .next t ∧ t.snap = s.snap ∧ (s.job.state ≠ 4 → t.live = s.live) ∧
    (s.job.state = 4 → t.live.run = satAdd s.live.run 4 ∧ t.live.issued = s.live.issued ∧ t.live.completed = s.live.completed ∧
      s.live.busySfp.toNat ≤ t.live.busySfp.toNat ∧ t.live.busySfp.toNat ≤ s.live.busySfp.toNat + 4 ∧
      s.live.busyLattice.toNat ≤ t.live.busyLattice.toNat ∧ t.live.busyLattice.toNat ≤ s.live.busyLattice.toNat + 4 ∧
      (s.fl = [] → t.live.busySfp = s.live.busySfp ∧ t.live.busyLattice = s.live.busyLattice) ∧
      ∃ k < 9, counts t.live = (counts s.live).set k (satAdd ((counts s.live).getD k 0) 4) ∧
        (s.fl = [] → s.tq = [] → k = 8) ∧
        (∀ f ∈ s.fl, s.executes f = true → k = 0) ∧
        (∀ f rest c, s.fl = f :: rest → (∀ g ∈ s.fl, s.executes g = false) → s.tq = [] → waitsOn f.prog = some c → k = c) ∧
        (∀ q rest, s.fl = [] → s.tq = q :: rest → s.now < (q.startAt.getD 0).toNat → k = 6) ∧
        (∀ q rest, s.fl = [] → s.tq = q :: rest → (q.startAt.getD 0).toNat ≤ s.now → (q.short ≠ [] → k = 3) ∧
          (q.short = [] → k = 8)) ∧
        (∀ q rest, (∀ f ∈ s.fl, s.executes f = false) → s.tq = q :: rest → q.readyAt = none →
          (q.w.opc = 0x38 ∧ ∃ f ∈ s.fl, f.q.w.opc = 0x38) ∨ (∃ f ∈ s.fl, ∃ i ∈ f.q.destTids, i ∈ q.destTids)
            ∨ (q.w.ovl = true ∧ s.fl.length = 4) → k = 8)))

/-! ### Reset and encoding -/

namespace Sys2Proof.Claims

/-- The registers whose Reset column is not zero and does not depend on the part's map or profile (Tables 2.8, 3.13, 7.15, 9.8, 10.12,
11.8, 12.6, 16.6, 17.6, 18.1). -/
def resetValues : List (Nat × W64) :=
  [(0x0000, 0x4744204801000100#64), (0x0008, 0x8008008080888800#64), (0x0010, 0x8010FC2001008000#64), (0x0018, 0x2000800020000000#64),
   (0x0188, 0x640#64), (0x0200, 1#64), (0x0300, 0x61A80#64), (0x0518, 0xFF#64), (0x0550, 0x8000#64), (0x0600, 0x400000000640#64),
   (0x0608, 0x9C401388001F40#64), (0x0708, 0x13880004E20#64), (0x2008, 0x400000064040#64), (0x2020, 0x7FFF#64),
   (0x2030, 0xFFFFFFFFFFFFFFFF#64), (0x20F0, 0x8000000400#64), (0x4000, 0x7D0#64), (0x4810, 0x695F#64)]

/-- The registers whose Reset column is zero: job and signal box, arithmetic, express and movement, scratchpad, transfers. -/
def resetZeros0 : List Nat :=
  [0x0020, 0x0028, 0x0030, 0x0100, 0x0108, 0x0110, 0x0118, 0x0120, 0x0128, 0x0180, 0x0190, 0x0198, 0x0208, 0x0210, 0x0218, 0x0220,
   0x0308, 0x0310, 0x0400, 0x0408, 0x0500, 0x0508, 0x0510, 0x0528, 0x0538, 0x0558, 0x0560, 0x0610, 0x0618, 0x0620, 0x0628, 0x0630]
/-- Yard, triggers, timebase, trace and counters. -/
def resetZeros1 : List Nat :=
  [0x0710, 0x0718, 0x0720, 0x0728, 0x0730, 0x0738, 0x0740, 0x0748, 0x2000, 0x2010, 0x2028, 0x2038, 0x2040, 0x2048, 0x2050, 0x2058,
   0x2080, 0x2088, 0x2090, 0x2098, 0x20A0, 0x20A8, 0x20B0, 0x20B8, 0x20C0, 0x20C8, 0x20D0, 0x20D8, 0x20E0, 0x20E8]
/-- Faults, start-up, ports, health, power and clocks. -/
def resetZeros2 : List Nat :=
  [0x3000, 0x3008, 0x3010, 0x3018, 0x3020, 0x3028, 0x3030, 0x3038, 0x3040, 0x3048, 0x3050, 0x3800, 0x3808, 0x3810, 0x3818, 0x3820,
   0x3828, 0x3830, 0x4008, 0x4010, 0x4030, 0x4038, 0x4818, 0x4820, 0x4828, 0x4830]

/-- The eight registers of a window at reset: no timestamps, every count zero, CLOSED (Table 10.12). -/
def resetWindow : List (Nat × W64) :=
  [(0x00, 0), (0x08, 0), (0x10, none64), (0x18, none64), (0x20, 0), (0x28, 0), (0x30, 0), (0x38, 0)]

end Sys2Proof.Claims

/-- At reset release each register that this statement lists reads the value of its Reset column, by the job and by the KPC alike; the
registers of all 32 windows, the 16 event counters and every chain step among them. Left out are the registers whose value the part's
map or the profile gives: DIST_HASH, DIST_DATA, PG_STAT, PG_SUM, YARD_CFG, TB_INC, SVC_STAT, HLTH_UNIT, HLTH_VAL, RSV_INV, PWR_CTL and
PWR_STAT. Where the spec states no reset value, the value is the model's (log 1). -/
def Obligations.ResetReadsResetColumn : Prop :=
  ∀ b : Party,
    (∀ p ∈ resetValues, State.reset.readReg b p.1 = p.2) ∧
    (∀ o ∈ resetZeros0 ++ resetZeros1 ++ resetZeros2, State.reset.readReg b o = 0) ∧
    (∀ w < 32, ∀ p ∈ resetWindow, State.reset.readReg b (0x800 + 0x40 * w + p.1) = p.2) ∧
    (∀ c < 16, State.reset.readReg b (0x780 + 8 * c) = 0) ∧
    (∀ c, 1 ≤ c → c ≤ 31 → ∀ j < 16, State.reset.readReg b (0x1080 + 0x80 * (c - 1) + 8 * j) = 0)

namespace Sys2Proof.Claims

/-- Each power group is listed once. -/
def groupsOnce (s : State) : Prop := (s.sp.groups.map (·.1)).Pairwise (· < ·)

/-- The bounds of R61, R68 and R515, the job states of Table 2.7, and the form of the list of power groups. -/
def bounded (s : State) : Prop :=
  s.tq.length ≤ 8 ∧ s.fl.length ≤ 4 ∧ s.ft.log.length ≤ 64 ∧ s.job.state.toNat ∈ [0, 1, 2, 3, 4, 6, 7, 8] ∧ groupsOnce s

end Sys2Proof.Claims

/-- The state at reset release satisfies the invariants: canonical memories, the bounds of the queues and the log, a legal state. The
canonical form and the state's shape are the model's own. -/
def Obligations.ResetKeepsInvariants : Prop :=
  State.reset.memOk = true ∧ bounded State.reset ∧ State.reset.pending = []

/-- Every step keeps the three memories in canonical form: equal memories stay equal data. The form is the model's own. -/
def Obligations.StepKeepsCanonicalMemory : Prop :=
  ∀ s t : State, s.memOk = true → step s = .next t → t.memOk = true

/-- Every step keeps the tensor queue within 8 entries, at most 4 instructions in flight, the fault log within 64 entries, the job in
one of the states of Table 2.7, and each power group listed once. -/
def Obligations.StepKeepsBounds : Prop :=
  ∀ s t : State, bounded s → step s = .next t → bounded t

/-- The fields of an instruction word and the word itself say the same: none of the 256 bits is dropped. -/
def Obligations.WordFieldsRoundTrip : Prop :=
  (∀ w : InsWord, InsWord.ofBits w.toBits = w) ∧ (∀ b : BitVec 256, (InsWord.ofBits b).toBits = b)

/-! ### Scalar instructions -/

namespace Sys2Proof.Claims

/-- What S.ALU and S.ALUI give for function `fn` (Table 2.3), as a relation on the numbers the registers hold. -/
def aluGives (fn : Nat) (x y v : W64) : Prop :=
  match fn with
  | 0 => v.toNat = (x.toNat + y.toNat) % 2 ^ 64
  | 1 => v.toNat = (x.toNat + 2 ^ 64 - y.toNat) % 2 ^ 64
  | 2 => ∀ i < 64, v.getLsbD i = (x.getLsbD i && y.getLsbD i)
  | 3 => ∀ i < 64, v.getLsbD i = (x.getLsbD i || y.getLsbD i)
  | 4 => ∀ i < 64, v.getLsbD i = (x.getLsbD i ^^ y.getLsbD i)
  | 5 => v.toNat = x.toNat * 2 ^ (y.toNat % 64) % 2 ^ 64
  | 6 => v.toNat = x.toNat / 2 ^ (y.toNat % 64)
  | 7 => v.toInt = x.toInt / 2 ^ (y.toNat % 64)
  | 8 => v.toNat = x.toNat * y.toNat % 2 ^ 64
  | 9 => v.toNat = x.toNat * y.toNat / 2 ^ 64
  | 10 => v.toInt = min x.toInt y.toInt
  | 11 => v.toInt = max x.toInt y.toInt
  | 12 => v.toNat = min x.toNat y.toNat
  | 13 => v.toNat = max x.toNat y.toNat
  | 14 => v = if x.toInt < y.toInt then 1 else 0
  | _ => v = if x.toNat < y.toNat then 1 else 0

/-- What S.DIV gives (Table 2.3): truncating division; a divisor of 0 gives the quotient all-ones and the remainder the dividend. -/
def divGives (fn : Nat) (x y v : W64) : Prop :=
  if y = 0 then (if fn % 2 = 0 then v = BitVec.allOnes 64 else v = x)
  else match fn with
    | 0 => v.toNat = x.toNat / y.toNat
    | 1 => v.toNat = x.toNat % y.toNat
    | 2 => if x.toInt = -2 ^ 63 ∧ y.toInt = -1 then v = x else v.toInt = x.toInt.tdiv y.toInt
    | _ => v.toInt = x.toInt.tmod y.toInt

/-- The opcodes that take their second operand from a register, and the conditions of S.BR (Table 2.3). -/
def brTakes (fn : Nat) (x y : W64) : Prop :=
  match fn with
  | 0 => x = y
  | 1 => x ≠ y
  | 2 => x.toInt < y.toInt
  | 3 => y.toInt ≤ x.toInt
  | 4 => x.toNat < y.toNat
  | _ => y.toNat ≤ x.toNat

/-- The address s[SA] + sext(IMM32), a 64-bit sum. -/
def addrOf (s : State) (w : InsWord) : Nat := (s.getS w.sa.toNat + w.imm32.signExtend 64).toNat

/-- No ECC error at the word of signal-box memory that holds byte `a`. -/
def sbClean (s : State) (a : Nat) : Prop := ∀ e ∈ s.sb.ecc, e.1 ≠ a / 8 * 8

/-- `s` after a correction of the ECC word at `a`: the error is gone and counted, saturating (R31). -/
def sbCorrected (s : State) (a : Nat) : State :=
  { s with sb := { s.sb with ecc := s.sb.ecc.filter (fun e => e.1 ≠ a), corrected := satAdd s.sb.corrected 1 } }

end Sys2Proof.Claims

/-- S.SYS: NOP only goes on; TFENCE goes on once the array is empty and else waits; IFENCE lets fetch see every earlier store. -/
def Obligations.SystemFencesComplete : Prop :=
  ∀ s : State, issues s → room s →
    exec (.nop (word 0 0)) s = .next (goneOn s) ∧
    (empty s → exec (.tfence (word 0 1)) s = .next (goneOn s)) ∧
    (¬ empty s → exec (.tfence (word 0 1)) s = .next { s with sb := { s.sb with wait := some (word 0 1) } }) ∧
    exec (.ifence (word 0 2)) s = .next { goneOn s with sb := { (goneOn s).sb with fmem := s.sb.mem } }

/-- S.ALU and S.ALUI: 64-bit two's complement, wrapping, with the shift amount in the low 6 bits; no operand raises a fault. S.DIV:
truncating division with the values of Table 2.3 for a divisor of 0 and for −2^63 by −1. -/
def Obligations.AluAndDivideWriteResults : Prop :=
  (∀ (s : State) (fn : Byte) (d a b : BitVec 6) (imm : W64), issues s → room s → fn.toNat ≤ 15 → reg d → reg a → reg b →
    (∃ t v, exec (.sAlu { word 1 fn with dst := d, sa := a, sb := b }) s = .next t
      ∧ aluGives fn.toNat (s.getS a.toNat) (s.getS b.toNat) v ∧ wrote s t d v) ∧
    (∃ t v, exec (.sAlui { word 2 fn with dst := d, sa := a, aux64 := imm }) s = .next t
      ∧ aluGives fn.toNat (s.getS a.toNat) imm v ∧ wrote s t d v)) ∧
  (∀ (s : State) (fn : Byte) (d a b : BitVec 6), issues s → room s → fn.toNat ≤ 3 → reg d → reg a → reg b →
    ∃ t v, exec (.sDiv { word 3 fn with dst := d, sa := a, sb := b }) s = .next t
      ∧ divGives fn.toNat (s.getS a.toNat) (s.getS b.toNat) v ∧ wrote s t d v)

/-- S.LD: 8, 16, 32 or 64 bits, little-endian, zero- or sign-extended; an address outside signal-box memory or not aligned to the size
raises 0x1003; a single-bit ECC error is corrected and counted; an uncorrectable one raises 0x1004 at the access's byte address and is
counted. S.ST: the low 8, 16, 32 or 64 bits of s[SB] go to memory, little-endian, and every other byte keeps its value; 0x1003 as for
S.LD; a narrower store first reads its ECC word, and an uncorrectable error there raises 0x1004 and leaves the word. -/
def Obligations.SignalBoxLoadsAndStores : Prop :=
  (∀ (s : State) (fn : Byte) (d a : BitVec 6) (imm : W32), issues s → room s → fn.toNat ≤ 7 → reg d → reg a →
    let w := { word 4 fn with dst := d, sa := a, imm32 := imm }
    let at_ := addrOf s w
    let n := 2 ^ (fn.toNat % 4)
    let loads := fun (u t : State) => ∃ v : W64, wrote u t d v ∧ ∀ i < 64, v.getLsbD i =
      if i < 8 * n then (s.sb.mem.read (at_ + i / 8)).getLsbD (i % 8) else fn.getLsbD 2 && (s.sb.mem.read (at_ + n - 1)).getLsbD 7
    ((0x80000 ≤ at_ ∨ at_ % n ≠ 0) → ∃ t, exec (.sLd w) s = .next t ∧ stops s t 0x1003 (infoAt 7 at_)) ∧
    (at_ < 0x80000 → at_ % n = 0 → sbClean s at_ → ∃ t, exec (.sLd w) s = .next t ∧ loads s t) ∧
    (at_ < 0x80000 → at_ % n = 0 → s.sb.ecc.find? (fun e => e.1 = at_ / 8 * 8) = some (at_ / 8 * 8, false) →
      ∃ t, exec (.sLd w) s = .next t ∧ loads (sbCorrected s (at_ / 8 * 8)) t) ∧
    (at_ < 0x80000 → at_ % n = 0 → s.sb.ecc.find? (fun e => e.1 = at_ / 8 * 8) = some (at_ / 8 * 8, true) →
      ∃ t, exec (.sLd w) s = .next t ∧ stops s t 0x1004 (infoAt 7 at_)
        ∧ t.sb.uncorrected = satAdd s.sb.uncorrected 1)) ∧
  (∀ (s : State) (fn : Byte) (a b : BitVec 6) (imm : W32), issues s → room s → s.memOk = true → fn.toNat ≤ 3 → reg a → reg b →
    let w := { word 5 fn with sa := a, sb := b, imm32 := imm }
    let at_ := addrOf s w
    let n := 2 ^ fn.toNat
    let stores := fun (u t : State) => t = { goneOn u with sb := { (goneOn u).sb with mem := t.sb.mem } }
      ∧ ∀ k, t.sb.mem.read k = if at_ ≤ k ∧ k < at_ + n then BitVec.ofNat 8 ((s.getS b.toNat).toNat / 2 ^ (8 * (k - at_)))
          else s.sb.mem.read k
    ((0x80000 ≤ at_ ∨ at_ % n ≠ 0) → ∃ t, exec (.sSt w) s = .next t ∧ stops s t 0x1003 (infoAt 7 at_)) ∧
    (at_ < 0x80000 → at_ % n = 0 → n < 8 → sbClean s at_ → ∃ t, exec (.sSt w) s = .next t ∧ stores s t) ∧
    (at_ < 0x80000 → at_ % n = 0 → n = 8 →
      ∃ t, exec (.sSt w) s = .next t ∧ stores { s with sb := { s.sb with ecc := s.sb.ecc.filter (fun e => e.1 < at_ ∨ at_ + 8 ≤ e.1) } } t) ∧
    (at_ < 0x80000 → at_ % n = 0 → n < 8 → s.sb.ecc.find? (fun e => e.1 = at_ / 8 * 8) = some (at_ / 8 * 8, false) →
      ∃ t, exec (.sSt w) s = .next t ∧ stores (sbCorrected s (at_ / 8 * 8)) t) ∧
    (at_ < 0x80000 → at_ % n = 0 → n < 8 → s.sb.ecc.find? (fun e => e.1 = at_ / 8 * 8) = some (at_ / 8 * 8, true) →
      ∃ t, exec (.sSt w) s = .next t ∧ stops s t 0x1004 (infoAt 7 at_) ∧ t.sb.uncorrected = satAdd s.sb.uncorrected 1))

/-- SPLD of a district without a bank in limp mode raises 0x2004 at head of issue (R543); any other waits for the array, then reads 8 bytes of the scratchpad below the yard through ECC: 0x2002 for a misaligned address, 0x2001
at or above the yard, 0x2004 where the group is not ON, 0x5002 on a poisoned line, with the
register unchanged. A line above the watermark of a scrub makes it wait. -/
def Obligations.ScratchpadLoadCompletes : Prop :=
  ∀ (s : State) (d a : BitVec 6) (imm : W32), issues s → room s → reg d → reg a →
    let w := { word 4 0x10 with dst := d, sa := a, imm32 := imm }
    let at_ := addrOf s w
    let low := at_ + s.cfg.active.yardMib.toNat * 2 ^ 20 < 2 ^ 29
    let on := s.groupOn (at_ / 2 ^ 21) = true ∧ (s.svc.limp = true → s.districtOk (at_ / 2 ^ 22) = true)
    let below := unscrubbed s at_
    let u := s.readLine (at_ / 128 * 128)
    let served := s.svc.limp = true → s.districtOk (at_ / 2 ^ 22) = true
    (¬ empty s → (at_ % 8 = 0 → low → served) → exec (.spld w) s = .next { s with sb := { s.sb with wait := some w } }) ∧
    (at_ % 8 = 0 → low → ¬ served → ∃ t, exec (.spld w) s = .next t ∧ stops s t 0x2004 (infoAt 7 at_)) ∧
    (empty s → at_ % 8 ≠ 0 → ∃ t, exec (.spld w) s = .next t ∧ stops s t 0x2002 (infoAt 7 at_)) ∧
    (empty s → at_ % 8 = 0 → ¬ low → ∃ t, exec (.spld w) s = .next t ∧ stops s t 0x2001 (infoAt 7 at_)) ∧
    (empty s → at_ % 8 = 0 → low → (s.groupOn (at_ / 2 ^ 21) = false ∨ (s.svc.limp = true ∧ s.districtOk (at_ / 2 ^ 22) = false)) →
      ∃ t, exec (.spld w) s = .next t ∧ stops s t 0x2004 (infoAt 7 at_)) ∧
    (empty s → at_ % 8 = 0 → low → on → below → exec (.spld w) s = .next { s with sb := { s.sb with wait := some w } }) ∧
    (empty s → at_ % 8 = 0 → low → on → ¬ below →
      (u.psn (at_ / 128 * 128) = true → ∃ t, exec (.spld w) s = .next t ∧ t.ft.code = 0x5002
        ∧ t.ft.info = infoAt 7 (at_ / 128 * 128) ∧ t.sb.s = s.sb.s ∧ t.job.state = 6) ∧
      (u.psn (at_ / 128 * 128) = false → ∃ t v, exec (.spld w) s = .next t ∧ wrote u t d v
        ∧ ∀ i < 64, v.getLsbD i = (s.sp.mem.read (at_ + i / 8)).getLsbD (i % 8)))

/-- S.BR, J, CALL and JR set the PC to the 64-bit sum of R33; CALL writes PC + 32 to s31. Outside [0, 0x7_FFE0], or off a multiple
of 32, the transfer raises 0x1003 with the address it produced and has no effect. -/
def Obligations.TransfersSetThePc : Prop :=
  ∀ (s : State) (fn : Byte) (a b : BitVec 6) (imm : W32), issues s → reg a → reg b →
    let pc : W64 := s.sb.pc.setWidth 64
    let rel := pc + 32 * imm.signExtend 64
    let goes := fun (i : Instr) (target : W64) (regs : AL W64) =>
      (target.toNat % 32 = 0 → target.toNat ≤ 0x7FFE0 →
        exec i s = .next { s with sb := { s.sb with pc := target.setWidth 19, s := regs } }) ∧
      ((target.toNat % 32 ≠ 0 ∨ 0x7FFE0 < target.toNat) → ∃ t, exec i s = .next t ∧ stops s t 0x1003 (infoAt 5 target.toNat))
    (fn.toNat ≤ 5 → brTakes fn.toNat (s.getS a.toNat) (s.getS b.toNat) →
      goes (.sBr { word 6 fn with sa := a, sb := b, imm32 := imm }) rel s.sb.s) ∧
    (fn.toNat ≤ 5 → ¬ brTakes fn.toNat (s.getS a.toNat) (s.getS b.toNat) →
      goes (.sBr { word 6 fn with sa := a, sb := b, imm32 := imm }) (pc + 32) s.sb.s) ∧
    goes (.sJmp { word 7 0 with imm32 := imm }) rel s.sb.s ∧
    goes (.sJmp { word 7 1 with imm32 := imm }) rel (AL.put s.sb.s 31 (pc + 32)) ∧
    goes (.sJmp { word 7 2 with sa := a, imm32 := imm }) (s.getS a.toNat + imm.signExtend 64) s.sb.s

namespace Sys2Proof.Claims

/-- Lowest bit and width of the descriptor field with an id (Table 2.4). -/
def fieldBits : Nat → Nat × Nat
  | 0 => (0, 48) | 1 => (48, 4) | 2 => (52, 3) | 3 => (55, 2) | 4 => (57, 20) | 5 => (77, 20) | 6 => (97, 20) | 7 => (117, 20)
  | 8 => (137, 32) | 9 => (169, 32) | 10 => (201, 32) | 11 => (233, 1) | _ => (234, 16)

end Sys2Proof.Claims

/-- DLD reads 32 bytes at s[SA] into d[DST], the reserved field [255:250] reading zero; DSTO writes d[DST] there as whole words. An address
outside signal-box memory or off a multiple of 32 raises 0x1003; a DLD that meets an uncorrectable word raises 0x1004 there. DSETF
writes the low bits of s[SB] that fit the field and no other bit of the descriptor; DGETF zero-extends the field. The operand code 5 in
the info word of 0x1003 for DLD and DSTO is the model's (log 26), as is that a misaligned s[SA] raises 0x1003 and not the 0x1001 that
ends R47 (log 99). -/
def Obligations.DescriptorsLoadStoreAndSet : Prop :=
  (∀ (s : State) (d a : BitVec 6), issues s → room s → s.memOk = true → reg a →
    let at_ := (s.getS a.toNat).toNat
    let ld := { word 8 0 with dst := d, sa := a }
    let st := { word 8 1 with dst := d, sa := a }
    ((0x80000 ≤ at_ ∨ at_ % 32 ≠ 0) →
      (∃ t, exec (.dld ld) s = .next t ∧ stops s t 0x1003 (infoAt 5 at_)) ∧
      (∃ t, exec (.dsto st) s = .next t ∧ stops s t 0x1003 (infoAt 5 at_))) ∧
    (at_ < 0x80000 → at_ % 32 = 0 → (∀ e ∈ s.sb.ecc, e.1 < at_ ∨ at_ + 32 ≤ e.1) →
      ∃ t, exec (.dld ld) s = .next t ∧ t = { goneOn s with sb := { (goneOn s).sb with d := t.sb.d } } ∧
        (∀ k, k ≠ d.toNat → t.getD k = s.getD k) ∧
        ∀ i < 256, (t.getD d.toNat).getLsbD i = (decide (i < 250) && (s.sb.mem.read (at_ + i / 8)).getLsbD (i % 8))) ∧
    (at_ < 0x80000 → at_ % 32 = 0 → ∀ k < 4, (∀ e ∈ s.sb.ecc, e.1 < at_ ∨ at_ + 8 * k ≤ e.1) →
      s.sb.ecc.find? (fun e => e.1 = at_ + 8 * k) = some (at_ + 8 * k, true) →
      ∃ t, exec (.dld ld) s = .next t ∧ stops s t 0x1004 (infoAt 5 (at_ + 8 * k))) ∧
    (at_ < 0x80000 → at_ % 32 = 0 →
      ∃ t, exec (.dsto st) s = .next t
        ∧ t = { goneOn s with sb := { (goneOn s).sb with mem := t.sb.mem, ecc := s.sb.ecc.filter (fun e => e.1 < at_ ∨ at_ + 32 ≤ e.1) } }
        ∧ ∀ k, t.sb.mem.read k = if at_ ≤ k ∧ k < at_ + 32 then BitVec.ofNat 8 ((s.getD d.toNat).toNat / 2 ^ (8 * (k - at_)))
            else s.sb.mem.read k)) ∧
  (∀ (s : State) (d r : BitVec 6) (id : W32), issues s → room s → id.toNat ≤ 12 → reg r →
    let lo := (fieldBits id.toNat).1
    let n := (fieldBits id.toNat).2
    (∃ t, exec (.dsetf { word 8 2 with dst := d, sb := r, imm32 := id }) s = .next t
      ∧ t = { goneOn s with sb := { (goneOn s).sb with d := t.sb.d } } ∧ (∀ k, k ≠ d.toNat → t.getD k = s.getD k)
      ∧ ∀ i < 256, (t.getD d.toNat).getLsbD i =
        if lo ≤ i ∧ i < lo + n then (s.getS r.toNat).getLsbD (i - lo) else (s.getD d.toNat).getLsbD i) ∧
    (∃ t v, exec (.dgetf { word 8 3 with dst := r, sb := d, imm32 := id }) s = .next t ∧ wrote s t r v
      ∧ ∀ i < 64, v.getLsbD i = (decide (i < n) && (s.getD d.toNat).getLsbD (lo + i))))

/-- S.PSET writes p1 to p15; S.TICK reads the current tick and reads and writes TT_EPOCH; S.STEP sets, reads and adds to STEP_CTR. -/
def Obligations.PredicateTickAndStepRegisters : Prop :=
  ∀ (s : State) (r : BitVec 6) (k : W32), issues s → room s → reg r →
    (∀ p : BitVec 6, 1 ≤ p.toNat → p.toNat ≤ 15 →
      ∃ t, exec (.sPset { word 9 0 with dst := p, sa := r }) s = .next t ∧ t = { goneOn s with sb := { (goneOn s).sb with p := t.sb.p } }
        ∧ ∀ i, t.getP i = if i = p.toNat then (s.getS r.toNat).setWidth 32 else s.getP i) ∧
    (∃ t, exec (.now { word 0xA 0 with dst := r }) s = .next t ∧ wrote s t r s.tickW) ∧
    (∃ t, exec (.getep { word 0xA 1 with dst := r }) s = .next t ∧ wrote s t r s.sb.epoch) ∧
    exec (.setep { word 0xA 2 with sa := r }) s = .next { goneOn s with sb := { (goneOn s).sb with epoch := s.getS r.toNat } } ∧
    exec (.sStep { word 0xC 0 with sa := r }) s = .next { goneOn s with sb := { (goneOn s).sb with step := (s.getS r.toNat).setWidth 32 } } ∧
    (∃ t, exec (.sStep { word 0xC 1 with dst := r }) s = .next t ∧ wrote s t r (s.sb.step.setWidth 64)) ∧
    exec (.sStep { word 0xC 2 with imm32 := k }) s = .next { goneOn s with sb := { (goneOn s).sb with step := s.sb.step + k } }

namespace Sys2Proof.Claims

/-- Registers whose access by S.REG waits for the array (R153): AMAX_CTL, AMAX_SEL, AMAX_DATA. -/
def waitsForArray (off : Nat) : Prop := off = 0x200 ∨ off = 0x208 ∨ off = 0x210

/-- The registers that a job may write (J in the "Writable by" column of Table 18.5). -/
def jobWritable (off : Nat) : Bool :=
  [0x120, 0x180, 0x188, 0x200, 0x208, 0x210, 0x218, 0x300, 0x528, 0x538, 0x600, 0x608, 0x708, 0x730, 0x2020, 0x2028, 0x2030, 0x2040, 0x2080,
   0x3028, 0x3050, 0x3810, 0x4010, 0x4820].contains off
  || (decide (0x1080 ≤ off ∧ off < 0x2000))

end Sys2Proof.Claims

/-- S.REG: a whole access at a multiple of 8. RREG returns the register and makes its read's side effect; WREG writes a job-writable
register and raises 0x2003 with no effect on any other; off a multiple of 8 both raise 0x2002, beyond the map 0x2001, and an RREG
there reads zero; the amax registers wait for the array. -/
def Obligations.JobRegisterAccess : Prop :=
  ∀ (s : State) (r : BitVec 6) (off : W32), issues s → room s → reg r →
    let o := off.toNat
    let rd := { word 0xB 0 with dst := r, imm32 := off }
    let wr := { word 0xB 1 with sa := r, imm32 := off }
    let there := infoAt 6 (0x7F0000000000 + o)
    (waitsForArray o → ¬ empty s →
      exec (.sRegRreg rd) s = .next { s with sb := { s.sb with wait := some rd } } ∧
      exec (.sRegWreg wr) s = .next { s with sb := { s.sb with wait := some wr } }) ∧
    (o % 8 = 0 → o < 0x180000 → o ≠ 0x560 → (waitsForArray o → empty s) →
      ∃ t, exec (.sRegRreg rd) s = .next t ∧ wrote (s.regRead .job o).1 t r (s.readReg .job o)) ∧
    (o = 0x560 → ∃ t, exec (.sRegRreg rd) s = .next t ∧ wrote s t r 0) ∧
    (o % 8 = 0 → o < 0x180000 → jobWritable o = true → (waitsForArray o → empty s) →
      exec (.sRegWreg wr) s = .next (goneOn (s.writeReg .job o (s.getS r.toNat)))) ∧
    (o % 8 = 0 → o < 0x180000 → jobWritable o = false → ∃ t, exec (.sRegWreg wr) s = .next t ∧ stops s t 0x2003 there) ∧
    (o % 8 ≠ 0 → ∃ t, exec (.sRegWreg wr) s = .next t ∧ stops s t 0x2002 there) ∧
    (o % 8 = 0 → 0x180000 ≤ o → ∃ t, exec (.sRegWreg wr) s = .next t ∧ stops s t 0x2001 there) ∧
    (o % 8 ≠ 0 → ∃ t, exec (.sRegRreg rd) s = .next t ∧ t.ft.code = 0x2002 ∧ t.ft.info = there ∧ t.ft.pc = s.sb.pc
      ∧ t.getS r.toNat = 0) ∧
    (o % 8 = 0 → 0x180000 ≤ o → ∃ t, exec (.sRegRreg rd) s = .next t ∧ t.ft.code = 0x2001 ∧ t.ft.info = there ∧ t.ft.pc = s.sb.pc
      ∧ t.getS r.toNat = 0)

/-- HALT begins once the array is empty. It writes IMM32 to JOB_STATUS.exit_code, closes every window, releases every yard slot, stores the
accepted writes that wait for a scrub, and ends the job in PRESERVED where JOB_CTL.preserve is set, else in SCRUBBING, where every line
of a group that is ON reads zero. That accepted writes which wait for the scrub are stored before the windows close is the model's (log
28). -/
def Obligations.HaltEndsTheJob : Prop :=
  ∀ (s : State) (code : W32), issues s →
    let w := { word 0x7F 0 with imm32 := code }
    (¬ empty s → exec (.halt w) s = .next { s with sb := { s.sb with wait := some w } }) ∧
    (empty s → ∃ t, exec (.halt w) s = .next t ∧ t.job = { s.job with exitCode := code, state := if s.job.preserve then 7 else 8 }
      ∧ (∀ i, (t.window i).openTs = none64 ∧ (t.window i).closeTs = none64) ∧ (∀ i, t.slot i = Slot.free) ∧ t.yd.held = []
      ∧ t.xf.parked = []
      ∧ (s.job.preserve = true → t.sp = s.landParked.sp)
      ∧ (s.job.preserve = false → t.sp.scrubRun = true ∧ t.sp.scrubWm = 0
          ∧ (∀ a, t.sp.mem.read a = if s.groupOn (a / 2 ^ 21) then 0 else s.landParked.sp.mem.read a))
      ∧ t.sb = s.sb ∧ t.ar = s.ar ∧ t.ft = s.landParked.ft ∧ t.live = s.live ∧ (s.xf.parked = [] → s.landParked = s))

namespace Sys2Proof.Claims

/-- The opcodes of tensor instructions (Table 2.6); every other opcode is a scalar instruction's or no instruction's. -/
def tensorOpcs : List Nat :=
  [0x10, 0x11, 0x12, 0x13, 0x18, 0x20, 0x21, 0x22, 0x23, 0x28, 0x30, 0x38, 0x40, 0x41, 0x42, 0x48, 0x49, 0x50, 0x58, 0x59, 0x60, 0x68, 0x70]
def scalarOpc (o : Nat) : Bool := !tensorOpcs.contains o
/-- The functions that Table 2.3 lists for an opcode. -/
def fnListed (o f : Nat) : Bool :=
  match o with
  | 0x00 => f ≤ 2 | 0x01 => f ≤ 15 | 0x02 => f ≤ 15 | 0x03 => f ≤ 3 | 0x04 => f ≤ 7 || f = 0x10 | 0x05 => f ≤ 3 | 0x06 => f ≤ 5
  | 0x07 => f ≤ 2 | 0x08 => f ≤ 3 | 0x09 => f = 0 | 0x0A => f ≤ 2 | 0x0B => f ≤ 1 | 0x0C => f ≤ 2 | 0x7F => f = 0
  | _ => false

/-- The fields that a scalar instruction uses besides OPC and FN: DST, SA, SB, IMM32, AUX64 (Table 2.3). -/
def uses (o f : Nat) : Bool × Bool × Bool × Bool × Bool :=
  match o with
  | 0x01 => (true, true, true, false, false) | 0x02 => (true, true, false, false, true) | 0x03 => (true, true, true, false, false)
  | 0x04 => (true, true, false, true, false) | 0x05 => (false, true, true, true, false) | 0x06 => (false, true, true, true, false)
  | 0x07 => (false, f = 2, false, true, false)
  | 0x08 => if f ≤ 1 then (true, true, false, false, false) else (true, false, true, true, false)
  | 0x09 => (true, true, false, false, false)
  | 0x0A => if f = 2 then (false, true, false, false, false) else (true, false, false, false, false)
  | 0x0B => if f = 1 then (false, true, false, true, false) else (true, false, false, true, false)
  | 0x0C => if f = 0 then (false, true, false, false, false) else if f = 1 then (true, false, false, false, false)
            else (false, false, false, true, false)
  | 0x7F => (false, false, false, true, false)
  | _ => (false, false, false, false, false)

/-- A field that the word does not use, or a reserved field, is not zero. -/
def dirty (w : InsWord) : Prop :=
  let u := uses w.opc.toNat w.fn.toNat
  (u.1 = false ∧ w.dst ≠ 0) ∨ (u.2.1 = false ∧ w.sa ≠ 0) ∨ (u.2.2.1 = false ∧ w.sb ≠ 0) ∨ (u.2.2.2.1 = false ∧ w.imm32 ≠ 0)
    ∨ (u.2.2.2.2 = false ∧ w.aux64 ≠ 0) ∨ w.sc ≠ 0 ∨ w.dfmt ≠ 0 ∨ w.sfmt ≠ 0 ∨ w.rnd ≠ 0 ∨ w.sat = true ∨ w.ftz = true ∨ w.pred ≠ 0
    ∨ w.ovl = true ∨ w.res0 ≠ 0 ∨ w.xs ≠ 0 ∨ w.ys ≠ 0 ∨ w.commit = true ∨ w.poisonOk = true ∨ w.tmark = true ∨ w.res1 ≠ 0
    ∨ w.start40 ≠ 0 ∨ w.res2 ≠ 0

/-- The fields that name a scalar register and that the word uses (R37, R47). -/
def scalarRegs (w : InsWord) : List (BitVec 6) :=
  match w.opc.toNat with
  | 0x08 => if w.fn.toNat ≤ 1 then [w.sa] else if w.fn = 2 then [w.sb] else [w.dst]
  | 0x09 => [w.sa]
  | o => let u := uses o w.fn.toNat
         (if u.1 then [w.dst] else []) ++ (if u.2.1 then [w.sa] else []) ++ (if u.2.2.1 then [w.sb] else [])

end Sys2Proof.Claims

namespace Sys2Proof.Claims

/-- The word is an SPLD whose 8 bytes, aligned and below the yard, lie in a district that no bank in service holds, in LIMP (R543). -/
def districtGone (s : State) (w : InsWord) : Prop :=
  w.opc = 4 ∧ w.fn = 0x10 ∧ s.svc.limp = true ∧ addrOf s w % 8 = 0 ∧ addrOf s w + s.cfg.active.yardMib.toNat * 2 ^ 20 < 2 ^ 29
    ∧ s.districtOk (addrOf s w / 2 ^ 22) = false

end Sys2Proof.Claims

/-- Encoding checks at head of issue. Reserved bits that are not zero, in a word of any row; in a scalar word an unlisted function, a non-
zero unused field, a scalar register number above 31, a descriptor field id above 12, or an S.PSET of p0 or above p15: 0x1001. At the
last address, the next one is out of range: 0x1003 and no effect (R33), after every other check (R518), so that an SPLD of a district
out of service in LIMP raises 0x2004 there (R543). -/
def Obligations.ScalarEncodingFaults : Prop :=
  (∀ (s : State) (w : InsWord), issues s → scalarOpc w.opc.toNat = true →
    (fnListed w.opc.toNat w.fn.toNat = false ∨ dirty w ∨ (∃ r ∈ scalarRegs w, 32 ≤ r.toNat)
      ∨ (w.opc = 8 ∧ (w.fn = 2 ∨ w.fn = 3) ∧ 12 < w.imm32.toNat)
      ∨ (w.opc = 9 ∧ (w.dst = 0 ∨ 15 < w.dst.toNat))) →
    ∃ t, exec w.toInstr s = .next t ∧ stops s t 0x1001 w.low64) ∧
  (∀ (s : State) (w : InsWord), issues s → ¬ room s → w.opc ≠ 6 → w.opc ≠ 7 → w.opc ≠ 0x7F →
    scalarOpc w.opc.toNat = true → fnListed w.opc.toNat w.fn.toNat = true → ¬ dirty w → (∀ r ∈ scalarRegs w, r.toNat < 32) →
    (w.opc = 8 → 2 ≤ w.fn.toNat → w.imm32.toNat ≤ 12) → (w.opc = 9 → 1 ≤ w.dst.toNat ∧ w.dst.toNat ≤ 15) →
    ∃ t, exec w.toInstr s = .next t ∧ (districtGone s w → stops s t 0x2004 (infoAt 7 (addrOf s w)))
      ∧ (¬ districtGone s w → stops s t 0x1003 (infoAt 5 (s.sb.pc.toNat + 32)))) ∧
  (∀ (s : State) (w : InsWord), issues s → (w.res0 ≠ 0 ∨ w.res1 ≠ 0 ∨ w.res2 ≠ 0) →
    ∃ t, exec w.toInstr s = .next t ∧ stops s t 0x1001 w.low64)

/-- Every command that a sender can form is taken: none faults, none is refused. The model's own rule (log 10): while the signal box cannot
take an instruction, because one waits, a halt or a KILL is under way or the job is not RUNNING, no instruction row changes anything. -/
def Obligations.EveryFormedCommandIsTaken : Prop :=
  (∀ (c : Instr) (s : State), c.wf = true → ∃ t, exec c s = .next t) ∧
  (∀ (s : State) (w : InsWord), ¬ issues s → exec w.toInstr s = .next s)

/-! ### Tensor instructions: issue and start -/

namespace Sys2Proof.Claims

/-- The checks that a tensor instruction's row makes at head of issue, by row (Tables 2.6, 4.13, 5.9, 6.2, 7.10, 8.9, 9.6, 10.11, 11.7). -/
def checksOf : Instr → Option (QEntry → State → List Flt)
  | .binary _ | .unary _ | .ternary _ | .compareAndSelect _ | .specialFunctions _ => some ewChk
  | .tCvt _ => some cvtChk | .tRed _ => some tRedChk | .tNorm _ => some normChk | .topk _ => some topkChk | .hist _ => some histChk
  | .dispatch _ => some dispChk | .smax _ => some smaxChk | .lse _ => some lseChk | .tDot _ => some dotChk
  | .stream _ | .merge _ => some xpChk | .tCopy _ => some copyChk | .tGath _ | .scatter _ | .scatterAdd _ => some gsChk
  | .tXfer _ => some xferChk | .offl _ | .reld _ => some offlChk
  | .winOpen _ => some openChk | .winClose _ | .winExpect _ | .waitcl _ => some winChk
  | .claim _ => some claimChk | .contrib _ => some contribChk | .collect _ => some collectChk | .release _ => some releaseChk
  | .fwd _ => some fwdChk | .post _ => some postChk | .trigWait _ => some waitChk
  | .tickBarrier _ => some barrierChk | .windowCheck _ => some windowChk | .tMark _ => some markChk
  | .powerDown _ | .powerUp _ | .zero _ => some spadChk | .record _ | .check _ => some genChk
  | _ => none

/-- The entry that the word makes at head of issue: its PC, its number, and copies of its descriptors (R55, R72). -/
def entryOf (s : State) (w : InsWord) : QEntry := s.entry w (auxOf w.toInstr)

/-- The first check of the row that fails at head of issue, in R518's order. -/
def failing (s : State) (w : InsWord) : Option Flt :=
  match checksOf w.toInstr with
  | some chk => firstFlt (chk (entryOf s w) s)
  | none => none

/-- The signal box after it has issued a tensor instruction: PC and number go on, the issue is counted. -/
def counted (s : State) : State :=
  { goneOn s with live := { s.live with issued := s.live.issued + 1 }, sb := { (goneOn s).sb with nextSeq := s.sb.nextSeq + 1 } }

/-- The entry as it becomes ready: at the current tick. -/
def readyEntry (s : State) (w : InsWord) : QEntry := { entryOf s w with readyAt := some s.tickW }

/-- The state in which such an instruction has its effect: counted, in flight from this tick, with its INSTR_START record. -/
def begun (s : State) (w : InsWord) : State :=
  let u := if w.tmark then (counted s).trace 1 (readyEntry s w).tracePayload else counted s
  { u with fl := [⟨readyEntry s w, s.tickW, none, false, false, [], .idle⟩] }

/-- The scratchpad sources that the instruction reads, with the lines of each that it reads, and whether line `l` is one. -/
def readsOf (s : State) (w : InsWord) (op : TOp) : List Src := op.reads (readyEntry s w) (begun s w)
def readsLine (s : State) (w : InsWord) (op : TOp) (l : Nat) : Bool := (readsOf s w op).any (fun p => p.has l)

/-- The lines that the instruction reads hold nothing that ECC must correct, no differing poison copies and no poison, and no error
reaches them between the check pass and the data pass. -/
def cleanSources (s : State) (w : InsWord) (op : TOp) : Prop :=
  s.sp.suspects.filter (readsLine s w op) = [] ∧ s.sp.psnLines.filter (readsLine s w op) = []
    ∧ (begun s w).spoiltLine (readsOf s w op) = none

/-- The instruction that `w` presents issues into an empty array and starts at once, without a start tick: no check of its issue or
its start fails, no window that it checks is short, no running scrub covers an operand, the lines it reads are clean, and a COMMIT
meets no taint. -/
def startsAny (s : State) (w : InsWord) (op : TOp) : Prop :=
  let q := readyEntry s w
  let u := counted s
  issues s ∧ empty s ∧ room s ∧ opOf w.toInstr = some op ∧ failing s w = none ∧ w.start40 = 0
    ∧ op.hold q { u with tq := [q] } = false
    ∧ s.scrubWaits op q = false
    ∧ (∀ p ∈ op.present q { u with tq := [q] }, p.2 ≤ (s.window p.1).received.toNat)
    ∧ firstStart (u.commonStart (op.srcs q) (op.outs q) ++ op.startChk q u) = none
    ∧ cleanSources s w op ∧ (w.commit = true → s.yd.taintAny = false)

/-- Operands that software must keep apart (R99) share no bit of an element. -/
def keepsApart (s : State) (w : InsWord) (op : TOp) : Prop :=
  (readyEntry s w).misread (op.srcs (readyEntry s w)) (op.outs (readyEntry s w)) = false

/-- The same, with operands that keep apart. -/
def startsClean (s : State) (w : InsWord) (op : TOp) : Prop := startsAny s w op ∧ keepsApart s w op

end Sys2Proof.Claims

/-- A tensor instruction that no check fails enters the queue behind what waits there, with the descriptors it copies; at a full
queue the signal box stalls at it, and enters it once there is room. -/
def Obligations.TensorInstructionsEnterQueue : Prop :=
  ∀ (s : State) (w : InsWord), (checksOf w.toInstr).isSome = true →
    (issues s → room s → failing s w = none → 8 ≤ s.tq.length →
      exec w.toInstr s = .next { s with sb := { s.sb with wait := some w } }) ∧
    (issues s → room s → failing s w = none → s.tq ≠ [] → s.tq.length < 8 →
      exec w.toInstr s = .next { counted s with tq := s.tq ++ [entryOf s w] }) ∧
    (s.sb.wait = some w → s.tq ≠ [] → s.tq.length < 8 → s.ft.halting = none → s.job.kill = none →
      exec .tensorQueueRoom s =
        .next { counted s with tq := s.tq ++ [entryOf s w], sb := { (counted s).sb with wait := none } })

namespace Sys2Proof.Claims

/-- The instruction fails a check of code `c` at head of issue, or one that comes before it in R518's order. -/
def failsBy (s : State) (w : InsWord) (c : Nat) : Prop := ∃ f, failing s w = some f ∧ f.1 ∈ hoiOrder.take (hoiOrder.idxOf c + 1)

/-- The end of the scratchpad below the yard (R450). -/
def belowYard (s : State) : Nat := 2 ^ 29 - s.cfg.active.yardMib.toNat * 2 ^ 20

/-- A network port is in service. -/
def anyNet (s : State) : Prop := ∃ p, 22 ≤ p ∧ p < 30 ∧ (s.port p).state = 2

end Sys2Proof.Claims

namespace Sys2Proof.Claims

/-- The sources of an element-wise function (Tables 4.3 to 4.6 and 4.8). -/
def sourcesOf (opc fn : Nat) : Nat :=
  match opc with
  | 0x10 => 2 | 0x11 => 1 | 0x12 => 3
  | 0x13 => if fn ≤ 5 then 2 else if fn = 16 then 3 else 1
  | _ => if fn = 19 then 2 else 1

/-- An integer function, which neither rounds nor flushes (R166, R178); one whose kind its operands decide counts by SFMT, a SEL by DFMT
(log 76). -/
def integerFn (w : InsWord) : Bool :=
  let f := w.fn.toNat % 128
  let ints := fun (c : BitVec 4) => decide (11 ≤ c.toNat ∧ c.toNat ≤ 14)
  match w.opc.toNat with
  | 0x10 => decide (8 ≤ f) || (decide (f ≤ 4) && ints w.sfmt)
  | 0x11 => decide (9 ≤ f) || ((decide (f ≤ 2) || f = 8) && ints w.sfmt)
  | 0x12 => decide (f ≠ 3) && ints w.sfmt
  | 0x13 => decide (f = 16) && ints w.dfmt
  | _ => false

/-- The functions that have no use for SAT (R178, R180). -/
def noSat (w : InsWord) : Bool :=
  let f := w.fn.toNat % 128
  match w.opc.toNat with
  | 0x10 => [8, 9, 10, 12, 13].contains f
  | 0x11 => [9, 10, 11].contains f
  | 0x13 => decide (f ≤ 8)
  | _ => false

/-- Bits `lo` to `lo + n - 1`, where the word uses them. -/
def bitsIf (c : Bool) (lo n : Nat) : Nat := if c then (2 ^ n - 1) * 2 ^ lo else 0

/-- The bits of a word that its row uses, as a word in which they are set and no other is (R36; Tables 2.6, 3.12, 4.1, 5.2, 5.5, 5.6,
6.3, 7.2 to 7.5, 8.3, 8.4, 8.7, 9.6, 10.2, 10.3, 10.8, 10.10, 11.2, 11.5). FN is not looked at. -/
def rowBits (w : InsWord) (q : QEntry) (s : State) : InsWord :=
  let base : InsWord := { InsWord.blank with opc := -1, fn := -1, ovl := true, tmark := true, start40 := -1 }
  let common := { base with commit := true, poisonOk := true }
  let route := { common with dst := -1, sa := -1, dfmt := -1, sfmt := -1 }
  let arith := { route with rnd := -1, sat := true, ftz := true, pred := -1 }
  let field := fun (c : Bool) => if c then (-1 : BitVec 6) else 0
  let i := w.imm32.toNat
  let a := w.aux64.toNat
  let f := w.fn.toNat
  let int := decide (11 ≤ w.sfmt.toNat ∧ w.sfmt.toNat ≤ 14)
  let mx := fun (c : BitVec 4) => decide (5 ≤ c.toNat ∧ c.toNat ≤ 10)
  match w.toInstr with
  | .binary _ | .unary _ | .ternary _ | .compareAndSelect _ | .specialFunctions _ =>
    let n := sourcesOf w.opc.toNat (f % 128)
    let rounds := !integerFn w && !(w.opc = 0x13 && decide (f % 128 ≤ 8))
    { arith with
      sb := field (decide (2 ≤ n) && a % 4 = 0), sc := field (n = 3 && a / 4 % 4 = 0), rnd := if rounds then -1 else 0
      sat := !noSat w, ftz := !integerFn w, imm32 := if 2 ≤ n ∧ a % 4 = 1 then -1 else 0
      aux64 := BitVec.ofNat 64 (bitsIf (decide (2 ≤ n)) 0 2 + bitsIf (n = 3) 2 2 + bitsIf (n = 3 && a / 4 % 4 = 1) 32 32) }
  | .tCvt _ =>
    { arith with sb := field (mx w.sfmt || f.testBit 2), sc := field (mx w.dfmt || f.testBit 3)
                 imm32 := BitVec.ofNat 32 (bitsIf (f / 16 % 4 = 3) 0 8) }
  | .tRed _ =>
    { arith with sb := field (i.testBit 4), imm32 := 31, rnd := if int || decide (6 ≤ f % 128) then 0 else -1
                 sat := decide (f % 128 < 6), ftz := !int }
  | .smax _ | .lse _ => { arith with sb := field (i.testBit 4), imm32 := 31 }
  | .tNorm _ => { arith with sb := field (a.testBit 0), sc := field (a.testBit 1), imm32 := -1
                             aux64 := BitVec.ofNat 64 (7 + bitsIf (a.testBit 2) 8 6) }
  | .topk _ => { route with sb := field (i.testBit 8), imm32 := 511, rnd := if a.testBit 6 then -1 else 0, sat := a.testBit 6, ftz := true
                            aux64 := BitVec.ofNat 64 (64 + bitsIf (a.testBit 6) 0 6) }
  | .hist _ => { route with sat := true, aux64 := 128 }
  | .dispatch _ => { route with imm32 := -1
                                aux64 := BitVec.ofNat 64 (64 + 2 ^ 14 + bitsIf (a.testBit 6) 0 6 + bitsIf (a.testBit 14) 8 6) }
  | .tDot _ =>
    let packed := f.testBit 3
    { arith with sb := -1, sc := field (f.testBit 0), rnd := if packed then 0 else -1, ftz := !packed
                 aux64 := BitVec.ofNat 64 (bitsIf (f / 4 % 4 = 1) 0 6 + bitsIf (f / 4 % 4 = 1) 8 6) }
  | .stream _ | .merge _ =>
    let m := f % 4 = 1
    let reads := fun k => q.streams.any (fun x => chainReads x.chain k)
    let aux := fun one => q.streams.any (fun x => x.one = one && x.auxUsed)
    let scale := fun one => q.streams.any (fun x => x.one = one && x.scaled)
    let feed := a.testBit 5
    { common with
      commit := false, dst := -1, dfmt := -1, sfmt := -1, ftz := true, pred := -1, xs := if m then 0 else -1, sa := field (m || aux false)
      sb := field (m || f.testBit 6), sc := field (aux true)
      imm32 := BitVec.ofNat 32 (bitsIf (feed || q.streams.any (fun x => x.kind = 1 || x.kind = 2)) 0 8 + bitsIf m 8 1 + bitsIf true 9 4
        + bitsIf (!m) 16 16)
      aux64 := BitVec.ofNat 64 (bitsIf feed 4 1 + 32 + bitsIf feed 6 6 + bitsIf (scale true) 12 6 + bitsIf (scale false) 18 6
        + bitsIf (i.testBit 9) 24 6 + bitsIf (i / 2 ^ 11 % 4 = 1 || i.testBit 10) 30 6 + bitsIf (reads 14) 36 6 + bitsIf (reads 13) 42 6
        + bitsIf (q.streams.any (fun x => x.kind = 3)) 48 11 + bitsIf (f.testBit 6) 59 5) }
  | .tCopy _ =>
    let fill := f.testBit 1
    { route with
      sa := field (!fill), sb := field (f.testBit 2 && !fill)
      imm32 := BitVec.ofNat 32 (if f.testBit 3 then 2 ^ fmtWidth w.dfmt.toNat - 1 else if f / 16 % 4 ≠ 0 then 255 else 0)
      aux64 := BitVec.ofNat 64 (bitsIf (!fill) 0 42 + bitsIf (!fill) 43 8 + bitsIf (!fill && f.testBit 2) 51 1) }
  | .tGath _ | .scatter _ | .scatterAdd _ =>
    let add := w.opc = 0x42 && f % 128 = 1
    let sums := add && !decide (11 ≤ w.dfmt.toNat ∧ w.dfmt.toNat ≤ 14)
    { route with sb := -1, rnd := if sums then -1 else 0, sat := add, ftz := sums
                 aux64 := BitVec.ofNat 64 (15 + bitsIf (a.testBit 0) 4 20 + bitsIf (a.testBit 1) 24 20) }
  | .tXfer _ => { route with imm32 := BitVec.ofNat 32 (bitsIf (q.dst.region = some .remote && !s.peerDst q.dst) 0 8) }
  | .offl _ | .reld _ => { route with sb := field (decide (2 ≤ f % 128)) }
  | .winOpen _ => { base with ovl := false, dst := -1, dfmt := -1, imm32 := 0xFFFFFF7F, aux64 := -1 }
  | .winClose _ | .waitcl _ => { base with imm32 := 31 }
  | .winExpect _ => { base with imm32 := 31, aux64 := -1 }
  | .claim _ => { common with ys := -1, sa := -1, sfmt := -1, imm32 := 0xFFFFFFC0, aux64 := BitVec.ofNat 64 (bitsIf true 0 20) }
  | .contrib _ => { common with ys := -1, sa := -1, sfmt := -1, imm32 := -1, aux64 := BitVec.ofNat 64 (bitsIf true 0 20 + bitsIf true 40 8) }
  | .collect _ =>
    let rounds := decide (w.dfmt ≠ 11)
    { common with ys := -1, dst := -1, dfmt := -1, rnd := if rounds then -1 else 0, sat := rounds, ftz := rounds, imm32 := 0x2FF
                  aux64 := BitVec.ofNat 64 (bitsIf true 0 20) }
  | .release _ => { common with ys := -1, imm32 := 511 }
  | .fwd _ => { common with ys := -1, imm32 := -1, aux64 := BitVec.ofNat 64 (bitsIf true 0 49 + bitsIf true 53 11) }
  | .post _ => { base with imm32 := 255, aux64 := -1 }
  | .trigWait _ => { base with imm32 := 15, aux64 := BitVec.ofNat 64 (bitsIf true 0 32) }
  | .tickBarrier _ => { base with aux64 := BitVec.ofNat 64 (bitsIf true 0 40) }
  | .windowCheck _ => { base with imm32 := 31, aux64 := -1 }
  | .tMark _ => { base with imm32 := -1 }
  | .powerDown _ | .powerUp _ | .zero _ => { base with imm32 := 0xFFFF }
  | .record _ | .check _ => { common with commit := false, sa := -1, sb := -1, sfmt := -1, aux64 := -1 }
  | _ => base

/-- The word has a bit set that its row does not use, which the row's `u` has not. -/
def stray (w u : InsWord) : Prop :=
  w.dst &&& ~~~u.dst ≠ 0 ∨ w.sa &&& ~~~u.sa ≠ 0 ∨ w.sb &&& ~~~u.sb ≠ 0 ∨ w.sc &&& ~~~u.sc ≠ 0 ∨ w.dfmt &&& ~~~u.dfmt ≠ 0
    ∨ w.sfmt &&& ~~~u.sfmt ≠ 0 ∨ w.rnd &&& ~~~u.rnd ≠ 0 ∨ (w.sat && !u.sat) = true ∨ (w.ftz && !u.ftz) = true ∨ w.pred &&& ~~~u.pred ≠ 0
    ∨ (w.ovl && !u.ovl) = true ∨ w.xs &&& ~~~u.xs ≠ 0 ∨ w.ys &&& ~~~u.ys ≠ 0 ∨ (w.commit && !u.commit) = true
    ∨ (w.poisonOk && !u.poisonOk) = true ∨ w.imm32 &&& ~~~u.imm32 ≠ 0 ∨ w.aux64 &&& ~~~u.aux64 ≠ 0

end Sys2Proof.Claims

/-- A tensor instruction that fails a check at head of issue is not issued: it stops with the first failing code of R518's order, a next
address out of range last. Earlier instructions stay in the array to complete; the halt waits for them (R44). What a head of issue
checks. Every row: COMMIT with POISON_OK, a reserved rounding mode, reserved bits and every bit of a field that the row, or its form,
does not use (0x1001); descriptors of another format than DFMT and SFMT (0x1002); an operand's descriptor, its base, its region and its
districts (0x1002, 0x2002, 0x2001, 0x2004). T.BIN's float functions are issued exactly where nothing of this fails. Then each class's
own rules; that a T.YARD tests the districts of its slot's frames at head of issue is the model's reading of R380 (log 74). -/
def Obligations.TensorIssueChecksStop : Prop :=
  (∀ (s : State) (w : InsWord), issues s → (checksOf w.toInstr).isSome = true → (failing s w ≠ none ∨ ¬ room s) →
    let f := (failing s w).getD (0x1003, infoAt 5 (s.sb.pc.toNat + 32))
    ∃ t, exec w.toInstr s = .next t ∧ stops s t (BitVec.ofNat 16 f.1) f.2 ∧ t.ft.seq = BitVec.ofNat 32 s.sb.nextSeq ∧
      ((∀ e ∈ s.tq, e.seq < s.sb.nextSeq) → (∀ e ∈ s.fl, e.q.seq < s.sb.nextSeq) → ¬ empty s →
        t.tq = s.tq ∧ t.fl = s.fl ∧ t.job = s.job ∧ t.ft.halting = some ⟨s.sb.nextSeq, s.sb.pc, BitVec.ofNat 16 f.1⟩ ∧ ¬ issues t)) ∧
  ((∀ (s : State) (w : InsWord), (checksOf w.toInstr).isSome = true →
    let q := entryOf s w
    let o := w.opc.toNat
    (stray w (rowBits w q s) → failsBy s w 0x1001) ∧
    (w.commit = true → w.poisonOk = true → failsBy s w 0x1001) ∧ (5 ≤ w.rnd.toNat → failsBy s w 0x1001) ∧
    (w.res0 ≠ 0 ∨ w.res1 ≠ 0 ∨ w.res2 ≠ 0 → failsBy s w 0x1001) ∧ (w.xs ≠ 0 → o ≠ 0x38 → failsBy s w 0x1001) ∧
    (w.ys ≠ 0 → o ≠ 0x58 → failsBy s w 0x1001) ∧ (w.pred ≠ 0 → (o = 0x22 ∨ 0x40 ≤ o) → failsBy s w 0x1001) ∧
    (w.commit = true → (o = 0x38 ∨ 0x50 ≤ o) → o ≠ 0x58 → failsBy s w 0x1001) ∧
    (w.sc ≠ 0 → 0x40 ≤ o → failsBy s w 0x1001) ∧ (w.rnd ≠ 0 → 0x40 ≤ o → o ≠ 0x42 → o ≠ 0x58 → failsBy s w 0x1001) ∧
    ((o ≤ 0x30 ∨ o ∈ [0x41, 0x42, 0x48, 0x49]) → (w.dfmt ≠ q.dst.format ∨ w.sfmt ≠ q.sa.format) → failsBy s w 0x1002) ∧
    (∀ op, opOf w.toInstr = some op → o ≤ 0x42 → o ≠ 0x38 → ∀ x ∈ op.srcs q ++ op.outs q,
      (x.d.valid = false → failsBy s w 0x1002) ∧
      ((if x.d.layout = 0 then x.d.inSpad = true ∧ x.d.at_ % 4 ≠ 0 else x.d.at_ % 128 ≠ 0) → failsBy s w 0x2002) ∧
      (x.d.inSpad = false ∨ belowYard s < x.d.hi → failsBy s w 0x2001) ∧
      (s.svc.limp = true → x.d.inSpad = true → (∃ g ∈ x.d.groups, s.districtOk (g / 2) = false) → failsBy s w 0x2004))) ∧
  (∀ (s : State) (w : InsWord), w.toInstr = .binary w → w.fn.toNat ≤ 7 → w.aux64.toNat % 4 = 0 → w.dfmt.toNat ≤ 4 → w.sfmt.toNat ≤ 4 →
    s.svc.limp = false →
    let q := entryOf s w
    (failing s w = none ↔ ¬ (w.commit = true ∧ w.poisonOk = true) ∧ w.rnd.toNat ≤ 4 ∧ w.sc = 0 ∧ w.imm32 = 0 ∧ w.aux64 = 0 ∧ w.xs = 0 ∧ w.ys = 0
      ∧ w.res0 = 0 ∧ w.res1 = 0 ∧ w.res2 = 0 ∧ w.dfmt = q.dst.format ∧ w.sfmt = q.sa.format ∧ q.sb.fmt ≤ 4
      ∧ q.sa.sameShape q.dst = true ∧ q.sb.rank = q.dst.rank ∧ (∀ a < 4, q.sb.n a = q.dst.n a ∨ q.sb.n a = 1)
      ∧ ∀ d ∈ [q.dst, q.sa, q.sb], d.valid = true ∧ d.inSpad = true ∧ d.at_ % (if d.layout = 0 then 4 else 128) = 0 ∧ d.hi ≤ belowYard s)) ∧
  (∀ (s : State) (w : InsWord),
    let q := entryOf s w
    let i := w.imm32.toNat
    let own := s.job.chipId.toNat
    (w.toInstr = .unary w ∨ w.toInstr = .ternary w ∨ w.toInstr = .specialFunctions w → q.sa.sameShape q.dst = false → failsBy s w 0x1002) ∧
    (w.toInstr = .specialFunctions w → (2 < w.dfmt.toNat ∨ 2 < w.sfmt.toNat ∨ w.rnd ≠ 0) → failsBy s w 0x1005) ∧
    (w.toInstr = .compareAndSelect w → w.fn.toNat % 128 ≤ 5 → (w.rnd ≠ 0 ∨ w.sat = true) → failsBy s w 0x1001) ∧
    (w.toInstr = .tCvt w → q.sa.sameShape q.dst = false → failsBy s w 0x1002) ∧
    (w.toInstr = .tCvt w → w.fn.getLsbD 3 = true → (w.dfmt.toNat ∉ [3, 4, 13, 14] ∨ w.sat = false) → failsBy s w 0x1005) ∧
    (w.toInstr = .tRed w → (i % 16 = 0 ∨ q.dst.rank ≠ q.sa.rank) → failsBy s w 0x1002) ∧
    (w.toInstr = .tRed w → (8 ≤ w.fn.toNat % 128 ∨ (6 ≤ w.fn.toNat % 128 ∧ (w.sat = true ∨ w.rnd ≠ 0))) → failsBy s w 0x1001) ∧
    (w.toInstr = .smax w ∨ w.toInstr = .lse w → (5 ≤ w.sfmt.toNat ∨ 5 ≤ w.dfmt.toNat) → failsBy s w 0x1005) ∧
    (w.toInstr = .tNorm w → q.sa.sameShape q.dst = false → failsBy s w 0x1002) ∧
    (w.toInstr = .tNorm w → (ofF32 w.imm32).isNan = true → failsBy s w 0x1005) ∧
    (w.toInstr = .topk w → (i % 256 = 0 ∨ 32 < i % 256) → failsBy s w 0x1001) ∧
    (w.toInstr = .topk w → q.sa.n 0 < i % 256 → failsBy s w 0x1005) ∧
    (w.toInstr = .hist w → q.dst.rank ≠ 0 → failsBy s w 0x1002) ∧
    (w.toInstr = .dispatch w → i ≠ q.dst.n 0 → failsBy s w 0x1002) ∧
    (w.toInstr = .tDot w → (q.dst.n 1 ≠ q.sa.n 1 ∨ q.dst.n 0 ≠ q.sb.n 1) → failsBy s w 0x1002) ∧
    (w.toInstr = .tDot w → 2 ≤ w.fn.toNat / 4 % 4 → s.cfg.profile ≠ 2 → failsBy s w 0x1005) ∧
    (w.toInstr = .stream w → w.xs = 0 → failsBy s w 0x1006) ∧
    (w.toInstr = .stream w → (∃ x ∈ q.streams, x.kind = 3) → ¬ anyNet s → failsBy s w 0x6001) ∧
    (w.toInstr = .merge w → (q.dst.fmt ≠ 0 ∨ q.sa.fmt ≠ 0 ∨ q.sb.fmt ≠ 0) → failsBy s w 0x1002) ∧
    (w.toInstr = .tGath w ∨ w.toInstr = .scatter w ∨ w.toInstr = .scatterAdd w → (q.sb.fmt ≠ 11 ∨ q.sb.layout ≠ 0) → failsBy s w 0x1002) ∧
    (w.toInstr = .tCopy w → w.dfmt ≠ q.dst.format → failsBy s w 0x1002) ∧
    (w.toInstr = .tXfer w → (q.sa.sameShape q.dst = false ∨ q.sa.format ≠ q.dst.format) → failsBy s w 0x1002) ∧
    (w.toInstr = .tXfer w → q.sa.inSpad = q.dst.inSpad → failsBy s w 0x2001) ∧
    (w.toInstr = .offl w ∨ w.toInstr = .reld w → (q.sa.layout ≠ 0 ∨ q.dst.layout ≠ 0) → failsBy s w 0x1002) ∧
    (w.toInstr = .record w ∨ w.toInstr = .check w → (q.sb.inSpad = false ∨ q.sb.fmt ≠ 11 ∨ q.sb.n 0 ≠ 4) → failsBy s w 0x1002) ∧
    (w.toInstr = .record w ∨ w.toInstr = .check w ∨ ((w.toInstr = .offl w ∨ w.toInstr = .reld w) ∧ 2 ≤ w.fn.toNat % 128) →
      (q.sb.inSpad = false → failsBy s w 0x1002) ∧ (q.sb.at_ % 16 ≠ 0 → failsBy s w 0x2002) ∧
      (q.sb.inSpad = true → belowYard s < q.sb.hi → failsBy s w 0x2001)) ∧
    (w.toInstr = .winOpen w → (w.ovl = true ∨ w.aux64.toNat / 2 ^ 52 < w.aux64.toNat / 2 ^ 40 % 4096) → failsBy s w 0x1001) ∧
    (w.toInstr = .winOpen w → (q.dst.fmt ≠ 11 ∨ q.dst.n 0 ≠ 32) → failsBy s w 0x1002) ∧
    (w.toInstr = .winOpen w → q.dst.at_ % 128 ≠ 0 → failsBy s w 0x2002) ∧
    (w.toInstr = .winClose w ∨ w.toInstr = .winExpect w ∨ w.toInstr = .waitcl w ∨ w.toInstr = .windowCheck w → 32 ≤ i → failsBy s w 0x1001) ∧
    (w.toInstr = .tickBarrier w → (i ≠ 0 ∨ 2 ^ 40 ≤ w.aux64.toNat) → failsBy s w 0x1001) ∧
    (w.toInstr = .trigWait w → (16 ≤ i ∨ 2 ^ 32 ≤ w.aux64.toNat) → failsBy s w 0x1001) ∧
    (w.toInstr = .post w → 256 ≤ i → failsBy s w 0x1001) ∧ (w.toInstr = .post w → ¬ anyNet s → failsBy s w 0x6001) ∧
    (w.toInstr = .powerDown w ∨ w.toInstr = .powerUp w ∨ w.toInstr = .zero w →
      (256 < i % 256 + i / 256 % 256 + 1 → failsBy s w 0x1001) ∧
      (belowYard s < (i % 256 + i / 256 % 256 + 1) * 2 ^ 21 → failsBy s w 0x2001) ∧
      (s.job.manifest.groups.getLsbD (i % 256) = false → failsBy s w 0x2004)) ∧
    (w.toInstr = .claim w → (q.sa.fmt ≠ 11 ∨ q.sa.rk ≠ 1 ∨ 16 < q.sa.n 0) → failsBy s w 0x1002) ∧
    (w.toInstr = .contrib w ∨ w.toInstr = .fwd w →
      ((w.aux64.toNat / 2 ^ 40 % 256 = 0 ↔ ¬ (i % 4096 = own ∨ i % 4096 = own ^^^ 1)) → failsBy s w 0x1001) ∧
      (i % 4096 = own ^^^ 1 → (s.port 30).state ≠ 2 → failsBy s w 0x6001)) ∧
    (w.toInstr = .collect w → q.dst.layout ≠ 0 → failsBy s w 0x1002) ∧
    (w.toInstr = .claim w ∨ (w.toInstr = .contrib w ∧ i % 4096 = own) ∨ w.toInstr = .collect w ∨ w.toInstr = .release w ∨ w.toInstr = .fwd w →
      s.svc.limp = true → w.ys.toNat < s.yardSlots →
      (∃ f < s.yardFrames, s.districtOk (s.leafAddr w.ys.toNat f 0 / 2 ^ 22) = false) → failsBy s w 0x2004) ∧
    (w.toInstr = .release w → 512 ≤ i → failsBy s w 0x1001) ∧ (w.toInstr = .release w → i.testBit 8 = true → ¬ anyNet s → failsBy s w 0x6001)))

/-- Every tensor instruction, of all 42 rows, runs: in an empty array, with no check failing and clean sources, its row has its class's
effect on the state in which it is in flight. Operands that software must keep apart and that meet leave its outputs, its amax values
and the arithmetic flags it sets free values, and nothing else. That all effects come at the start is the model's choice (log 6), as is
which values an overlap frees (log 47). So is that an instruction which the scrub holds starts, and accesses its lines when it has
passed (log 95). -/
def Obligations.TensorInstructionsStart : Prop :=
  ∀ (s : State) (w : InsWord) (op : TOp), startsAny s w op →
    let q := readyEntry s w
    let r := op.run q (begun s w)
    (keepsApart s w op → exec w.toInstr s = .next r) ∧
    (¬ keepsApart s w op → ∃ t, exec w.toInstr s = .next t ∧ t = r.unspecify q (op.outs q) ∧ t.sb = r.sb ∧ t.job = r.job ∧
      (r.memOk = true → ∀ a, (∀ o ∈ spadOnly (op.outs q), ∀ x ∈ o.d.ixs, 8 * a + 8 ≤ o.d.bitAddr x ∨ o.d.bitAddr x + o.d.w ≤ 8 * a) →
        t.sp.mem.read a = r.sp.mem.read a))

namespace Sys2Proof.Claims

/-- As `startsClean`, without a word of poison: nothing but poison and taint can hold the effect back. -/
def startsBut (s : State) (w : InsWord) (op : TOp) : Prop :=
  let q := readyEntry s w
  let u := counted s
  issues s ∧ empty s ∧ room s ∧ opOf w.toInstr = some op ∧ failing s w = none ∧ w.start40 = 0
    ∧ op.hold q { u with tq := [q] } = false ∧ s.scrubWaits op q = false
    ∧ (∀ p ∈ op.present q { u with tq := [q] }, p.2 ≤ (s.window p.1).received.toNat)
    ∧ firstStart (u.commonStart (op.srcs q) (op.outs q) ++ op.startChk q u) = none
    ∧ s.sp.suspects.filter (readsLine s w op) = [] ∧ keepsApart s w op

/-- The poisoned lines among those it reads. -/
def poisonedLines (s : State) (w : InsWord) (op : TOp) : List Nat := s.sp.psnLines.filter (readsLine s w op)

/-- The front of the queue is ready, its class lets it start, and its start tick has passed. -/
def frontReady (s : State) (q : QEntry) (op : TOp) : Prop :=
  s.tq.head? = some q ∧ opOf q.w.toInstr = some op ∧ q.readyAt.isSome = true ∧ s.allowed op q = true
    ∧ (q.startAt.getD 0).toNat ≤ s.now

/-- Ticks by which a ready entry passed its start tick (R74). -/
def lateness (q : QEntry) : Nat := match q.startAt with | none => 0 | some t => q.readyTick - t.toNat

/-- A halt fault can be recorded: RUNNING, no halt and no KILL under way. -/
def mayHalt (s : State) : Prop := s.job.state = 4 ∧ s.ft.halting = none ∧ s.job.kill = none

end Sys2Proof.Claims

/-- What poison and taint do at the start. A COMMIT that meets a set YARD_TAINT.any or a poisoned source line writes nothing, raises
0x5001 and halts, and so does one whose data pass meets an uncorrectable error: the info word then has bit 63 set (R525). POISON_OK
counts each poisoned line it reads in POISON_STAT.ok_reads and goes on; without either the instruction goes on and is marked to
append no amax. The model's own choices: the data pass and its error (log 50), and that the trace record of POISON_OK is one INSTR_START
record of the instruction, with the first such line (log 53). -/
def Obligations.CommitAndPoisonAtStart : Prop :=
  ∀ (s : State) (w : InsWord) (op : TOp), startsBut s w op →
    let ls := poisonedLines s w op
    let b := begun s w
    (w.commit = true → s.yd.taintAny = true → ∃ t, exec w.toInstr s = .next t ∧ t.ft.code = 0x5001
      ∧ t.ft.info = BitVec.ofNat 64 (0x7E * 2 ^ 56 + s.yd.taintColl.toNat) ∧ t.ft.pc = s.sb.pc ∧ t.sp = s.sp ∧ t.job.state = 6 ∧ empty t) ∧
    (w.commit = true → s.yd.taintAny = false → op.ownCommit = false → ls ≠ [] → ∃ t, exec w.toInstr s = .next t ∧ t.ft.code = 0x5001
      ∧ t.ft.pc = s.sb.pc ∧ t.sp = s.sp ∧ t.job.state = 6 ∧ empty t
      ∧ ∀ o l, firstPsn (readsOf s w op) ls = some (o, l) → t.ft.info = infoA false o.role o.num l) ∧
    (w.commit = true → s.yd.taintAny = false → w.opc.toNat < 0x38 → ls = [] → ∀ o l,
      b.spoiltLine (readsOf s w op) = some (o, l) → ∃ t, exec w.toInstr s = .next t ∧ t.ft.code = 0x5001
        ∧ t.ft.info = infoA true o.role o.num l ∧ t.ft.pc = s.sb.pc ∧ t.job.state = 6 ∧ empty t) ∧
    (w.commit = false → w.poisonOk = true → ls ≠ [] → exec w.toInstr s = .next (op.run (readyEntry s w)
      ({ b with ft := { b.ft with okReads := satAdd b.ft.okReads ls.length }
                fl := [⟨readyEntry s w, s.tickW, none, false, true, [], .idle⟩] }.trace 1 (readyEntry s w).tracePayload))) ∧
    (w.commit = false → w.poisonOk = false → ls ≠ [] → exec w.toInstr s = .next (op.run (readyEntry s w)
      { b with fl := [⟨readyEntry s w, s.tickW, none, true, false, [], .idle⟩] }))

/-- The start tick is TT_EPOCH + START40 at head of issue, a 64-bit sum. INSTRUCTION_START: a ready front whose tick has passed starts at
once (R77), also where the scrub has not reached a line that it reads or writes: it is then in flight, and has made no access yet; late,
it counts in TT_LATE once; later than a non-zero late_limit, as that stood when it began to wait, it raises 0x9001 instead of starting.
The presence check. A front that becomes ready while a checked window is short waits with its grace; it starts at the tick at which
every count is met; with no grace, or when the grace ends and a count is still short, it raises 0x3004 with the missing bytes. That a
start command changes nothing while a grace runs is the model's (log 10), as are lateness 0 and a grace from the start tick where a TCLK
steps over that tick (log 75). -/
def Obligations.StartTickLatenessAndPresence : Prop :=
  ((∀ (s : State) (w : InsWord), (entryOf s w).startAt = if w.start40 = 0 then none else some (s.sb.epoch + w.start40.setWidth 64)) ∧
  ∀ (s : State) (q : QEntry) (op : TOp), frontReady s q op → q.short = [] →
    (∀ p ∈ op.present q s, p.2 ≤ (s.window p.1).received.toNat) →
    let late := lateness q
    let limit := q.lateLim.getD s.job.lateLimit.toNat
    (late = 0 → exec .instructionStart s = .next (s.popFront.startTensor op q).noteFront) ∧
    (late = 0 → s.tq = [q] → s.scrubWaits op q = true → firstStart (s.commonStart (op.srcs q) (op.outs q) ++ op.startChk q s) = none →
      q.w.tmark = false → (q.w.commit = true → s.yd.taintAny = false) →
      exec .instructionStart s = .next { s with tq := [], fl := s.fl ++ [⟨q, s.tickW, none, false, false, [], .scrub⟩] }) ∧
    (0 < late → (limit = 0 ∨ late ≤ limit) →
      ∃ u : State, u = { s with job := { s.job with
            lateCount := satAdd s.job.lateCount 1
            lateMax := BitVec.ofNat 32 (max s.job.lateMax.toNat (min late (2 ^ 32 - 1))) }, tr := u.tr }
        ∧ exec .instructionStart s = .next (u.popFront.startTensor op q).noteFront) ∧
    (0 < late → limit ≠ 0 → limit < late → mayHalt s → ∃ t, exec .instructionStart s = .next t ∧ t.ft.code = 0x9001
      ∧ t.ft.info = BitVec.ofNat 64 late ∧ t.ft.pc = q.pc ∧ t.ft.tick = s.tickW)) ∧
  (∀ (s : State) (q : QEntry) (op : TOp), frontReady s q op →
    let short := (op.present q s).filter (fun p => (s.window p.1).received.toNat < p.2)
    let late := lateness q
    let missing := fun (p : Nat × Nat) (u : State) => min (p.2 - (u.window p.1).received.toNat) (2 ^ 32 - 1)
    (late = 0 → q.short = [] → short ≠ [] → s.job.grace ≠ 0 → exec .instructionStart s =
      .next { s with tq := { q with short := short.map (·.1), grace := s.job.grace.toNat } :: s.tq.tail }) ∧
    (late = 0 → q.short = [] → s.job.grace = 0 → mayHalt s → ∀ p, short.head? = some p → ∃ t, exec .instructionStart s = .next t
      ∧ t.ft.code = 0x3004 ∧ t.ft.info = infoWin (missing p s) (p.1 % 32) ∧ t.ft.pc = q.pc) ∧
    (q.short ≠ [] → s.now < q.readyTick + q.grace → short = [] →
      ∃ u : State, u = { s with tr := u.tr } ∧
      exec .instructionStart s = .next (u.popFront.startTensor op { q with short := [] }).noteFront) ∧
    (q.short ≠ [] → s.now < q.readyTick + q.grace → short ≠ [] → exec .instructionStart s = .next s) ∧
    (q.short ≠ [] → s.graceWaits = [(q.readyTick + q.grace, none)] → mayHalt s → ticking s →
      q.readyTick + q.grace < 2 ^ 64 - 256 →
      let u := s.elapseTo (q.readyTick + q.grace)
      ∀ p, ((op.present q u).filter (fun p => (u.window p.1).received.toNat < p.2)).head? = some p →
        ∃ t, exec .presenceGraceExpiry s = .next t ∧ t.ft.code = 0x3004 ∧ t.ft.info = infoWin (missing p u) (p.1 % 32) ∧ t.ft.pc = q.pc))

/-! ### Tensor instructions that compute on the scratchpad -/

namespace Sys2Proof.Claims

/-- No two elements of the tensor share a bit. -/
def apart (d : Desc) : Prop :=
  ∀ x ∈ d.ixs, ∀ y ∈ d.ixs, x ≠ y → d.bitAddr x + d.w ≤ d.bitAddr y ∨ d.bitAddr y + d.w ≤ d.bitAddr x

/-- The byte at `a` holds no bit of an element of the operands. -/
def outside (os : List Opnd) (a : Nat) : Prop :=
  ∀ o ∈ os, ∀ x ∈ o.d.ixs, 8 * a + 8 ≤ o.d.bitAddr x ∨ o.d.bitAddr x + o.d.w ≤ 8 * a

/-- What an instruction that computes on the scratchpad leaves alone: every byte outside its destinations' elements, every scalar,
descriptor and predicate register, the history, express and window state, slots, registers, counters but the one of issue, and the
fault record; the array's flags are sticky. -/
def dataFrame (s : State) (w : InsWord) (t : State) (outs : List Opnd) : Prop :=
  (∀ a, outside outs a → t.sp.mem.read a = s.sp.mem.read a)
    ∧ t.sb = (begun s w).sb ∧ t.job = s.job ∧ t.xp = s.xp ∧ t.wins = s.wins ∧ t.yd.slots = s.yd.slots ∧ t.yd.evts = s.yd.evts ∧ t.tb = s.tb
    ∧ t.live = (begun s w).live ∧ t.snap = s.snap ∧ t.svc = s.svc ∧ t.boot = s.boot ∧ t.cfg = s.cfg ∧ t.pw = s.pw ∧ t.cmd = s.cmd
    ∧ t.bankJ = s.bankJ ∧ t.bankK = s.bankK ∧ t.tq = [] ∧ t.pending = s.pending ∧ t.ar.hist = s.ar.hist ∧ t.ar.margin = s.ar.margin
    ∧ t.ar.flags = s.ar.flags ||| t.ar.flags ∧ t.sp.groups = s.sp.groups ∧ t.sp.maddr = s.sp.maddr
    ∧ t.ft.valid = s.ft.valid ∧ t.ft.code = s.ft.code ∧ t.ft.log = s.ft.log ∧ t.ft.okReads = s.ft.okReads

/-- An operand of an element-wise instruction at a destination element: a tensor read with broadcast, or a scalar (R158 to R161). -/
def ewOperand (s : State) (q : QEntry) (tensor : Bool) (d : Desc) (scalar : W32) (x : Ix) : Val :=
  if tensor then s.elem d (fnU q.w && isInt d.fmt) q.w.ftz (d.bcast x) else scalarVal (ewScalarInt q) (fnU q.w) q.w.ftz scalar

/-- The integer that `w` bits stand for. -/
def intOf (uns : Bool) (w bits : Nat) : Int := if uns = false ∧ 2 ^ (w - 1) ≤ bits then (bits : Int) - 2 ^ w else bits

/-- An exact integer as it is stored in `w` bits: clamped to the range under SAT, else modulo 2^w (Table 3.5). -/
def placed (uns sat : Bool) (w : Nat) (r : Int) : Nat :=
  let lo : Int := if uns then 0 else -2 ^ (w - 1)
  let hi : Int := if uns then 2 ^ w - 1 else 2 ^ (w - 1) - 1
  ((if sat then max lo (min hi r) else r) % 2 ^ w).toNat

/-- The exact result of an integer function of Tables 4.3 to 4.5 whose result is a number, w the width of SFMT; none for the others. -/
def intExact (opc fn w : Nat) (a b c : Int) : Option Int :=
  let n := (b % 64).toNat
  match opc, fn with
  | 0x10, 0 => some (a + b)
  | 0x10, 1 => some (a - b)
  | 0x10, 2 => some (a * b)
  | 0x10, 3 => some (max a b)
  | 0x10, 4 => some (min a b)
  | 0x10, 11 => some (if w ≤ n then 0 else a * 2 ^ n)
  | 0x10, 12 => some (a / 2 ^ n)
  | 0x10, 13 => some (a * b / 2 ^ w)
  | 0x10, 14 => some |a - b|
  | 0x11, 0 => some a
  | 0x11, 1 => some (-a)
  | 0x11, 2 => some |a|
  | 0x11, 8 => some (if a < 0 then -1 else if a = 0 then 0 else 1)
  | 0x12, 0 => some (a * b + c)
  | 0x12, 1 => some (a * b - c)
  | 0x12, 2 => some (c - a * b)
  | 0x12, 4 => some (min (max a b) c)
  | _, _ => none

/-- An integer operand at a destination element. -/
def intOperand (s : State) (w : InsWord) (tensor : Bool) (d : Desc) (scalar : W32) (x : Ix) : Int :=
  if tensor then intOf (fnU w) d.w (s.raw d (d.bcast x)) else if fnU w then (scalar.toNat : Int) else scalar.toInt

/-- A finite value as a rational number. -/
def rat (d : Dy) : ℚ := (if d.neg then -1 else 1) * d.n * 2 ^ d.e

/-- `bits` is the value v rounded once into FP32, BF16 or FP16 (code 0, 1, 2) under mode `rnd` (R119, R120): the nearest finite value,
a tie to the even encoding; toward zero; toward −∞; toward +∞. An infinity stands only for a value past the range (Table 3.5). -/
def rounded (code rnd : Nat) (v : ℚ) (bits : Nat) : Prop :=
  let top : ℚ := match code with
    | 0 => (2 - 2 ^ (-23 : Int)) * 2 ^ (127 : Int) | 1 => (2 - 2 ^ (-7 : Int)) * 2 ^ (127 : Int) | _ => (2 - 2 ^ (-10 : Int)) * 2 ^ (15 : Int)
  let half : ℚ := match code with | 0 => 2 ^ (103 : Int) | 1 => 2 ^ (119 : Int) | _ => 2 ^ (4 : Int)
  bits < 2 ^ fmtWidth code ∧
  match decodeElem code false false bits with
  | .nan => False
  | .inf neg => (if neg then v < 0 else 0 < v) ∧
      (match rnd with | 0 => top + half ≤ |v| | 1 => False | 2 => v < -top | _ => top < v)
  | .fin r => ∀ e < 2 ^ fmtWidth code, ∀ y, decodeElem code false false e = .fin y →
      match rnd with
      | 0 => |v| < top + half ∧ |rat r - v| ≤ |rat y - v| ∧ (|rat r - v| = |rat y - v| → rat y ≠ rat r → bits % 2 = 0)
      | 1 => |rat r| ≤ |v| ∧ 0 ≤ rat r * v ∧ (|rat y| ≤ |v| → 0 ≤ rat y * v → |rat y| ≤ |rat r|)
      | 2 => rat r ≤ v ∧ (rat y ≤ v → rat y ≤ rat r)
      | _ => v ≤ rat r ∧ (v ≤ rat y → rat r ≤ rat y)

/-- `bits` is the value v ≠ 0 rounded stochastically into FP32, BF16 or FP16 with the 16 random bits `rb` (R119, R123): the encoding whose
magnitude `|rat y|` is the greatest up to |v|, or the next one where the fraction of the step between them and `rb` reach 2^16; past the
largest magnitude the next is infinity (Table 3.5). -/
def roundedSR (code : Nat) (v : ℚ) (rb bits : Nat) : Prop :=
  let (f, bias, last) : Nat × Int × Nat := match code with | 0 => (23, 127, 254) | 1 => (7, 127, 254) | _ => (10, 15, 30)
  let sign := if v < 0 then 2 ^ (fmtWidth code - 1) else 0
  if (2 : ℚ) ^ ((last : Int) + 1 - bias) ≤ |v| then bits = sign + (last + 1) * 2 ^ f
  else ∃ z y, z < (last + 1) * 2 ^ f ∧ decodeElem code false false z = .fin y ∧
    let step : ℚ := 2 ^ (max (z / 2 ^ f : Int) 1 - bias - f)
    rat y ≤ |v| ∧ |v| < rat y + step ∧ bits = sign + z + (if 2 ^ 16 ≤ ⌊(|v| - rat y) / step * 2 ^ 16⌋₊ + rb then 1 else 0)

end Sys2Proof.Claims

/-- The elements of a valid descriptor lie inside its extent, and no two of them share a bit, in all four layouts. -/
def Obligations.LayoutsSeparateElements : Prop :=
  ∀ d : Desc, d.valid = true → apart d ∧ ∀ x ∈ d.ixs, 8 * d.at_ ≤ d.bitAddr x ∧ d.bitAddr x + d.w ≤ 8 * d.hi

/-- BINARY, UNARY, TERNARY, COMPARE AND SELECT and SPECIAL FUNCTIONS write each element of DST that PRED gates in from its own sources,
with broadcast and scalars, and no other element and no byte besides. -/
def Obligations.ElementwiseWritesGatedElements : Prop :=
  ∀ (s : State) (w : InsWord), w.opc.toNat ∈ [0x10, 0x11, 0x12, 0x13, 0x18] → startsClean s w ewOp → s.memOk = true → apart (readyEntry s w).dst →
    let q := readyEntry s w
    let d := q.dst
    ∃ t, exec w.toInstr s = .next t ∧ dataFrame s w t [q.oDst] ∧
      (∀ x ∈ d.ixs, (s.getP w.pred.toNat).getLsbD (d.lane x) = false → t.raw d x = s.raw d x) ∧
      (∀ x ∈ d.ixs, (s.getP w.pred.toNat).getLsbD (d.lane x) = true →
        t.raw d x = (ewElem w ⟨s.sb.seed, d.tensorId, s.sb.step⟩ (d.lin x) (s.elem q.sa (fnU w && isInt q.sa.fmt) w.ftz x)
          (ewOperand s q (ewSb w) q.sb w.imm32 x) (ewOperand s q (ewSc w) q.sc (cval w) x)).1 % 2 ^ d.w)

/-- Integer element-wise functions store the exact integer result in the destination's width: clamped under SAT, else modulo 2^w. That the
count of a shift is b mod 64 for a negative INT4 b too is the model's (log 78). -/
def Obligations.ElementwiseIntegersAreExact : Prop :=
  ∀ (s : State) (w : InsWord), w.opc.toNat ∈ [0x10, 0x11, 0x12] → startsClean s w ewOp → s.memOk = true → apart (readyEntry s w).dst →
    isInt w.sfmt.toNat = true → isInt w.dfmt.toNat = true →
    let q := readyEntry s w
    let d := q.dst
    ∃ t, exec w.toInstr s = .next t ∧ ∀ x ∈ d.ixs, (s.getP w.pred.toNat).getLsbD (d.lane x) = true → ∀ r,
      intExact w.opc.toNat (w.fn.toNat % 128) q.sa.w (intOf (fnU w) q.sa.w (s.raw q.sa x)) (intOperand s w (ewSb w) q.sb w.imm32 x)
        (intOperand s w (ewSc w) q.sc (cval w) x) = some r →
      t.raw d x = placed (fnU w) w.sat d.w r

/-- ADD, SUB and MUL of finite floats round the exact sum, difference or product once into DFMT under RND, SR among its modes, for FP32,
BF16 and FP16 destinations without SAT and FTZ; a result that is not zero keeps its sign, also where it rounds to zero. An exact zero
sum, a − b taken as a + (−b), is −0 under RDN and +0 otherwise where its operands have opposite signs, and has their sign where they
agree; an exact zero product has the product's sign. That R118 takes a and −b for the operands of SUB is the model's (log 97). -/
def Obligations.FloatResultsRoundOnce : Prop :=
  ∀ (s : State) (w : InsWord), w.opc = 0x10 → w.fn.toNat ≤ 2 → startsClean s w ewOp → s.memOk = true → apart (readyEntry s w).dst →
    w.dfmt.toNat ≤ 2 → w.sfmt.toNat ≤ 2 → w.rnd.toNat ≤ 4 → w.sat = false → w.ftz = false →
    let q := readyEntry s w
    let d := q.dst
    let zero := fun (neg : Bool) => if neg then 2 ^ (d.w - 1) else 0
    ∃ t, exec w.toInstr s = .next t ∧ ∀ x ∈ d.ixs, (s.getP w.pred.toNat).getLsbD (d.lane x) = true → ∀ a b : Dy,
      s.elem q.sa false false x = .fin a → ewOperand s q (ewSb w) q.sb w.imm32 x = .fin b →
      let v := if w.fn = 0 then rat a + rat b else if w.fn = 1 then rat a - rat b else rat a * rat b
      (v ≠ 0 → w.rnd.toNat ≤ 3 → rounded w.dfmt.toNat w.rnd.toNat v (t.raw d x)) ∧
      (v ≠ 0 → w.rnd = 4 → roundedSR w.dfmt.toNat v ((⟨s.sb.seed, d.tensorId, s.sb.step⟩ : SrCtx).rbits 0 (d.lin x)) (t.raw d x)) ∧
      (v ≠ 0 → (t.raw d x).testBit (d.w - 1) = decide (v < 0)) ∧
      (v = 0 → w.fn = 0 → t.raw d x = zero (if a.neg = b.neg then a.neg else w.rnd = 2)) ∧
      (v = 0 → w.fn = 1 → t.raw d x = zero (if a.neg = b.neg then w.rnd = 2 else a.neg)) ∧
      (v = 0 → w.fn = 2 → t.raw d x = zero (a.neg != b.neg))

namespace Sys2Proof.Claims

/-- `l` is a line that holds a bit of the element `x`. -/
def holds (d : Desc) (x : Ix) (l : Nat) : Prop := l % 128 = 0 ∧ d.bitAddr x < 8 * l + 1024 ∧ 8 * l < d.bitAddr x + d.w

/-- The scrub has passed every line that holds an element of the tensor, or none runs (R402). -/
def reached (s : State) (d : Desc) : Prop := ∀ x ∈ d.ixs, ∀ l, holds d x l → ¬ unscrubbed s l

/-- An element reads a poisoned line: one in a tile of a source that holds an element it reads (R198). -/
def readsPoison (s : State) (q : QEntry) (x : Ix) : Prop :=
  ∃ o ∈ ewOpnds q, ∃ tl ∈ o.d.tilesOf (o.d.bcast x), ∃ l ∈ o.d.tileLines tl, l ∈ s.sp.psnLines

/-- The last of a list of writes to an element. -/
def lastWrite (ws : List (Ix × Nat)) (x : Ix) : Option Nat := ((ws.filter (fun p => p.1 = x)).getLast?).map (·.2)

end Sys2Proof.Claims

/-- Poison follows the data of the element-wise classes tile by tile: without COMMIT and POISON_OK, a line that the instruction writes is
poisoned exactly where its destination tile holds an element that reads a poisoned tile, or where it was and PRED keeps an element on it
unwritten: only a full write clears the bit (R522), R357 taken before the second sentence of R199, the model's reading (log 70). Under
POISON_OK no line it writes is poisoned. That a line shared with an unpoisoned tile is poisoned (log 69), and that R357 comes before the
second sentence of R199 where PRED leaves a line written in part (log 70), are the model's. -/
def Obligations.PoisonFollowsElementTiles : Prop :=
  ∀ (s : State) (w : InsWord), w.opc.toNat ∈ [0x10, 0x11, 0x12, 0x13, 0x18] → startsBut s w ewOp → w.commit = false →
    s.sp.decay = [] → (readyEntry s w).dst.valid = true →
    let q := readyEntry s w
    let d := q.dst
    ∃ t, exec w.toInstr s = .next t ∧ ∀ x ∈ d.ixs, (s.getP w.pred.toNat).getLsbD (d.lane x) = true → ∀ l, holds d x l →
      (t.psn l = true ↔ w.poisonOk = false ∧
        ((∃ tl ∈ d.tiles, l ∈ d.tileLines tl ∧ (∃ y ∈ d.ixs, tl ∈ d.tilesOf y ∧ readsPoison s q y)
          ∧ ∃ z ∈ d.ixs, tl ∈ d.tilesOf z ∧ (s.getP w.pred.toNat).getLsbD (d.lane z) = true) ∨
        (s.psn l = true ∧ ∃ y ∈ d.ixs, holds d y l ∧ (s.getP w.pred.toNat).getLsbD (d.lane y) = false)))

/-- T.CVT rounds each gated element, taken with its source scale, once into the destination under its scale; an MX destination also gets
the scale byte of each block, and a scaled one the byte it used. -/
def Obligations.ConversionWritesElementsAndScales : Prop :=
  ∀ (s : State) (w : InsWord), w.opc = 0x28 → startsClean s w cvtOp → s.memOk = true → apart (readyEntry s w).dst →
    let q := readyEntry s w
    let d := q.dst
    let xs := (d.ixs.filter (q.gate d)).map (fun x => (x, (s.cvtSource q x).1))
    let sr : SrCtx := ⟨s.sb.seed, d.tensorId, s.sb.step⟩
    ∃ t, exec w.toInstr s = .next t ∧ dataFrame s w t ([q.oDst] ++ when (isMX d.fmt || cvtDscl w) q.oSc) ∧
      ((isMX d.fmt = true ∨ cvtDscl w = true → ∀ x ∈ d.ixs, ∀ y ∈ q.sc.ixs,
          q.sc.bitAddr y + q.sc.w ≤ d.bitAddr x ∨ d.bitAddr x + d.w ≤ q.sc.bitAddr y) →
        (isMX d.fmt = true → ∀ p ∈ (mxElems w sr d xs).1, t.raw d p.1 = p.2 % 2 ^ d.w) ∧
        (isMX d.fmt = true → apart q.sc → ∀ p ∈ (mxElems w sr d xs).2.1, t.raw q.sc p.1 = p.2 % 2 ^ q.sc.w) ∧
        (isMX d.fmt = false → cvtDscl w = false → ∀ p ∈ xs, t.raw d p.1 =
          (roundTo d.fmt (cvtDu w) w.rnd.toNat w.sat w.ftz (sr.bitsFor w.rnd.toNat 0 (d.lin p.1)) p.2).1 % 2 ^ d.w) ∧
        (isMX d.fmt = false → cvtDscl w = true → xs ≠ [] →
          let b := t.raw q.sc ⟨0, 0, 0, 0⟩
          (cvtPol w = 0 → b = scaleByte (amaxOf (xs.map (·.2))).scaleL d.fmt (cvtDu w)) ∧
          (cvtPol w = 1 ∨ cvtPol w = 2 → b = (s.policyByte (cvtPol w) d.tensorId.toNat d.fmt (cvtDu w)).1) ∧
          (cvtPol w = 3 → b = w.imm32.toNat % 256) ∧
          ∀ p ∈ xs, t.raw d p.1 = (roundTo d.fmt (cvtDu w) w.rnd.toNat w.sat w.ftz (sr.bitsFor w.rnd.toNat 0 (d.lin p.1))
            (p.2.scale (127 - (b : Int)))).1 % 2 ^ d.w))

/-- T.RED and LSE write one element for each reduction set, SMAX and T.NORM one for each element of the source, T.DOT one for each pair of
rows, each gated by PRED; T.NORM's statistics are the mean and the reciprocal deviation of each row; under FTZ a subnormal mean is
written as a zero, the model's choice (log 77). That T.NORM writes its statistics for every row whatever PRED says is the model's (log
41), as are the flush of a subnormal tree value into FP32 under FTZ (log 71) and the RMS row with an infinite leaf (log 73). -/
def Obligations.ReductionsWriteTheirResults : Prop :=
  ∀ (s : State) (w : InsWord) (op : TOp), startsClean s w op → s.memOk = true → apart (readyEntry s w).dst →
    let q := readyEntry s w
    let d := q.dst
    let b := begun s w
    let gated := fun (x : Ix) => (s.getP w.pred.toNat).getLsbD (d.lane x) = true
    (w.opc = 0x20 → ∃ t, exec w.toInstr s = .next t ∧ dataFrame s w t [q.oDst] ∧ ∀ k ∈ redKeys q.sa (redAxes w), gated k → k ∈ d.ixs →
      t.raw d k = (b.placeAt q d k (redValue w (s.leaves q (redMask w) (redIxs q.sa (redAxes w) k))).1).1 % 2 ^ d.w) ∧
    (w.toInstr = .lse w → ∃ t, exec w.toInstr s = .next t ∧ dataFrame s w t [q.oDst] ∧ ∀ k ∈ redKeys q.sa (redAxes w), gated k → k ∈ d.ixs →
      t.raw d k = (b.placeAt q d k (lseValue (w.rnd = 2) (s.leaves q (redMask w) (redIxs q.sa (redAxes w) k))).1).1 % 2 ^ d.w) ∧
    (w.toInstr = .smax w → ∃ t, exec w.toInstr s = .next t ∧ dataFrame s w t [q.oDst] ∧ ∀ k ∈ redKeys q.sa (redAxes w),
      let ids := redIxs q.sa (redAxes w) k
      ∀ p ∈ ids.zip (smaxValues (s.leaves q (redMask w) ids)).1, gated p.1 → t.raw d p.1 = (b.placeAt q d p.1 p.2).1 % 2 ^ d.w) ∧
    (w.opc = 0x30 → ∃ t, exec w.toInstr s = .next t ∧ dataFrame s w t [q.oDst] ∧ ∀ x ∈ d.ixs, gated x →
      t.raw d x = (s.dotElem q x).1 % 2 ^ d.w) ∧
    (w.opc = 0x21 → normStats w = false → ∃ t, exec w.toInstr s = .next t ∧ dataFrame s w t [q.oDst] ∧ ∀ x ∈ d.ixs, gated x →
      let row := normRow (w.fn = 0) (leaf32 (ofF32z w.ftz w.imm32)) ((List.range (d.n 0)).map (fun i => leaf32 (s.elem q.sa false w.ftz { x with i0 := i })))
      let u := ofF32 (row.2.2.1.getD x.i0 0)
      let g := if normGamma w then s.elem q.sb false w.ftz ⟨x.i0, 0, 0, 0⟩ else Val.ofInt 1
      let v := if normBeta w then Val.fma (w.rnd = 2) u g (s.elem q.sc false w.ftz ⟨x.i0, 0, 0, 0⟩) else u.mul g
      t.raw d x = (b.placeAt q d x v.1).1 % 2 ^ d.w) ∧
    (w.opc = 0x21 → normStats w = true → ∃ t, exec w.toInstr s = .next t ∧ dataFrame s w t (normOuts q) ∧
      (apart (q.oAux 8 0).d → ∀ x ∈ ixsOf 1 (d.n 1) (d.n 2) (d.n 3),
        let row := normRow (w.fn = 0) (leaf32 (ofF32z w.ftz w.imm32)) ((List.range (d.n 0)).map (fun i => leaf32 (s.elem q.sa false w.ftz { x with i0 := i })))
        t.raw (q.oAux 8 0).d { x with i0 := 0 } = (ftz32 w.ftz row.1).toNat ∧ t.raw (q.oAux 8 0).d { x with i0 := 1 } = row.2.1.toNat))

namespace Sys2Proof.Claims

/-- The tree of 05 R202 on present leaves: a run of n leaves is the op of the tree of its first 2^k leaves and the tree of the rest, with
2^k the greatest power of 2 below n. -/
inductive TreeOf {α : Type} (op : α → α → α) : List α → α → Prop where
  | leaf (a : α) : TreeOf op [a] a
  | node (l r : List α) (a b : α) (k : Nat) : l.length = 2 ^ k → 1 ≤ r.length → r.length ≤ 2 ^ k →
      TreeOf op l a → TreeOf op r b → TreeOf op (l ++ r) (op a b)

end Sys2Proof.Claims

/-- The reduction tree combines its leaves in the order of R202, whatever the number of leaves: the split is at the greatest power of 2
below it, so the result does not depend on how the work is dealt. -/
def Obligations.ReductionTreeFollowsPositions : Prop :=
  ∀ (op : W32 → W32 → W32 × BitVec 10) (l : List W32), l ≠ [] →
    ∃ v, (tree op (l.map some)).1 = some v ∧ TreeOf (fun a b => (op a b).1) l v

namespace Sys2Proof.Claims

/-- Messages that left after `s`, and what waits at port `p` for instruction `seq`. -/
def newOut (s t : State) : List Sent := t.out.drop s.out.length
def queued (t : State) (p seq : Nat) : List TxItem := (t.port p).txq.filter (fun i => i.owner = some seq)

/-- The messages of instruction `seq` at port `p`, those that left after `s` and then those that wait, in order. -/
def messages (s t : State) (p seq : Nat) : List OutMsg :=
  ((newOut s t).filter (fun m => m.port = p)).map (·.msg) ++ (queued t p seq).map (·.msg)

end Sys2Proof.Claims

/-- TOPK, HIST and DISPATCH. A row of TOPK lists distinct positions of present leaves, none of which is beaten by a leaf left out, the
lower position winning a tie, and the values output holds their scores, −∞ in an empty slot; HIST counts the elements equal to each
bin, on top of the old bin where it accumulates; DISPATCH lists each expert's tokens in order and drops those past its capacity, and
its counts and positions outputs hold each expert's routed and kept tokens and each entry's slot. -/
def Obligations.RoutingSelectsAndCounts : Prop :=
  ∀ (s : State) (w : InsWord) (op : TOp), startsClean s w op → s.memOk = true → apart (readyEntry s w).dst →
    let q := readyEntry s w
    let d := q.dst
    (w.toInstr = .topk w → ∃ t, exec w.toInstr s = .next t ∧ dataFrame s w t (topkOuts q) ∧
      ∀ r ∈ ixsOf 1 (q.sa.n 1) (q.sa.n 2) (q.sa.n 3),
        let score := fun (i : Nat) => s.elem q.sa false w.ftz { r with i0 := i }
        let present := fun (i : Nat) => i < q.sa.n 0 ∧ (topkMask w = false ∨ (s.elem q.sb false w.ftz (q.sb.bcast { r with i0 := i })).isZero = false)
        let sel := fun (j : Nat) => t.raw d { r with i0 := j }
        let none_ := 2 ^ d.w - 1
        (∀ j < topkK w, sel j = none_ ∨ present (sel j)) ∧
        (∀ j < topkK w, ∀ k < topkK w, j ≠ k → sel j = sel k → sel j = none_) ∧
        (∀ k < topkK w, ∀ j < k, sel k ≠ none_ → sel j ≠ none_ ∧ ((score (sel j)).isNan = true → (score (sel k)).isNan = true) ∧
          (score (sel j)).below (score (sel k)) = false ∧
          ((score (sel k)).isNan = (score (sel j)).isNan → (score (sel k)).below (score (sel j)) = false → sel j < sel k)) ∧
        (∀ j < topkK w, ∀ i, present i → (∀ k < topkK w, sel k ≠ i) → sel j ≠ none_ ∧
          ((score i).isNan = true ∨ ((score (sel j)).isNan = false ∧ (score (sel j)).below (score i) = false)) ∧
          ((score i).isNan = (score (sel j)).isNan → (score i).below (score (sel j)) = false → sel j < i)) ∧
        (topkVal w = true → apart (q.oAux 0 0).d → ∀ j < topkK w,
          let v := (q.oAux 0 0).d
          let x : Ix := { r with i0 := j }
          t.raw v x = ((begun s w).placeAt q v x (if sel j = none_ then .inf true else score (sel j))).1 % 2 ^ v.w)) ∧
    (w.toInstr = .hist w → ∃ t, exec w.toInstr s = .next t ∧ dataFrame s w t [q.oDst] ∧
      ∀ x ∈ d.ixs, t.raw d x = placed (fnU w) w.sat d.w
        (((q.sa.ixs.filter (fun y => intOf (fnU w) q.sa.w (s.raw q.sa y) = x.i0)).length : Int)
          + if histAcc w then intOf (fnU w) d.w (s.raw d x) else 0)) ∧
    (w.toInstr = .dispatch w → ∃ t, exec w.toInstr s = .next t ∧ dataFrame s w t (dispOuts q) ∧
      let expert := fun (y : Ix) => intOf false q.sa.w (s.raw q.sa y)
      let tokens := fun (e : Nat) => (q.sa.ixs.filter (fun y => expert y = e)).map (·.i1)
      (∀ e < d.n 1, ∀ c < d.n 0, t.raw d ⟨c, e, 0, 0⟩ = match (tokens e)[c]? with | some k => k % 2 ^ 32 | none => 2 ^ 32 - 1) ∧
      (dispCnt w = true → apart (q.oAux 0 0).d → ∀ e < d.n 1,
        t.raw (q.oAux 0 0).d ⟨0, e, 0, 0⟩ = (tokens e).length % 2 ^ 32
          ∧ t.raw (q.oAux 0 0).d ⟨1, e, 0, 0⟩ = min (tokens e).length (d.n 0) % 2 ^ 32) ∧
      (dispPos w = true → apart (q.oAux 8 (dispPosK w)).d → ∀ y ∈ q.sa.ixs,
        let c := ((q.sa.ixs.takeWhile (fun z => z ≠ y)).filter (fun z => expert z = expert y)).length
        t.raw (q.oAux 8 (dispPosK w)).d y =
          if 0 ≤ expert y ∧ expert y < d.n 1 ∧ c < d.n 0 then ((expert y).toNat * d.n 0 + c) % 2 ^ 32 else 2 ^ 32 - 1))

/-- T.COPY, T.GATH, SCATTER and SCATTER_ADD move elements as they are stored: a copied element is its source's bits or the pad, in place
(R337) as well; a copy to a matrix port sends the lines of the tensor at base 0 with the least pitches, in increasing address; a gathered
element is its row's, with the index clamped into the table; of several entries that scatter to one element the last wins, and
SCATTER_ADD adds them in list order, integers exactly and floats in FP32 sums rounded once into DFMT. -/
def Obligations.MovesKeepStoredBits : Prop :=
  ∀ (s : State) (w : InsWord) (op : TOp), startsClean s w op → s.memOk = true → apart (readyEntry s w).dst →
    let q := readyEntry s w
    let d := q.dst
    (w.opc = 0x40 → copyDk w = 0 → ∃ t, exec w.toInstr s = .next t ∧ dataFrame s w t [q.oDst] ∧ ∀ x ∈ d.ixs,
      t.raw d x = match copyFrom q x with
        | some (b, y) => s.raw (if b then q.sb else q.sa) y
        | none => if copyPad w then w.imm32.toNat % 2 ^ d.w else s.raw d x) ∧
    (w.opc = 0x40 → copyDk w ≠ 0 → s.sp.psnLines = [] → (s.port (copyDk w - 1)).txq = [] → ∃ t, exec w.toInstr s = .next t
      ∧ t.sp = s.sp ∧ t.sb = (begun s w).sb ∧ t.job = s.job ∧ ∃ m : Mem,
        messages s t (copyDk w - 1) q.seq = d.least.mLines.map (fun l => .operand false (BitVec.ofNat 8 w.imm32.toNat)
          (BitVec.ofNat 32 (d.least.mAddr l / 128)) (m.readBytes (d.least.mAddr l) 128))
        ∧ ∀ x ∈ d.ixs, m.readBits (d.least.bitAddr x) d.w = match copyFrom q x with
          | some (b, y) => s.raw (if b then q.sb else q.sa) y
          | none => 0) ∧
    (w.opc = 0x41 → ∃ t, exec w.toInstr s = .next t ∧ dataFrame s w t [q.oDst] ∧ ∀ e ∈ s.gsEntries q, ∀ c ∈ gsBlock q e, c.1 ∈ d.ixs →
      t.raw d c.1 = if c.2.2 then s.raw q.sa c.2.1 else 0) ∧
    (w.toInstr = .scatter w → ∃ t, exec w.toInstr s = .next t ∧ dataFrame s w t [q.oDst] ∧ ∀ x ∈ d.ixs,
      t.raw d x = match lastWrite (((s.gsEntries q).filter (fun e => !gsDrops q e)).flatMap (fun e =>
          ((gsBlock q e).filter (fun c => c.2.2)).map (fun c => (c.2.1, s.raw q.sa c.1)))) x with
        | some v => v
        | none => s.raw d x) ∧
    (w.toInstr = .scatterAdd w → isInt d.fmt = true → ∃ t, exec w.toInstr s = .next t ∧ dataFrame s w t [q.oDst] ∧ ∀ x ∈ d.ixs,
      let adds := ((s.gsEntries q).filter (fun e => !gsDrops q e)).flatMap (fun e =>
          ((gsBlock q e).filter (fun c => c.2.2 && decide (c.2.1 = x))).map (fun c => intOf (fnU w) q.sa.w (s.raw q.sa c.1)))
      t.raw d x = if adds = [] then s.raw d x else placed (fnU w) w.sat d.w (intOf (fnU w) d.w (s.raw d x) + adds.sum)) ∧
    (w.toInstr = .scatterAdd w → isInt d.fmt = false → ∃ t, exec w.toInstr s = .next t ∧ dataFrame s w t [q.oDst] ∧ ∀ x ∈ d.ixs,
      let adds := ((s.gsEntries q).filter (fun e => !gsDrops q e)).flatMap (fun e =>
          ((gsBlock q e).filter (fun c => c.2.2 && decide (c.2.1 = x))).map (fun c => leaf32 (s.elem q.sa false w.ftz c.1)))
      let sum := adds.foldl (fun a y => (addOp a y).1) (leaf32 (s.elem d false w.ftz x))
      t.raw d x = if adds = [] then s.raw d x else ((begun s w).placeAt q d x (ofF32 sum)).1 % 2 ^ d.w)

/-! ### Records, express, transfers -/

/-- RECORD writes one record for each shard: the generation of AUX64, the CRC-32C of the shard's payload, psn 0 from clean lines. CHECK
counts the shards it checks; where one differs it counts those, keeps the lowest in GEN_FAIL, raises 0x2007 and changes no memory. -/
def Obligations.GenRecordsAndChecks : Prop :=
  ∀ (s : State) (w : InsWord) (op : TOp), startsClean s w op → s.memOk = true →
    let q := readyEntry s w
    let n := q.sb.n 1
    let crc := fun (i : Nat) => (crc32c (payloadOf q.sa s.sp.mem (shardRows q.sa i))).toNat
    let word := fun (u : State) (i k : Nat) => u.raw q.sb ⟨k, i, 0, 0⟩
    let badPsn := fun (i : Nat) => word s i 3 % 2 = 1
    let badCrc := fun (i : Nat) => word s i 2 ≠ crc i
    let badGen := fun (i : Nat) => word s i 0 + 2 ^ 32 * word s i 1 ≠ w.aux64.toNat
    let fails := fun (i : Nat) => badPsn i ∨ badCrc i ∨ badGen i
    let failed := ((List.range n).filter (fun i =>
      decide (word s i 3 % 2 = 1 ∨ word s i 2 ≠ crc i ∨ word s i 0 + 2 ^ 32 * word s i 1 ≠ w.aux64.toNat))).length
    (w.toInstr = .record w → ∃ t, exec w.toInstr s = .next t ∧ dataFrame s w t [q.oSb] ∧ ∀ i < n,
      word t i 0 = w.aux64.toNat % 2 ^ 32 ∧ word t i 1 = w.aux64.toNat / 2 ^ 32 ∧ word t i 2 = crc i ∧ word t i 3 = 0) ∧
    (w.toInstr = .check w → (∀ i < n, ¬ fails i) →
      exec w.toInstr s = .next { begun s w with xf := { s.xf with
        genChecked := satAdd s.xf.genChecked n, genFailed := satAdd s.xf.genFailed 0 } }) ∧
    (w.toInstr = .check w → ∀ i < n, fails i → (∀ j < i, ¬ fails j) → ∃ t : State, exec w.toInstr s = .next t
      ∧ t.ft.code = 0x2007 ∧ t.ft.pc = s.sb.pc ∧ t.job.state = 6 ∧ t.sp.mem = s.sp.mem ∧ empty t
      ∧ t.xf.genChecked = satAdd s.xf.genChecked n ∧ t.xf.genFailed = satAdd s.xf.genFailed failed
      ∧ t.xf.gfValid = true ∧ t.xf.gfShard = BitVec.ofNat 20 i
      ∧ (t.xf.gfPsn = true ↔ badPsn i) ∧ (t.xf.gfCrc = true ↔ badCrc i) ∧ (t.xf.gfGen = true ↔ badGen i))

namespace Sys2Proof.Claims

/-- The row-state entry that a T.XPR begins with (R300): as INIT sets it, as FTZ reads the spill tensor (R116), or kept. -/
def beginRow (s : State) (q : QEntry) (row : Nat) : RowEnt :=
  if 32 * q.trows ≤ row then s.rowEnt row
  else match xpRsi q.w with
    | 0 => RowEnt.init
    | 1 =>
      let word := fun (k : Nat) => ftz32 q.w.ftz (s.spillWord q.xSpill.d (row / 32) (32 * k + row % 32))
      ⟨word 0, word 1, word 2⟩
    | _ => s.rowEnt row

/-- No element of one tensor shares a bit with an element of the other. -/
def separate (a b : Desc) : Prop :=
  ∀ x ∈ a.ixs, ∀ y ∈ b.ixs, a.bitAddr x + a.w ≤ b.bitAddr y ∨ b.bitAddr y + b.w ≤ a.bitAddr x

end Sys2Proof.Claims

/-- T.XPR. STREAM begins with the row state that rsi names, expects each port's tiles and grants it one credit for each that it can
hold. MERGE combines each row's m and l with those of its spill tensor, and each gated element with the incoming one. -/
def Obligations.ExpressStartsAndMerges : Prop :=
  ∀ (s : State) (w : InsWord) (op : TOp), startsClean s w op →
    let q := readyEntry s w
    let d := q.dst
    (w.toInstr = .stream w → ∃ t g, exec w.toInstr s = .next t ∧ t.fl = [⟨q, s.tickW, none, false, false, [], .xpr g⟩]
      ∧ g.st0.run = 0 ∧ g.st1.run = 0 ∧ g.held = [] ∧ g.waiting = [] ∧ g.lastTick = s.tickW ∧ g.limit = s.xp.stall.toNat
      ∧ (∀ i < 4, g.left.getD i 0 = (q.streams.map (·.onPort i)).sum ∧ g.granted.getD i 0 = min (g.left.getD i 0) (s.port (2 + i)).rxFree
        ∧ (t.port (2 + i)).rxOut = (s.port (2 + i)).rxOut + g.granted.getD i 0
        ∧ (t.port (2 + i)).rxFree = (s.port (2 + i)).rxFree - g.granted.getD i 0)
      ∧ (∀ row, t.rowEnt row = beginRow s q row) ∧ t.sp.mem = s.sp.mem ∧ t.sb = (begun s w).sb ∧ t.job = s.job) ∧
    (w.toInstr = .merge w → s.memOk = true → apart d → separate d q.sa → separate d q.sb →
      (xpSpl w = true → separate d q.xSpill.d) → (xpFin w = true → separate d q.xLse.d) →
      ∃ t, exec w.toInstr s = .next t ∧ (∀ a, outside q.xOuts a → t.sp.mem.read a = s.sp.mem.read a) ∧ t.sb = (begun s w).sb ∧ t.job = s.job
      ∧ ∀ row < d.n 1,
        let in_ := fun k => leaf32 (ofF32z w.ftz (s.spillWord q.sb (row / 32) (32 * k + row % 32)))
        let r := mergeRow (beginRow s q row) (in_ 0) (in_ 1)
        let recip := if xpNrm w then some (primX .rcp false false r.1.l).1 else none
        t.rowEnt row = r.1 ∧ ∀ x ∈ d.ixs, x.i1 = row → (s.getP w.pred.toNat).getLsbD (d.lane x) = true →
          t.raw d x = (mergeElem (leaf32 (s.elem d false w.ftz x)) (leaf32 (s.elem q.sa false w.ftz x)) r.2.1 r.2.2.1 recip).1.toNat)

namespace Sys2Proof.Claims

/-- The scale planes, the spill tensor and the LSE tensor of a T.XPR hold all that it writes (R283, R301, R302). -/
def expressFits (q : QEntry) : Prop :=
  (∀ y ∈ q.streams, isMX y.d.fmt = true → ∀ x ∈ y.d.ixs, x.block ∈ y.scl.d.ixs)
    ∧ (xpSpl q.w = true → 96 ≤ q.xSpill.d.n 0 ∧ q.trows ≤ q.xSpill.d.n 1) ∧ (xpFin q.w = true → q.dst.n 1 ≤ q.xLse.d.n 0)

end Sys2Proof.Claims

namespace Sys2Proof.Claims

/-- The byte `b` for window address `a` is in a remote write sent or queued on port `p` (Table 10.5). -/
def netCarries (s t : State) (p seq a : Nat) (b : Byte) : Prop :=
  let writes := fun (m : OutMsg) => ∃ h ws w, m = .rwrite h ws ∧ h.addr.toNat ≤ a ∧ ws[(a - h.addr.toNat) / 4]? = some w
    ∧ h.lenM1.toNat + 1 = ws.length ∧ h.sender = s.job.chipId ∧ b.toNat = w.toNat / 2 ^ (8 * ((a - h.addr.toNat) % 4)) % 256
  (∃ m ∈ newOut s t, m.port = p ∧ writes m.msg) ∨ ∃ i ∈ queued t p seq, writes i.msg

/-- The triggers of tiles that wait at port `p` behind their lines (R308). -/
def triggersQueued (s : State) (p : Nat) : Nat :=
  ((s.port p).txq.filter (fun i => match i.msg with | .trigger .. => true | _ => false)).length

/-- The trigger of a tile is on its way: it has left with the count `v`, it waits with it to be handed over, or it waits behind the lines
it follows and takes its count when it is posted (R308, R483). -/
def triggerGoes (s t : State) (p seq : Nat) (id : Byte) (v : W64) : Prop :=
  (∃ m ∈ newOut s t, m.msg = .trigger id v) ∨ (∃ x ∈ t.yd.trigs, x.owner = some seq ∧ x.id = id ∧ x.val = v)
    ∨ ∃ i ∈ queued t p seq, ∃ u, i.msg = .trigger id u

/-- The tile that a header and its data make (Table 7.6), with the predicates as they stood at issue (R28, log 54). -/
def tileOf (q : QEntry) (one : Bool) (hdr : W64) (data : List W32) : HeldTile :=
  ⟨one, bitsOf hdr.toNat 30 10, bitsOf hdr.toNat 15 15, bitsOf hdr.toNat 0 15, bitOf hdr.toNat 47, q.preds, data⟩

/-- What the chain of stream `x` stores of the elements `es` of a tile: index and bits (R295, R296). -/
def placedOf (s : State) (q : QEntry) (g : XprProg) (x : XStream) (h : HeldTile) (es : List Elem) : List (Ix × Nat) :=
  (x.place q.w.ftz (g.stream x.one).scale.toNat (s.stored q x h es)).1

/-- A tile's elements as they reach the SMX step, and the leaf of an element there: absent where its predicate is 0 (R303). -/
def beforeSmx (s : State) (q : QEntry) (x : XStream) (h : HeldTile) : List Elem := s.steps q x h 0 (smxAt x.chain) (s.tileElems q x h)
def smxLeaf (x : XStream) (e : Elem) : Option W32 :=
  let w := x.chain.getD (smxAt x.chain) 0
  if e.p.getD (stPred w) true then some (e.operand (stSa w) (stImm w)) else none

/-- SMX on one row of the whole group: what each column's leaf receives, and the row's new entry (R303). -/
def smxOf (s : State) (q : QEntry) (x : XStream) (hs : List HeldTile) (row : Nat) : List W32 × RowEnt × Fl :=
  smxRow (s.rowEnt row) ((hs.flatMap (beforeSmx s q x)).filterMap (fun e => if e.row = row then some (smxLeaf x e) else none))

/-- A tile's elements at the end of the chain, after SMX has given each its value and its row's entry (R303, R304). -/
def afterSmx (s : State) (q : QEntry) (x : XStream) (hs : List HeldTile) (h : HeldTile) : List Elem :=
  let w := x.chain.getD (smxAt x.chain) 0
  s.steps q x h (smxAt x.chain + 1) 16 ((beforeSmx s q x h).map (fun e =>
    let r := smxOf s q x hs e.row
    { e with c := e.c.set (stDst w) (r.1.getD e.col 0), rs := (r.2.1.m, r.2.1.l, r.2.1.a) }))

/-- The destinations of a T.XPR fit what it writes, and no other operand shares a bit with those of stream `x`. -/
def expressApart (q : QEntry) (x : XStream) : Prop :=
  apart x.d ∧ expressFits q ∧ ∀ o ∈ q.xOuts, o ≠ x.o → separate x.d o.d

end Sys2Proof.Claims

/-- ACC_TILE. A tile still credited to an abandoned T.XPR is taken and discarded. A tile without a credit, or whose header breaks a
condition of R272, is counted and its header kept; 0x6006 is raised at the T.XPR in flight, or logged without one. An expected tile of a
chain without SMX is counted, goes through its chain, and what the chain stores is in the destination, in the lines sent to a matrix
port, or in remote writes with their trigger behind them, which carries the count of tiles whose triggers have been posted. With SMX a
tile is held until its row group is whole; then SMX runs row by row in column order, the row state takes each new entry, and the rest of
the chain stores each tile. A tile that would write a line that the scrub has not reached is taken and waits (R402). That a NET store to
the peer leaves on port 30 whatever nport says is the model's (log 52), as are that ST's SR number is its step's index (log 63), that a
tile's predicates are those copied at issue (log 54) and that RM, RL and RA as the operand of the SMX step itself read the entry before
it (log 82). So are the bits of gated elements in a line for a port (log 101) and the order of tiles that wait for the scrub (log 95).
-/
def Obligations.AccumulatorTilesArrive : Prop :=
  ∀ (s : State) (p : Fin 35) (hdr : W64) (data : List W32), 2 ≤ p.val → p.val ≤ 5 → (s.port p.val).up = true → data.length = 1024 →
    attends s → onTime s →
    let i := p.val - 2
    let gone := AL.getD s.xp.discard p.val 0
    let back := fun (t : State) => (t.port p.val).rxOut = (s.port p.val).rxOut - 1 ∧ (t.port p.val).rxFree = (s.port p.val).rxFree + 1
    let refused := fun (t : State) => t.xp.hdrErr = satAdd s.xp.hdrErr 1 ∧ t.xp.hdr = hdr ∧ t.sp.mem = s.sp.mem ∧ t.sb.s = s.sb.s
    let comes := fun (f : Inflight) (g : XprProg) (x : XStream) => gone = 0 ∧ s.xprInFlight = some f ∧ f.prog = .xpr g ∧ g.waiting = []
      ∧ 0 < g.granted.getD i 0 ∧ x ∈ f.q.streams ∧ ∃ n, tileNumber f.q hdr.toNat = some (x.one, n) ∧ (g.stream x.one).next.getD i 0 = n
    let expected := fun (f : Inflight) (g : XprProg) (x : XStream) => comes f g x ∧ ∀ o ∈ f.q.xOuts, reached s o.d
    let taken := fun (t : State) => t.xp.tiles = satAdd s.xp.tiles 1 ∧ t.sb = s.sb ∧ t.job = s.job
      ∧ (1 ≤ (s.port p.val).rxOut → (t.port p.val).rxOut + (t.port p.val).rxFree = (s.port p.val).rxOut + (s.port p.val).rxFree)
    let ran := fun (f : Inflight) (g : XprProg) (x : XStream) =>
      let h := tileOf f.q x.one hdr data
      placedOf s f.q g x h (s.steps f.q x h 0 16 (s.tileElems f.q x h))
    let clean := s.sp.psnLines = [] ∧ s.xp.rowPsn = [] ∧ bitOf hdr.toNat 47 = false
    (0 < gone → ∃ t, exec (.accTile p hdr data) s = .next t ∧ back t ∧ AL.getD t.xp.discard p.val 0 = gone - 1
      ∧ t.sp = s.sp ∧ t.fl = s.fl ∧ t.ft = s.ft ∧ t.sb = s.sb ∧ t.out = s.out) ∧
    (gone = 0 → s.xprInFlight = none → ∃ t, exec (.accTile p hdr data) s = .next t ∧ refused t ∧ t.job = s.job ∧ t.fl = s.fl
      ∧ t.ft.valid = s.ft.valid ∧ logs s t 0x6006 1 hdr) ∧
    (∀ f g, gone = 0 → s.xprInFlight = some f → f.prog = .xpr g → mayHalt s →
      (g.granted.getD i 0 = 0 ∨ ∀ one n, tileNumber f.q hdr.toNat = some (one, n) → (g.stream one).next.getD i 0 ≠ n) →
      ∃ t : State, exec (.accTile p hdr data) s = .next t ∧ t.xp.hdrErr = satAdd s.xp.hdrErr 1 ∧ t.xp.hdr = hdr
        ∧ t.ft.code = 0x6006 ∧ t.ft.info = hdr ∧ t.ft.pc = f.q.pc ∧ t.sb.s = s.sb.s) ∧
    (∀ f, gone = 0 → s.xprInFlight = some f → f.prog = .scrub → mayHalt s → ∃ t : State, exec (.accTile p hdr data) s = .next t
      ∧ t.xp.hdrErr = satAdd s.xp.hdrErr 1 ∧ t.xp.hdr = hdr ∧ t.ft.code = 0x6006 ∧ t.ft.info = hdr ∧ t.ft.pc = f.q.pc) ∧
    (∀ f g x, comes f g x → x.kind = 0 → (∀ y ∈ f.q.streams, chainSmx y.chain = false) →
      g.st0.run + g.st1.run < (f.q.streams.map XStream.tiles).sum →
      (∃ v ∈ ran f g x, ∃ l, holds x.d v.1 l ∧ unscrubbed s l ∧ AL.getD (g.stream x.one).lines l 0 = 0) →
      ∃ t u, exec (.accTile p hdr data) s = .next t ∧ taken t ∧ t.sp = s.sp ∧ t.xp.rows = s.xp.rows
        ∧ t.fl = s.fl.map (fun y => if y.q.seq = f.q.seq then { y with prog := .xpr u } else y)
        ∧ u.waiting = [tileOf f.q x.one hdr data] ∧ u.held = g.held) ∧
    (∀ f g x, expected f g x → x.kind = 0 → (∀ y ∈ f.q.streams, chainSmx y.chain = false) → s.memOk = true → expressApart f.q x →
      ∃ t, exec (.accTile p hdr data) s = .next t ∧ taken t ∧ (∀ a, outside f.q.xOuts a → t.sp.mem.read a = s.sp.mem.read a)
        ∧ ∀ v ∈ ran f g x, t.raw x.d v.1 = v.2 % 2 ^ x.d.w) ∧
    (∀ f g x, expected f g x → x.kind = 1 ∨ x.kind = 2 → (∀ y ∈ f.q.streams, chainSmx y.chain = false) → clean →
      x.d.least.valid = true → apart x.d.least → (s.port (x.kind - 1)).txq = [] →
      ∃ t, exec (.accTile p hdr data) s = .next t ∧ taken t ∧ ∃ (m : Mem) (ls : List Nat), ls.Pairwise (· < ·)
        ∧ (∀ l, l ∈ ls ↔ ∃ v ∈ ran f g x, holds x.d.least v.1 l)
        ∧ messages s t (x.kind - 1) f.q.seq = ls.map (fun l =>
            .operand false (xpOtag f.q.w) (BitVec.ofNat 32 (l / 128)) (m.readBytes l 128))
        ∧ ∀ v ∈ ran f g x, m.readBits (x.d.least.bitAddr v.1) x.d.w = v.2 % 2 ^ x.d.w) ∧
    (∀ f g x, expected f g x → x.kind = 3 → (∀ y ∈ f.q.streams, chainSmx y.chain = false) → apart x.d → x.d.valid = true →
      x.d.hi ≤ 2 ^ 48 → x.d.w % 8 = 0 →
      ∃ t, exec (.accTile p hdr data) s = .next t ∧ taken t ∧
        let port := if s.peerDst x.d then 30 else xpNport f.q.w
        triggerGoes s t port f.q.seq (xpTrig f.q.w) (BitVec.ofNat 64 (s.yd.netSent + triggersQueued s port + 1)) ∧
        ∀ v ∈ ran f g x, ∀ k < x.d.w / 8,
          netCarries s t port f.q.seq (x.d.bitAddr v.1 / 8 + k) (BitVec.ofNat 8 (v.2 / 2 ^ (8 * k)))) ∧
    (∀ f g x, expected f g x → x.one = false → chainSmx x.chain = true →
      let tile := tileOf f.q false hdr data
      let mine := (g.held ++ [tile]).filter (fun h => !h.stream && decide (h.trow = tile.trow))
      let hs := (List.range x.cols).flatMap (fun c => mine.filter (fun h => decide (h.tcol = c)))
      (mine.length < x.cols → g.st0.run + g.st1.run < (f.q.streams.map XStream.tiles).sum → ∃ t u, exec (.accTile p hdr data) s = .next t ∧ taken t ∧ t.sp = s.sp ∧ t.xp.rows = s.xp.rows
        ∧ t.fl = s.fl.map (fun y => if y.q.seq = f.q.seq then { y with prog := .xpr u } else y) ∧ u.held = g.held ++ [tile]) ∧
      (x.cols ≤ mine.length → ∃ t, exec (.accTile p hdr data) s = .next t ∧ taken t
        ∧ (∀ row, t.rowEnt row = if 32 * tile.trow ≤ row ∧ row < min (32 * tile.trow + 32) (x.d.n 1)
            then (smxOf s f.q x hs row).2.1 else s.rowEnt row)
        ∧ (x.kind = 0 → s.memOk = true → expressApart f.q x → (∀ a, outside f.q.xOuts a → t.sp.mem.read a = s.sp.mem.read a)
          ∧ (hs.map (·.tcol) = List.range x.cols → ∀ h ∈ hs, ∀ v ∈ placedOf s f.q g x h (afterSmx s f.q x hs h),
              t.raw x.d v.1 = v.2 % 2 ^ x.d.w))))

namespace Sys2Proof.Claims

/-- The byte `b` for package or host address `a` is on its way on the line's port: in a whole line sent or queued, or in a line that is
read first to be merged (R411, R635). -/
def busCarries (s t : State) (seq a : Nat) (b : Byte) : Prop :=
  let l := lineOf a
  let p := memPort l
  let writes := fun (m : OutMsg) => ∃ tok psn data, m = .mwrite tok psn (BitVec.ofNat 48 l) data ∧ data[a - l]? = some b
  let merges := fun (r : ReadFor) => ∃ data psn, r = .merge data psn ∧ data[a - l]? = some (some b)
  (∃ m ∈ newOut s t, m.port = p ∧ writes m.msg)
    ∨ (∃ i ∈ queued t p seq, writes i.msg ∨ (i.msg = .mread 0 (BitVec.ofNat 48 l) ∧ merges i.rd))
    ∨ (∃ r ∈ t.reqs, r.owner = some seq ∧ r.port = p ∧ ∃ tok what, r.kind = .read tok l what ∧ merges what)

/-- Line `l` is asked for on its port (R411, R421). -/
def asks (s t : State) (seq l : Nat) : Prop :=
  (∃ m ∈ newOut s t, m.port = memPort l ∧ ∃ tok, m.msg = .mread tok (BitVec.ofNat 48 l))
    ∨ ∃ i ∈ queued t (memPort l) seq, i.msg = .mread 0 (BitVec.ofNat 48 l) ∧ i.rd = .spad

end Sys2Proof.Claims

/-- T.XFER, T.OFFL and T.RELD. Out of the scratchpad, every byte that holds a bit of an element goes out on the port of its line, or on
the peer port or a port of pmask for a remote destination; no memory changes. Into it, every line of the source is asked for. -/
def Obligations.TransfersCarryEveryByte : Prop :=
  ∀ (s : State) (w : InsWord) (op : TOp), startsClean s w op → (w.opc = 0x48 ∨ w.opc = 0x49) →
    let q := readyEntry s w
    let d := q.dst
    (q.sa.inSpad = true → ∃ t, exec w.toInstr s = .next t ∧ t.sp = s.sp ∧ t.sb = (begun s w).sb ∧ t.job = s.job ∧
      ∀ x ∈ d.ixs, ∀ a, d.bitAddr x / 8 ≤ a → 8 * a < d.bitAddr x + d.w →
        let b := s.sp.mem.read (a + q.sa.bitAddr x / 8 - d.bitAddr x / 8)
        if d.region = some .remote then
          if s.peerDst d then netCarries s t 30 q.seq a b else ∃ i ∈ xferMask w, netCarries s t (22 + i) q.seq a b
        else busCarries s t q.seq a b) ∧
    (q.sa.inSpad = false → ∃ t, exec w.toInstr s = .next t ∧ t.sp = s.sp ∧ t.sb = (begun s w).sb ∧ t.job = s.job
      ∧ t.fl = [⟨q, s.tickW, none, false, false, [], .dma ⟨q.sa.allLines, [], []⟩⟩] ∧ ∀ l ∈ q.sa.allLines, asks s t q.seq l)

namespace Sys2Proof.Claims

/-- The byte at `a` of the lines that have come. -/
def gotByte (got : AL (List Byte)) (a : Nat) : Byte := (AL.getD got (lineOf a) []).getD (a % 128) 0

/-- The request is the first that a response on port `p` with token `tok` answers (Table 17.8). -/
def answered (s : State) (p tok : Nat) (ack : Bool) (r : Req) : Prop :=
  let hit := fun (x : Req) => x.port = p ∧ if ack then x.kind = .ack tok else ∃ a what, x.kind = .read tok a what
  hit r ∧ ∃ pre post, s.reqs = pre ++ r :: post ∧ ∀ x ∈ pre, ¬ hit x

end Sys2Proof.Claims

/-- MRESP. A response frees its request's token; one that answers none, or with a reserved bit set, or with poison on an acknowledgement, is
logged as 0x6007. A line read to be merged takes the bytes that the instruction writes and goes out on its port (R635). A line read for
a transfer is kept; with the last one, once the scrub has passed the lines of DST (R402), each destination element is the source's bits
from the lines, a failed reload check marks every line poisoned and is counted, and an acknowledgement changes nothing else. That bytes
are buffered until the last line comes is the model's (log 38), as is that a merged line under POISON_OK is unpoisoned, which R635 does
not except (log 36). -/
def Obligations.MemoryResponsesComplete : Prop :=
  ∀ (s : State) (p : Fin 35) (hdr : MrespHdr) (line : List Byte), portClass p.val = .mem ∨ portClass p.val = .host →
    (s.port p.val).up = true → line.length = (if hdr.ack then 0 else 128) → attends s → onTime s →
    let sound := hdr.resHi = 0 ∧ hdr.resLo = 0 ∧ (hdr.ack = true → hdr.psn = false)
    ((¬ sound ∨ ∀ r, ¬ answered s p.val hdr.token.toNat hdr.ack r) → ∃ t, exec (.mresp p hdr line) s = .next t ∧ t.reqs = s.reqs ∧ t.fl = s.fl
      ∧ t.sp = s.sp ∧ logs s t 0x6007 1 (infoP p.val s.now) ∧ t.job = s.job) ∧
    (∀ r, sound → answered s p.val hdr.token.toNat hdr.ack r → hdr.ack = true → ∃ t new, exec (.mresp p hdr line) s = .next t
      ∧ t.reqs = s.reqs.erase r ++ new ∧ t.fl = s.fl ∧ t.sp = s.sp ∧ t.job = s.job) ∧
    (∀ r a f bytes psn, sound → answered s p.val hdr.token.toNat hdr.ack r → r.kind = .read hdr.token.toNat a (.merge bytes psn) →
      s.fl.find? (fun f => some f.q.seq = r.owner) = some f → ∃ t tok, exec (.mresp p hdr line) s = .next t ∧ t.sp = s.sp ∧ t.job = s.job ∧
        let out := OutMsg.mwrite tok (psn || ((hdr.psn || hdr.err) && !f.q.w.poisonOk)) (BitVec.ofNat 48 a)
          ((bytes.zip line).map (fun b => b.1.getD b.2))
        (∃ m ∈ newOut s t, m.port = p.val ∧ m.msg = out) ∨ (tok = 0 ∧ ∃ i ∈ (t.port p.val).txq, i.msg = out)) ∧
    (∀ r a f m, sound → answered s p.val hdr.token.toNat hdr.ack r → r.kind = .read hdr.token.toNat a .spad →
      s.fl.find? (fun f => some f.q.seq = r.owner) = some f → f.prog = .dma m →
      let q := f.q
      let d := q.dst
      let got := AL.put m.got a line
      let bad := hdr.psn || hdr.err
      (m.need.filter (· ≠ a) ≠ [] ∨ ¬ reached s d → ∃ t, exec (.mresp p hdr line) s = .next t ∧ t.sp = s.sp ∧ t.job = s.job
        ∧ (let m' : DmaProg := ⟨m.need.filter (· ≠ a), got, if bad then insNat m.psn a else m.psn⟩
           t.fl = s.fl.map (fun x => if x.q.seq = q.seq then { x with prog := Prog.dma m' } else x))) ∧
      (m.need.filter (· ≠ a) = [] → reached s d → m.psn = [] → bad = false → s.memOk = true → apart d → (got.map (·.1)).Nodup →
        (∀ e ∈ got, e.1 % 128 = 0 ∧ e.2.length = 128) →
        ∃ t, exec (.mresp p hdr line) s = .next t ∧ (∀ b, outside [q.oDst] b → t.sp.mem.read b = s.sp.mem.read b) ∧ t.job = s.job
        ∧ t.sb = s.sb ∧ t.fl = s.fl.map (fun x => if x.q.seq = q.seq then { x with prog := Prog.idle } else x)
        ∧ (∀ x ∈ d.ixs, ∀ k < d.w, (t.raw d x).testBit k =
            (gotByte got ((q.sa.bitAddr x + k) / 8)).getLsbD ((q.sa.bitAddr x + k) % 8))
        ∧ (q.w.toInstr = .reld q.w → q.w.fn = 3 → d.valid = true → d.baseOk = true →
            let src : Mem := got.foldl (fun m e => m.writeBytes e.1 e.2) []
            let crc := (crc32c (payloadOf q.sa src q.sa.rowIxs)).toNat
            (s.raw q.sb ⟨2, 0, 0, 0⟩ ≠ crc ∨ s.raw q.sb ⟨3, 0, 0, 0⟩ % 2 = 1) →
              t.xf.reldBad = satAdd s.xf.reldBad 1 ∧ ∀ x ∈ d.ixs, ∀ l, holds d x l → t.psn l = true)))

/-! ### Windows, remote writes and answers -/

namespace Sys2Proof.Claims

/-- The window states of 10 Table 10.7: OPEN, and CLOSED. -/
def winOpenAt (x : Window) (now : Nat) : Prop := x.openTs ≠ none64 ∧ (x.closeTs = none64 ∨ now < x.closeTs.toNat)
def winClosedAt (x : Window) (now : Nat) : Prop :=
  x.openTs = none64 ∨ (x.closeTs ≠ none64 ∧ x.closeTs.toNat + x.drain.toNat ≤ now)

/-- `a` strictly precedes `b` under the half-range rule of two 40-bit stamps (R432). -/
abbrev precedes40 (a b : Nat) : Prop := 2 ^ 39 ≤ (a + (2 ^ 40 - b % 2 ^ 40)) % 2 ^ 40

/-- The answer code of R432: the first failing test. `off` and `n` are the write's offset and length. -/
def acceptCode (x : Window) (st snd off n now : Nat) (psn : Bool) (code : Nat) : Prop :=
  if x.openTs = none64 ∨ precedes40 st (x.openTs.toNat % 2 ^ 40)
      ∨ (x.closeTs ≠ none64 ∧ ¬ precedes40 st (x.closeTs.toNat % 2 ^ 40)) then code = 1
  else if x.closeTs ≠ none64 ∧ x.closeTs.toNat + x.drain.toNat ≤ now then code = 4
  else if snd < x.sndLo.toNat ∨ x.sndHi.toNat < snd then code = 3
  else if off % 4 ≠ 0 ∨ 128 < off % 128 + n ∨ 128 * (x.linesM1.toNat + 1) < off + n then code = 2
  else if psn = true ∧ x.psnOk = false then code = 5 else code = 0

/-- Nothing in the signal box or the queue goes on when the oldest instruction completes. -/
def noneWaits (s : State) : Prop := s.tq = [] ∧ s.sb.wait = none ∧ s.sb.waitReg = none ∧ s.ft.halting = none

end Sys2Proof.Claims

/-- T.WIN and its ticks. OPEN sets the window's region, sender range, drain and close tick and zeroes its counts; CLOSE closes an OPEN
window at its start; EXPECT sets the count; WAITCL waits until the window is CLOSED. WINDOW_CLOSE_TICK and DRAIN_END bring the ticks at
which a window is no longer OPEN, and is CLOSED; a WAITCL that waited for that completes. That OPEN keeps last_stamp and last_nack, and
takes TT_EPOCH as it stands at the start, is the model's (log 25). -/
def Obligations.WindowsOpenAndClose : Prop :=
  (∀ (s : State) (w : InsWord) (op : TOp), startsClean s w op →
    let q := readyEntry s w
    let i := w.imm32.toNat % 32
    let x := s.window i
    let b := begun s w
    let only := fun (y : Window) => ∃ t : State, exec w.toInstr s = .next t ∧ t = { b with wins := t.wins, tr := t.tr }
      ∧ t.window i = y ∧ ∀ j, j ≠ i → t.window j = s.window j
    (w.toInstr = .winOpen w → only { x with
      sndHi := w.aux64.extractLsb' 52 12, sndLo := w.aux64.extractLsb' 40 12
      drain := if w.imm32.toNat / 256 = 0 then s.xf.drain else w.imm32.extractLsb' 8 24
      trace := w.imm32.getLsbD 6, psnOk := w.imm32.getLsbD 5
      linesM1 := q.dst.dim1, base := q.dst.base.setWidth 29, openTs := s.tickW
      closeTs := if w.aux64.toNat % 2 ^ 40 = 0 then none64 else s.sb.epoch + (w.aux64.extractLsb' 0 40).setWidth 64
      expected := 0, received := 0, psnBytes := 0, rejBytes := 0, nackCount := 0 }) ∧
    (w.toInstr = .winClose w → winOpenAt x s.now → only { x with closeTs := s.tickW }) ∧
    (w.toInstr = .winClose w → ¬ winOpenAt x s.now → only x) ∧
    (w.toInstr = .winExpect w → only { x with expected := w.aux64 }) ∧
    (w.toInstr = .waitcl w → winClosedAt x s.now → exec w.toInstr s = .next b) ∧
    (w.toInstr = .waitcl w → ¬ winClosedAt x s.now → exec w.toInstr s =
      .next { b with fl := [⟨q, s.tickW, none, false, false, [], .waitcl i⟩] })) ∧
  (∀ (s : State) (win : BitVec 5), ticking s →
    let x := s.window win.toNat
    x.openTs ≠ none64 → x.closeTs ≠ none64 → x.closeTs.toNat + x.drain.toNat < 2 ^ 64 - 512 →
    (∃ t, exec (.windowCloseTick win) s = .next t ∧ t.window win.toNat = x ∧ x.closeTs.toNat ≤ t.now ∧ ¬ winOpenAt x t.now
      ∧ t.fl = s.fl ∧ t.sb = s.sb ∧ t.sp.mem = s.sp.mem ∧ t.job = s.job) ∧
    ((∀ f, s.fl.head? = some f → f.prog ≠ .waitcl win.toNat) → ∃ t, exec (.drainEnd win) s = .next t ∧ t.window win.toNat = x
      ∧ winClosedAt x t.now ∧ t.fl = s.fl ∧ t.sb = s.sb ∧ t.sp.mem = s.sp.mem ∧ t.job = s.job) ∧
    (∀ f, s.fl = [f] → f.prog = .waitcl win.toNat → s.quiet f.q.seq = true → noneWaits s → ∃ t, exec (.drainEnd win) s = .next t
      ∧ winClosedAt x t.now ∧ t.fl = [] ∧ t.live.completed = s.live.completed + 1 ∧ t.sb = s.sb ∧ t.sp.mem = s.sp.mem))

/-- RWRITE. A remote write is judged by R432 at its arrival and answered on its port. Code 0 stores its words, counts its bytes and keeps
its stamp; code 5 poisons the addressed line and counts the bytes as received; codes 1 to 4 change no line, and are counted in a window
that has been opened; the first code 1 past nack1_limit in an interval is logged as 0x3002. A window check that waits for the bytes ends
its wait (R78). A write to store in a line that a running scrub has not reached waits for it, and is answered then (R402). That a write
of code 0 or 5 is judged at its arrival and counted, stored and answered only when the scrub has passed is the model's (log 28). -/
def Obligations.RemoteWritesAreJudged : Prop :=
  ∀ (s : State) (p : Fin 35) (h : RwHdr) (words : List W32) (code : Nat), portClass p.val = .net ∨ portClass p.val = .peer →
    (s.port p.val).up = true → 1 ≤ (s.port p.val).rxOut → attends s → atRest s →
    words.length = h.lenM1.toNat + 1 → s.tq = [] →
    h.resHi = 0 → h.resLo = 0 → h.addr.toNat / 2 ^ 32 % 2 ^ 12 = s.job.chipId.toNat →
    let i := h.addr.toNat / 2 ^ 27 % 32
    let off := h.addr.toNat % 2 ^ 27
    let n := 4 * words.length
    let x := s.window i
    let at_ := x.base.toNat + off
    acceptCode x h.stamp.toNat h.sender.toNat off n s.now h.psn code →
    let waits := (code = 0 ∨ code = 5) ∧ s.scrubRange at_ (at_ + n) = true
    (waits → ∃ t, exec (.rwrite p h words) s = .next t ∧ t.xf.parked = s.xf.parked ++ [.write p.val h words code at_] ∧ t.sp = s.sp
      ∧ t.wins = s.wins ∧ t.out = s.out ∧ t.fl = s.fl ∧ t.sb = s.sb ∧ t.job = s.job ∧ (t.port p.val).rxOut = (s.port p.val).rxOut - 1) ∧
    (¬ waits → ∃ t, exec (.rwrite p h words) s = .next t ∧
      (∃ m ∈ newOut s t, m.port = p.val ∧ m.msg =
        .answer (BitVec.ofNat 64 (code * 2 ^ 61 + i * 2 ^ 56 + s.job.chipId.toNat * 2 ^ 44 + h.stamp.toNat))) ∧
      (∀ j, j ≠ i → t.window j = s.window j) ∧ t.sb = s.sb ∧ t.job = s.job ∧ (t.port p.val).rxOut = (s.port p.val).rxOut ∧
      ((∀ f ∈ s.fl, ∀ ws since grace, f.prog ≠ .presence ws since grace) → t.fl = s.fl) ∧
      (code = 0 → ∀ f need since grace, s.fl = [f] → f.prog = .presence [(i, need)] since grace →
        t.fl = if need ≤ (x.received + BitVec.ofNat 64 n).toNat then [{ f with prog := .idle }] else [f]) ∧
      (code = 0 → t.window i = { x with received := x.received + BitVec.ofNat 64 n, lastStamp := h.stamp } ∧
        (s.memOk = true → ∀ a, t.sp.mem.read a = if at_ ≤ a ∧ a < at_ + n then
            BitVec.ofNat 8 ((words.getD ((a - at_) / 4) 0).toNat / 2 ^ (8 * ((a - at_) % 4))) else s.sp.mem.read a) ∧
        ((∀ e ∈ s.sp.decay, lineOf e.1 ≠ lineOf at_) → x.base.toNat % 128 = 0 →
          t.psn (lineOf at_) = (h.psn || (decide (n < 128) && s.psn (lineOf at_))))) ∧
      (code = 5 → t.sp.mem = s.sp.mem ∧ t.psn (lineOf at_) = true ∧ t.window i = { x with
        received := x.received + BitVec.ofNat 64 n, psnBytes := satAdd x.psnBytes n, nackCount := satAdd x.nackCount 1, lastNack := 5 }) ∧
      (1 ≤ code → code ≤ 4 → t.sp = s.sp ∧ (x.openTs = none64 → t.window i = x) ∧ (x.openTs ≠ none64 → t.window i = { x with
        rejBytes := satAdd x.rejBytes n, nackCount := satAdd x.nackCount 1, lastNack := BitVec.ofNat 3 code })) ∧
      (code = 1 → s.xf.nack1Iv = s.now / 65536 → t.xf.nack1Cnt = s.xf.nack1Cnt + 1 ∧
        if s.xf.nack1Limit.toNat < s.xf.nack1Cnt + 1 ∧ s.xf.nack1Rec = false then logs s t 0x3002 1 (infoW (s.xf.nack1Cnt + 1) i)
        else t.ft = s.ft))

namespace Sys2Proof.Claims

/-- The request that an answer on port `p` belongs to: the first to the answering chip with its stamp, and its window for a write (R423, R463). -/
def answersReq (s : State) (p : Nat) (a : W64) (r : Req) : Prop :=
  let hit := fun (x : Req) => x.port = p ∧ match x.kind with
    | .write win chip st _ => st = a.extractLsb' 0 40 ∧ win = a.toNat / 2 ^ 56 % 32 ∧ chip = a.toNat / 2 ^ 44 % 2 ^ 12
    | .chunk chip st => st = a.extractLsb' 0 40 ∧ chip = a.toNat / 2 ^ 44 % 2 ^ 12
    | _ => False
  hit r ∧ ∃ pre post, s.reqs = pre ++ r :: post ∧ ∀ x ∈ pre, ¬ hit x

/-- The request is a remote write of a T.XFER. -/
def ofXfer (r : Req) : Prop := ∃ win chip st, r.kind = .write win chip st true

/-- The KILL in progress abandoned the instruction that made the request. -/
def abandonedBy (s : State) (r : Req) : Prop := ∃ l n, s.job.kill = some l ∧ r.owner = some n ∧ n ∈ l

end Sys2Proof.Claims

/-- ANSWER. An answer ends its request; a NACK is counted by its code and kept in XFER_NACK_LOG, and with nack_halt raises 0x3003 at
the T.XFER that sent the write, if it is still in flight. During a KILL answers are discarded, and the 0x3003 that a NACK would raise at
a T.XFER that the KILL abandoned is counted as suppressed (R517, R536). An answer to no request, or with a code above 5, is logged as 0x6007. -/
def Obligations.AnswersEndRequests : Prop :=
  ∀ (s : State) (p : Fin 35) (a : W64), portClass p.val = .net ∨ portClass p.val = .peer → (s.port p.val).up = true →
    attends s → onTime s →
    let code := a.toNat / 2 ^ 61
    ((5 < code ∨ ∀ r, ¬ answersReq s p.val a r) → ∃ t, exec (.answer p a) s = .next t ∧ t.reqs = s.reqs ∧ t.xf = s.xf
      ∧ logs s t 0x6007 1 (infoP p.val s.now) ∧ t.ft.valid = s.ft.valid ∧ t.sp = s.sp ∧ t.job = s.job) ∧
    (∀ r, answersReq s p.val a r → code ≤ 5 →
      (code = 0 ∨ s.job.kill.isSome = true → ∃ t, exec (.answer p a) s = .next t ∧ t.reqs = s.reqs.erase r ∧ t.xf = s.xf
        ∧ t.sp = s.sp ∧ t.job = s.job ∧ t.fl = s.fl
        ∧ (1 ≤ code → s.xf.nackHalt = true → ofXfer r → abandonedBy s r → t.ft = { s.ft with suppressed := satAdd s.ft.suppressed 1 })
        ∧ (code = 0 ∨ s.xf.nackHalt = false ∨ ¬ ofXfer r ∨ ¬ abandonedBy s r → t.ft = s.ft)) ∧
      (1 ≤ code → s.job.kill = none → s.xf.nacks.length = 5 → ∃ t, exec (.answer p a) s = .next t
        ∧ t.xf = { s.xf with nackLog := a, nacks := t.xf.nacks }
        ∧ (∀ k < 5, t.xf.nacks.getD k 0 = if k = code - 1 then satAdd (s.xf.nacks.getD k 0) 1 else s.xf.nacks.getD k 0)
        ∧ (s.xf.nackHalt = false ∨ s.fl.find? (fun f => some f.q.seq = r.owner && f.q.w.opc = 0x48) = none → t.reqs = s.reqs.erase r ∧ t.fl = s.fl ∧ t.ft = s.ft ∧ t.sp = s.sp)
        ∧ (s.xf.nackHalt = true → mayHalt s → ∀ f, s.fl.find? (fun f => some f.q.seq = r.owner && f.q.w.opc = 0x48) = some f →
            t.ft.code = 0x3003 ∧ t.ft.info = a ∧ t.ft.pc = f.q.pc ∧ t.ft.valid = true)))

/-! ### The yard -/

namespace Sys2Proof.Claims

/-- Frame `f` of slot `i` as the yard's registers name it, and the words of its root. -/
def frameAt (s : State) (i f : Nat) : Frame := (s.slot i).frame f
def rootWords (s : State) (i f : Nat) : List W32 := s.areaWords (s.leafAddr i f 0)
/-- The 32-bit words as bytes, little-endian. -/
def bytesOf (ws : List W32) : List Byte := ws.flatMap (fun w => [w.extractLsb' 0 8, w.extractLsb' 8 8, w.extractLsb' 16 8, w.extractLsb' 24 8])

/-- The complete chunk in the frame still has the CRC that it had when its root was formed. -/
def sound (s : State) (i f : Nat) : Prop := ∀ c, (frameAt s i f).crc = some c → crc32c (bytesOf (rootWords s i f)) = c

/-- The seal word of a slot (R480). -/
def sealOf (coll : BitVec 16) (tainted : Bool) : W64 := BitVec.ofNat 64 (coll.toNat + if tainted then 65536 else 0)

/-- An earlier chunk holds the frame of this one, whatever its number (R464). -/
def heldBack (s : State) (h : ChunkHdr) : Prop :=
  let sl := s.slot h.slot.toNat
  h.slot.toNat < s.yardSlots ∧ sl.claimed = true ∧ h.coll = sl.coll
    ∧ (sl.frame (h.chunk.toNat % s.yardFrames)).index < h.chunk.toNat

/-- The code that refuses a chunk that is not held back (R463): 1, 2 or 3 by the first group of tests that fails, 0 for none. -/
def refuses (s : State) (h : ChunkHdr) (code : Nat) : Prop :=
  let sl := s.slot h.slot.toNat
  let m := h.mlo.toNat
  let span := 2 ^ h.lvl.toNat
  let fr := sl.frame (h.chunk.toNat % s.yardFrames)
  let bad1 := s.yardSlots ≤ h.slot.toNat ∨ sl.claimed = false ∨ h.coll ≠ sl.coll
  let bad2 := h.wfmt ≠ sl.wfmt ∨ sl.nchM1.toNat < h.chunk.toNat ∨ 4 < h.lvl.toNat ∨ m % span ≠ 0 ∨ sl.n < m + span
  let bad3 := sl.table.getD m 0 ≠ h.sender ∨ h.chunk.toNat < fr.index ∨
    ∃ z ∈ fr.nodes, 0 < z.span ∧ z.mlo < m + span ∧ m < z.mlo + z.span
  (code = 1 ∧ bad1) ∨ (code = 2 ∧ ¬ bad1 ∧ bad2) ∨ (code = 3 ∧ ¬ bad1 ∧ ¬ bad2 ∧ bad3) ∨ (code = 0 ∧ ¬ bad1 ∧ ¬ bad2 ∧ ¬ bad3)

/-- The word of an answer to a chunk (Table 10.6). -/
def chunkAnswer (s : State) (h : ChunkHdr) (code : Nat) : OutMsg :=
  .answer (BitVec.ofNat 64 (code * 2 ^ 61 + s.job.chipId.toNat * 2 ^ 44 + h.stamp.toNat))

/-- Every held chunk is held back by an earlier one: nothing at the yard can go on. -/
def yardCalm (s : State) : Prop := ∀ x ∈ s.yd.held, heldBack s x.hdr

end Sys2Proof.Claims

/-- CLAIM takes a FREE slot with the collective, table, position, format, operation and chunk count that its word names, and waits for a
slot that is CLAIMED. RELEASE frees the slot and, where it posts, hands over the seal word with bit 16 set for a tainted collective; a
chunk whose CRC no longer holds taints it; the chunks held at a port for the slot are then judged, and refused with code 1. That the
seal word leaves in the same step where a port is UP is the model's (log 40). -/
def Obligations.YardSlotsClaimAndRelease : Prop :=
  ∀ (s : State) (w : InsWord) (op : TOp), startsClean s w op → yardCalm s → onTime s →
    let q := readyEntry s w
    let i := w.ys.toNat
    let sl := s.slot i
    let b := begun s w
    let others := fun (t : State) => (∀ j, j ≠ i → t.slot j = s.slot j) ∧ t.sb = b.sb ∧ t.job = s.job ∧ t.fl = b.fl
    (w.toInstr = .claim w → sl.claimed = false → ∃ t, exec w.toInstr s = .next t ∧ others t ∧ t.sp = s.sp ∧ t.slot i =
      { claimed := true, coll := w.imm32.extractLsb' 16 16, n := q.sa.n 0
        table := (List.range (q.sa.n 0)).map (fun k => BitVec.ofNat 12 (s.raw q.sa ⟨k, 0, 0, 0⟩))
        me := w.imm32.extractLsb' 12 4, wfmt := w.imm32.extractLsb' 8 4, op := w.imm32.extractLsb' 6 2
        nchM1 := w.aux64.extractLsb' 0 20, frames := (List.range s.yardFrames).map Frame.fresh, tainted := false, pend := none }) ∧
    (w.toInstr = .claim w → sl.claimed = true →
      exec w.toInstr s = .next { b with fl := [⟨q, s.tickW, none, false, false, [], .claim s.tickW s.yd.claimTicks.toNat⟩] }) ∧
    (w.toInstr = .release w → s.sp.suspects = [] → ∃ t, exec w.toInstr s = .next t ∧ others t ∧ t.slot i = Slot.free
      ∧ t.sp.mem = s.sp.mem ∧
      (∀ x ∈ s.yd.held, x.owner = none → x.hdr.slot = w.ys → (s.port x.port).up = true →
        ∃ m ∈ newOut s t, m.port = x.port ∧ m.msg = chunkAnswer s x.hdr 1) ∧
      ((∀ f < s.yardFrames, (frameAt s i f).corrupt = false → sound s i f) → t.sp = s.sp ∧ t.yd.taintAny = s.yd.taintAny ∧
        (w.imm32.getLsbD 8 = true → s.yd.trigs = [] → ∀ p, s.trigPort = some p →
          ∃ m ∈ newOut s t, m.port = p ∧ m.msg = .trigger (w.imm32.setWidth 8) (sealOf sl.coll sl.tainted))) ∧
      ((∃ f < s.yardFrames, (frameAt s i f).corrupt = false ∧ ¬ sound s i f) → t.yd.taintAny = true ∧ t.yd.taintColl = sl.coll ∧
        (w.imm32.getLsbD 8 = true → s.yd.trigs = [] → ∀ p, s.trigPort = some p →
          ∃ m ∈ newOut s t, m.port = p ∧ m.msg = .trigger (w.imm32.setWidth 8) (sealOf sl.coll true))))

namespace Sys2Proof.Claims

/-- The header's CRC covers the header and the payload (R461). -/
def crcHolds (h : ChunkHdr) (payload : List Byte) : Prop := h.crc = chunkHdrCrc h payload

end Sys2Proof.Claims

/-- CHUNK and CHUNK_HOLD_RELEASE. A chunk whose frame an earlier one holds is held at its port; any other is judged and answered: refused
with code 1, 2 or 3; poisoned, logged and answered with code 5 where its CRC fails; else accepted, its words in its leaf area, and where
it is a half of a subtree whose other half is there, the two combine word by word. A held chunk is judged once its frame serves it, and
late is answered with code 2, with 0x4003 pending at its slot. One to store where a running scrub has not come waits for it (R402). That
a held chunk whose frame is not free stays is the model's (log 10). -/
def Obligations.ChunksAreJudgedAndCombined : Prop :=
  ∀ (s : State) (p : Fin 35) (h : ChunkHdr) (payload : List Byte), portClass p.val = .net ∨ portClass p.val = .peer → s.fl = [] →
    let i := h.slot.toNat
    let sl := s.slot i
    let f := h.chunk.toNat % s.yardFrames
    let area := fun (m : Nat) => s.leafAddr i f m
    let tells := fun (t : State) (code : Nat) => ∃ m ∈ newOut s t, m.port = p.val ∧ m.msg = chunkAnswer s h code
    let x : YNode := ⟨h.mlo.toNat, 2 ^ h.lvl.toNat, h.psn⟩
    ((s.port p.val).up = true → s.yd.held = [] → cdiv (32 + payload.length) 128 ≤ (s.port p.val).rxOut →
      payload.length = (if h.wfmt = 1 then 2048 else 4096) → attends s → atRest s →
      (¬ heldBack s h → s.scrubChunk h = true → ∃ t, exec (.chunk p h payload) s = .next t ∧ t.sp = s.sp ∧ t.out = s.out
        ∧ t.yd = s.yd ∧ t.xf.parked = s.xf.parked ++ [.chunk none p.val h payload s.tickW]) ∧
      (heldBack s h → ∃ t, exec (.chunk p h payload) s = .next t ∧ t.out = s.out ∧ t.yd.slots = s.yd.slots ∧ t.sp = s.sp
        ∧ t.yd.held = [⟨none, p.val, h, payload, s.tickW, s.yd.claimTicks.toNat⟩]) ∧
      (∀ code, ¬ heldBack s h → refuses s h code → 1 ≤ code → ∃ t, exec (.chunk p h payload) s = .next t ∧ tells t code
        ∧ t.yd = { s.yd with refused := satAdd s.yd.refused 1 } ∧ t.sp = s.sp ∧ t.ft = s.ft) ∧
      (¬ heldBack s h → refuses s h 0 → s.scrubChunk h = false → ¬ crcHolds h payload → ∃ t, exec (.chunk p h payload) s = .next t ∧ tells t 5
        ∧ t.yd.crcBad = satAdd s.yd.crcBad 1 ∧ logs s t 0x4005 1 (infoY h.coll.toNat h.chunk.toNat h.sender.toNat i) ∧ ∀ l ∈ areaLines (area h.mlo.toNat), t.psn l = true) ∧
      (¬ heldBack s h → refuses s h 0 → s.scrubChunk h = false → crcHolds h payload → s.memOk = true → f < sl.frames.length → ∃ t,
        exec (.chunk p h payload) s = .next t ∧ tells t 0 ∧ t.yd.accepted = satAdd s.yd.accepted 1 ∧ t.yd.held = []
        ∧ (∀ j, j ≠ i → t.slot j = s.slot j) ∧ t.job = s.job ∧ t.sb = s.sb ∧
        (findJoin sl.n ((sl.frame f).nodes ++ [x]) = none →
          (∀ k, t.sp.mem.read k = if area h.mlo.toNat ≤ k ∧ k < area h.mlo.toNat + 4096 then
              (bytesOf (chunkWords h.wfmt.toNat payload)).getD (k - area h.mlo.toNat) 0 else s.sp.mem.read k) ∧
          (¬ (x.mlo = 0 ∧ x.span = sl.n) → (∀ y ∈ (sl.frame f).nodes, ¬ (y.mlo = 0 ∧ y.span = sl.n)) →
            (frameAt t i f).nodes = (sl.frame f).nodes ++ [x] ∧ (frameAt t i f).crc = (sl.frame f).crc) ∧
          (x.mlo = 0 ∧ x.span = sl.n → (sl.frame f).crc = none →
            (frameAt t i f).crc = some (crc32c (bytesOf (chunkWords h.wfmt.toNat payload))))) ∧
        (∀ y a b, (sl.frame f).nodes = [y] → findJoin sl.n [y, x] = some (a, b) →
          let ws := fun (z : YNode) => if z = x then chunkWords h.wfmt.toNat payload else s.areaWords (area z.mlo)
          t.areaWords (area a.mlo) = ((ws a).zip (ws b)).map (fun v => (combWord sl.wfmt.toNat sl.op.toNat v.1 v.2).1)))) ∧
    (∀ since limit, s.yd.held = [⟨none, p.val, h, payload, since, limit⟩] →
      (heldBack s h → exec (.chunkHoldRelease p) s = .next s) ∧
      (∀ code, ¬ heldBack s h → s.now < since.toNat + limit → refuses s h code → crcHolds h payload →
        s.scrubChunk h = false → (s.port p.val).up = true →
        ∃ t, exec (.chunkHoldRelease p) s = .next t ∧ t.yd.held = [] ∧ tells t code) ∧
      (¬ heldBack s h → since.toNat + limit ≤ s.now → (s.port p.val).up = true →
        ∃ t, exec (.chunkHoldRelease p) s = .next t ∧ t.yd.held = [] ∧ tells t 2 ∧ t.yd.refused = satAdd s.yd.refused 1
          ∧ let info := infoY h.coll.toNat h.chunk.toNat h.sender.toNat i
            logs s t 0x4003 1 info ∧ (t.slot i).pend = some info))

namespace Sys2Proof.Claims

/-- A CHUNK message that fits is sent or queued on port `p` for instruction `seq`. -/
def chunkCarried (s t : State) (p seq : Nat) (fits : ChunkHdr → List Byte → Prop) : Prop :=
  (∃ m ∈ newOut s t, m.port = p ∧ ∃ h pl, m.msg = .chunk h pl ∧ fits h pl)
    ∨ ∃ x ∈ queued t p seq, ∃ h pl, x.msg = .chunk h pl ∧ fits h pl

/-- The port of the j-th chunk to a remote target: the peer port, or the set bits of AUX64's pmask in turn (R453, R462). -/
def targetPort (s : State) (w : InsWord) (j : Nat) : Nat :=
  let ps := (List.range 8).filter (fun k => w.aux64.getLsbD (40 + k))
  if w.imm32.toNat % 2 ^ 12 = s.job.chipId.toNat ^^^ 1 then 30 else 22 + ps.getD (j % ps.length) 0

/-- Chunk `k` of slot `i` is complete, whole and unpoisoned (R471, R478). -/
def wholeChunk (s : State) (i k : Nat) : Prop :=
  let f := k % s.yardFrames
  let fr := frameAt s i f
  fr.index = k ∧ fr.crc.isSome = true ∧ sound s i f ∧ fr.corrupt = false ∧ (∀ n ∈ fr.nodes, n.psn = false) ∧ fr.doneAt.toNat ≤ s.now

end Sys2Proof.Claims

/-- CONTRIB sends each chunk of 1,024 elements, zero-extended, to its target or gives it to the own yard; COLLECT waits for each chunk and
writes its root's words, rounded into DFMT, to the elements in order, or sends them as remote writes to a remote destination; FWD sends
each root to another slot, of another chip or of its own. Retired frames go on. A COLLECT that would write a line that the scrub has not
reached reads its chunk once it has (R402, the model's choice, log 95). With COMMIT, an error that reaches a root between its check and
the data pass stops it with 0x5001 and bit 63 (R525, logs 49 and 50). The yard readings are the model's (log 39). -/
def Obligations.YardChunksMove : Prop :=
  ∀ (s : State) (w : InsWord) (op : TOp), startsClean s w op → yardCalm s →
    (∀ x ∈ s.yd.held, x.hdr.slot ≠ w.ys) →
    let q := readyEntry s w
    let d := q.dst
    let i := w.ys.toNat
    let c0 := w.aux64.toNat % 2 ^ 20
    let b := begun s w
    let own := w.imm32.toNat % 2 ^ 12 = s.job.chipId.toNat
    let calm := s.sp.suspects = [] ∧ s.sp.psnLines = [] ∧ 1 ≤ s.yd.waitTicks.toNat
    let clean := calm ∧ (w.commit = true → s.sp.spoil = [])
    let chunks := if w.toInstr = .collect w then cdiv d.count 1024 else w.aux64.toNat / 2 ^ 20 % 2 ^ 20 + 1
    let roots := fun (j : Nat) => areaLines (s.leafAddr i ((c0 + j) % s.yardFrames) 0)
    let late := fun (l : Nat) => ∃ a ∈ s.sp.spoil, lineOf a = l
    let wait := fun (n : Nat) => exec w.toInstr s =
      .next { b with fl := [⟨q, s.tickW, none, false, false, [], .coll ⟨0, n, s.tickW, s.yd.waitTicks.toNat, [], [], 0⟩⟩] }
    let absent := (frameAt s i (c0 % s.yardFrames)).index ≠ c0 ∨ (frameAt s i (c0 % s.yardFrames)).crc = none
    (w.toInstr = .contrib w → ¬ own → ∃ t, exec w.toInstr s = .next t ∧ t.sp = s.sp ∧ t.yd.slots = s.yd.slots ∧ t.sb = b.sb ∧ t.job = s.job ∧
      ∀ j < cdiv q.sa.count 1024, chunkCarried s t (targetPort s w j) q.seq (fun h pl =>
        h.chunk = BitVec.ofNat 20 (c0 + j) ∧ h.slot = w.ys ∧ h.mlo = w.imm32.extractLsb' 12 4 ∧ h.lvl = 0 ∧ h.psn = false ∧ h.wfmt = w.sfmt
        ∧ h.coll = w.imm32.extractLsb' 16 16 ∧ h.sender = s.job.chipId ∧ pl.length = 128 * q.sa.w
        ∧ ∀ k < 1024, leNat ((pl.drop (q.sa.w / 8 * k)).take (q.sa.w / 8)) = ((q.sa.ixs[1024 * j + k]?).map (s.raw q.sa)).getD 0)) ∧
    (w.toInstr = .contrib w → own → q.sa.count ≤ 1024 →
      let h : ChunkHdr := ⟨BitVec.ofNat 20 c0, w.ys, w.imm32.extractLsb' 12 4, 0, false, w.sfmt, w.imm32.extractLsb' 16 16, s.job.chipId,
        s.stamp40, 0, 0⟩
      ¬ heldBack s h → refuses s h 0 → s.scrubChunk h = false → ∃ t, exec w.toInstr s = .next t ∧ t.yd.accepted = satAdd s.yd.accepted 1 ∧ t.out = s.out
        ∧ t.yd.held = s.yd.held ∧ t.sb = b.sb) ∧
    (w.toInstr = .collect w ∨ w.toInstr = .fwd w → w.commit = true → calm → (w.toInstr = .collect w → d.inSpad = true → reached s d) → (∀ j < chunks, wholeChunk s i (c0 + j)) →
      ∀ j < chunks, ∀ l ∈ roots j, late l → (∀ k ≤ j, ∀ m ∈ roots k, k < j ∨ m < l → ¬ late m) → ∃ t, exec w.toInstr s = .next t
        ∧ t.ft.code = 0x5001 ∧ t.ft.info = infoA true 9 i l ∧ t.ft.pc = s.sb.pc ∧ t.job.state = 6 ∧ empty t) ∧
    (w.toInstr = .collect w → absent → wait (cdiv d.count 1024)) ∧
    (w.toInstr = .fwd w → absent → wait (w.aux64.toNat / 2 ^ 20 % 2 ^ 20 + 1)) ∧
    (w.toInstr = .collect w → d.inSpad = true → calm → (w.commit = false ∨ d.count ≤ 1024) → wholeChunk s i c0 →
      (∃ x ∈ d.ixs.take 1024, ∃ l, holds d x l ∧ unscrubbed s l) → wait (cdiv d.count 1024)) ∧
    (w.toInstr = .collect w → d.inSpad = true → reached s d → clean → s.memOk = true → apart d →
      (∀ j < cdiv d.count 1024, wholeChunk s i (c0 + j)) → ∃ t, exec w.toInstr s = .next t ∧ (t.fl.map (·.prog)) = [.idle]
      ∧ (∀ a, outside [q.oDst] a → t.sp.mem.read a = s.sp.mem.read a) ∧ t.sb = b.sb ∧ t.job = s.job
      ∧ (∀ e ∈ d.ixs.zipIdx, let v := (rootWords s i ((c0 + e.2 / 1024) % s.yardFrames)).getD (e.2 % 1024) 0
          t.raw d e.1 = (if w.dfmt.toNat = 11 then v.toNat else (b.placeAt q d e.1 (ofF32 v)).1) % 2 ^ d.w)
      ∧ ∀ j < cdiv d.count 1024, (frameAt t i ((c0 + j) % s.yardFrames)).index =
          if w.imm32.getLsbD 9 then c0 + j + s.yardFrames else c0 + j) ∧
    (w.toInstr = .collect w → d.region = some .remote → d.valid = true → d.hi ≤ 2 ^ 48 → clean → apart d →
      (∀ j < cdiv d.count 1024, wholeChunk s i (c0 + j)) → ∃ t, exec w.toInstr s = .next t ∧ (t.fl.map (·.prog)) = [.idle]
      ∧ t.sp = s.sp ∧ t.sb = b.sb ∧ t.job = s.job
      ∧ ∀ e ∈ d.ixs.zipIdx, let v := (rootWords s i ((c0 + e.2 / 1024) % s.yardFrames)).getD (e.2 % 1024) 0
          let bits := (if w.dfmt.toNat = 11 then v.toNat else (b.placeAt q d e.1 (ofF32 v)).1) % 2 ^ d.w
          ∀ k < d.w / 8, let byte := BitVec.ofNat 8 (bits / 2 ^ (8 * k))
            if s.peerDst d then netCarries s t 30 q.seq (d.bitAddr e.1 / 8 + k) byte
            else ∃ p ∈ xferMask w, netCarries s t (22 + p) q.seq (d.bitAddr e.1 / 8 + k) byte) ∧
    (w.toInstr = .fwd w → own → clean → w.aux64.toNat / 2 ^ 20 % 2 ^ 20 = 0 → wholeChunk s i c0 → w.aux64.extractLsb' 56 8 ≠ w.ys →
      let h : ChunkHdr := ⟨BitVec.ofNat 20 c0, w.aux64.extractLsb' 56 8, w.imm32.extractLsb' 12 4, w.aux64.extractLsb' 53 3, false,
        if (s.slot i).wfmt = 11 then 11 else 0, w.imm32.extractLsb' 16 16, s.job.chipId, s.stamp40, 0, 0⟩
      let to_ := s.leafAddr h.slot.toNat (c0 % s.yardFrames) h.mlo.toNat
      ¬ heldBack s h → refuses s h 0 → s.scrubChunk h = false → s.memOk = true →
      (frameAt s h.slot.toNat (c0 % s.yardFrames)).nodes = [] → c0 % s.yardFrames < (s.slot h.slot.toNat).frames.length →
      ∃ t, exec w.toInstr s = .next t ∧ (t.fl.map (·.prog)) = [.idle] ∧ t.yd.accepted = satAdd s.yd.accepted 1 ∧ t.out = s.out
        ∧ t.yd.held = s.yd.held ∧ t.sb = b.sb ∧ t.job = s.job
        ∧ (∀ a, a < to_ ∨ to_ + 4096 ≤ a → t.sp.mem.read a = s.sp.mem.read a)
        ∧ t.areaWords to_ = rootWords s i (c0 % s.yardFrames)
        ∧ (frameAt t h.slot.toNat (c0 % s.yardFrames)).nodes = [⟨h.mlo.toNat, 2 ^ h.lvl.toNat, false⟩]) ∧
    (w.toInstr = .fwd w → ¬ own → clean → (∀ j < w.aux64.toNat / 2 ^ 20 % 2 ^ 20 + 1, wholeChunk s i (c0 + j)) →
      ∃ t, exec w.toInstr s = .next t ∧ (t.fl.map (·.prog)) = [.idle] ∧ t.sp = s.sp ∧ t.sb = b.sb ∧
      ∀ j < w.aux64.toNat / 2 ^ 20 % 2 ^ 20 + 1, chunkCarried s t (targetPort s w j) q.seq (fun h pl =>
        h.chunk = BitVec.ofNat 20 (c0 + j) ∧ h.slot = w.aux64.extractLsb' 56 8 ∧ h.mlo = w.imm32.extractLsb' 12 4
        ∧ h.lvl = w.aux64.extractLsb' 53 3 ∧ h.psn = false ∧ h.wfmt = (if (s.slot i).wfmt = 11 then 11 else 0)
        ∧ h.coll = w.imm32.extractLsb' 16 16 ∧ h.sender = s.job.chipId ∧ pl = bytesOf (rootWords s i ((c0 + j) % s.yardFrames))))

/-! ### Triggers, barriers, completion, power groups -/

namespace Sys2Proof.Claims

/-- The counter has reached the threshold under the half-range rule (R485). -/
def reaches (count threshold : W32) : Prop := (count.toNat + 2 ^ 32 - threshold.toNat) % 2 ^ 32 < 2 ^ 31

/-- Info format P of Table 14.3: a port and the low 40 bits of a tick. -/
def infoPort (port tick : Nat) : W64 := BitVec.ofNat 64 (port * 2 ^ 56 + tick % 2 ^ 40)

/-- The entry of the record in the amax history of its tensor id: the newest 16 values, in order (R136). -/
def amaxAppended (s : State) (id : Nat) (v : W32) : List W32 :=
  let h := AL.getD s.ar.hist id [] ++ [v]
  h.drop (h.length - 16)

end Sys2Proof.Claims

/-- POST hands its trigger over: it leaves on the lowest network port that is UP, or waits behind others. WAIT completes at once where its
counter has reached the threshold, and else waits. TRIGGER_HANDOVER sends the first waiting trigger, or raises 0x6003 past its limit.
EVENT adds to its counter, taints, and ends the WAITs whose threshold it reaches; one with a reserved bit set is logged as 0x6007. That
a hand-over with no port UP changes nothing is the model's (log 10), as are that a trigger is sent at once where a port is UP (log 40)
and the port that its 0x6003 names (log 26). -/
def Obligations.TriggersAndEvents : Prop :=
  (∀ (s : State) (w : InsWord) (op : TOp), startsClean s w op →
    let q := readyEntry s w
    let b := begun s w
    let c := AL.getD s.yd.evts (w.imm32.toNat % 16) ⟨0, false, false, 0⟩
    (w.toInstr = .post w → s.yd.trigs = [] → ∀ p, s.trigPort = some p → ∃ t : State, exec w.toInstr s = .next t
      ∧ t = { b with out := s.out ++ [⟨p, s.tickW, .trigger (w.imm32.setWidth 8) w.aux64⟩], tr := t.tr
                     yd := { s.yd with posts := satAdd s.yd.posts 1 } }) ∧
    (w.toInstr = .post w → s.yd.trigs ≠ [] → ∃ t : State, exec w.toInstr s = .next t
      ∧ t = { b with tr := t.tr, yd := { s.yd with trigs := s.yd.trigs ++
          [⟨some q.seq, w.imm32.setWidth 8, w.aux64, s.tickW, s.xf.netTicks.toNat⟩] } }) ∧
    (w.toInstr = .trigWait w → reaches c.count (w.aux64.setWidth 32) → exec w.toInstr s = .next b) ∧
    (w.toInstr = .trigWait w → ¬ reaches c.count (w.aux64.setWidth 32) → exec w.toInstr s = .next { b with fl :=
      [⟨q, s.tickW, none, false, false, [], .trigWait (w.imm32.toNat % 16) (w.aux64.setWidth 32) s.tickW s.xf.netTicks.toNat⟩] })) ∧
  (∀ (s : State) (x : TrigItem) (rest : List TrigItem), s.yd.trigs = x :: rest →
    (s.now < x.since.toNat + x.limit → ∀ p, s.trigPort = some p → exec .triggerHandover s =
      .next { s with out := s.out ++ [⟨p, s.tickW, .trigger x.id x.val⟩], yd := { s.yd with trigs := rest, posts := satAdd s.yd.posts 1 } }) ∧
    (s.now < x.since.toNat + x.limit → s.trigPort = none → exec .triggerHandover s = .next s) ∧
    (x.since.toNat + x.limit ≤ s.now → mayHalt s → (s.port 33).txq = [] → ∀ f, s.fl.find? (fun f => some f.q.seq = x.owner) = some f →
      ∃ t, exec .triggerHandover s = .next t ∧ x ∉ t.yd.trigs ∧ (∀ m ∈ t.out, m ∈ s.out ∨ m.port = 33) ∧ t.ft.code = 0x6003 ∧ t.ft.pc = f.q.pc
        ∧ t.ft.info = infoPort (s.trigPort.getD 22) x.since.toNat)) ∧
  (∀ (s : State) (p : Fin 35) (e : EventBody), s.trigPort = some p.val → e.res ≠ 0 → attends s → onTime s →
    ∃ t, exec (.event p e) s = .next t ∧ logs s t 0x6007 1 (infoP p.val s.now) ∧ t.yd = s.yd ∧ t.fl = s.fl ∧ t.sp = s.sp) ∧
  (∀ (s : State) (p : Fin 35) (e : EventBody), s.trigPort = some p.val → e.res = 0 → s.waitDue = none → attends s → onTime s →
    let k := e.counter.toNat
    let n := (AL.getD s.yd.evts k ⟨0, false, false, 0⟩).count + e.inc
    ∃ t, exec (.event p e) s = .next t ∧ t.yd.events = satAdd s.yd.events 1
      ∧ AL.getD t.yd.evts k ⟨0, false, false, 0⟩ = ⟨e.coll, e.refused, e.taint, n⟩
      ∧ (∀ j, j ≠ k → AL.getD t.yd.evts j ⟨0, false, false, 0⟩ = AL.getD s.yd.evts j ⟨0, false, false, 0⟩)
      ∧ t.yd.taintAny = (s.yd.taintAny || e.taint) ∧ t.yd.taintColl = (if e.taint then e.coll else s.yd.taintColl)
      ∧ t.yd.taintCount = (if e.taint then satAdd s.yd.taintCount 1 else s.yd.taintCount)
      ∧ t.fl.length = s.fl.length ∧ t.sp = s.sp ∧ t.sb = s.sb ∧ t.job = s.job
      ∧ ∀ (i : Nat) (f : Inflight) (c : Nat) (th : W32) (a : W64) (l : Nat), s.fl[i]? = some f → f.prog = .trigWait c th a l →
          (reaches (AL.getD t.yd.evts c ⟨0, false, false, 0⟩).count th → t.fl[i]? = some { f with prog := .idle }) ∧
          (¬ reaches (AL.getD t.yd.evts c ⟨0, false, false, 0⟩).count th → t.fl[i]? = some f))

namespace Sys2Proof.Claims

/-- The instruction's own operands keep apart, and it is independent of those in flight behind it (R69, R99). -/
def endsApart (f : Inflight) (rest : List Inflight) : Prop :=
  f.q.misread f.reads f.writes = false ∧ ∀ g ∈ rest, f.clashes g = false

end Sys2Proof.Claims

/-- T.MARK and a window check that is met only start; a short window check is in flight while it waits for its bytes, and raises 0x3004 with
no grace or once its grace ends. A tick barrier waits for TT_EPOCH + AUX64, or completes at once, late where that tick has passed.
TENSOR_INSTRUCTION_COMPLETE takes the oldest instruction out, counts it, appends its amax or skips it after a poisoned read, and writes
a T.OFFL's record, where its OVL asserted the truth; a T.MARK then writes its MARK record, the PC and IMM32, where the trace selects it;
then a waiting TFENCE goes on. WAITT_TICK_REACHED completes the oldest barrier at its tick. That a completion which nothing awaits
changes nothing is the model's (log 10), as is a barrier being late only past its tick (log 27). -/
def Obligations.BarriersAndCompletion : Prop :=
  (∀ (s : State) (w : InsWord) (op : TOp), startsClean s w op →
    let q := readyEntry s w
    let b := begun s w
    let tick := s.sb.epoch + (w.aux64.extractLsb' 0 40).setWidth 64
    let late := s.now - tick.toNat
    let limit := s.job.lateLimit.toNat
    (w.toInstr = .tMark w → exec w.toInstr s = .next b) ∧
    (w.toInstr = .windowCheck w →
      let i := w.imm32.toNat % 32
      let need := w.aux64.toNat
      let have_ := (s.window i).received.toNat
      (need ≤ have_ → exec w.toInstr s = .next b) ∧
      (have_ < need → s.job.grace ≠ 0 → exec w.toInstr s = .next { b with fl :=
        [⟨{ q with short := [i] }, s.tickW, none, false, false, [], .presence [(i, need)] s.tickW s.job.grace.toNat⟩] }) ∧
      (have_ < need → s.job.grace = 0 → ∃ t : State, exec w.toInstr s = .next t ∧ t.ft.code = 0x3004
        ∧ t.ft.info = infoWin (min (need - have_) (2 ^ 32 - 1)) i ∧ t.ft.pc = s.sb.pc ∧ t.job.state = 6)) ∧
    (w.toInstr = .tickBarrier w → s.now < tick.toNat → exec w.toInstr s = .next { b with fl := [⟨q, s.tickW, none, false, false, [], .untilTick tick⟩] }) ∧
    (w.toInstr = .tickBarrier w → s.now = tick.toNat → exec w.toInstr s = .next b) ∧
    (w.toInstr = .tickBarrier w → tick.toNat < s.now → (limit = 0 ∨ late ≤ limit) → ∃ t : State, exec w.toInstr s = .next t
      ∧ t = { b with tr := t.tr, job := { s.job with lateCount := satAdd s.job.lateCount 1
                                                     lateMax := BitVec.ofNat 32 (max s.job.lateMax.toNat (min late (2 ^ 32 - 1))) } }) ∧
    (w.toInstr = .tickBarrier w → tick.toNat < s.now → limit ≠ 0 → limit < late → ∃ t : State, exec w.toInstr s = .next t
      ∧ t.ft.code = 0x9001 ∧ t.ft.info = BitVec.ofNat 64 late ∧ t.job.state = 6)) ∧
  (∀ (s : State) (f : Inflight) (i need : Nat) (since : W64) (grace : Nat), s.fl = [f] → f.prog = .presence [(i, need)] since grace →
    s.tq = [] → mayHalt s → ticking s → since.toNat + grace < 2 ^ 64 - 256 → (s.window i).received.toNat < need →
    ∃ t, exec .presenceGraceExpiry s = .next t ∧ t.ft.code = 0x3004 ∧ t.ft.pc = f.q.pc
      ∧ t.ft.info = infoWin (min (need - (s.window i).received.toNat) (2 ^ 32 - 1)) (i % 32)) ∧
  (∀ (s : State) (f : Inflight) (rest : List Inflight), s.fl = f :: rest →
    (s.instDone f = false → exec .tensorInstructionComplete s = .next s) ∧
    (s.instDone f = true → noneWaits s → endsApart f rest → ∃ t, exec .tensorInstructionComplete s = .next t ∧ t.fl = rest
      ∧ t.live.completed = s.live.completed + 1 ∧ t.sb = s.sb ∧ t.job = s.job ∧ t.xp = s.xp ∧ t.wins = s.wins
      ∧ ((∀ c p, f.prog ≠ .offl c p) → t.sp = s.sp)
      ∧ (f.readPoison = false → ∀ id v, f.amax = [(id, v)] → id < 1024 → AL.getD t.ar.hist id [] = amaxAppended s id v)
      ∧ (f.readPoison = true → t.ar.hist = s.ar.hist)
      ∧ (f.q.w.opc = 0x60 → f.q.w.fn = 0 → s.tr.selects 3 s.tickW = true →
          ⟨s.tickW, 3, BitVec.ofNat 60 (f.q.pc.toNat * 2 ^ 41 + f.q.w.imm32.toNat), 0, false⟩ ∈ t.tr.pend)
      ∧ (∀ c p, f.prog = .offl c p → s.memOk = true → apart f.q.sb → recOk f.q.sb = true → t.raw f.q.sb ⟨0, 0, 0, 0⟩ = 0
        ∧ t.raw f.q.sb ⟨1, 0, 0, 0⟩ = 0 ∧ t.raw f.q.sb ⟨2, 0, 0, 0⟩ = c.toNat ∧ t.raw f.q.sb ⟨3, 0, 0, 0⟩ = if p then 1 else 0)) ∧
    (s.instDone f = true → noneWaits s → ¬ endsApart f rest → ∃ t, exec .tensorInstructionComplete s = .next t
      ∧ t.fl.length = rest.length ∧ t.live.completed = s.live.completed + 1 ∧ t.sb = s.sb ∧ t.job = s.job) ∧
    (s.instDone f = true → rest = [] → s.tq = [] → s.ft.halting = none → s.job.kill = none → s.sb.wait = some (word 0 1) → room s →
      ∃ t, exec .tensorInstructionComplete s = .next t ∧ t.fl = [] ∧ t.sb = { s.sb with wait := none, pc := s.sb.pc + 32 }) ∧
    (∀ tick, f.prog = .untilTick tick → s.quiet f.q.seq = true → noneWaits s → endsApart f rest → ticking s → tick.toNat < 2 ^ 64 - 512 →
      ∃ t, exec .waittTickReached s = .next t ∧ tick.toNat ≤ t.now ∧ t.fl = rest ∧ t.live.completed = s.live.completed + 1 ∧ t.sb = s.sb))

namespace Sys2Proof.Claims

/-- The block is READY and no profile switch runs. -/
def settled (s : State) : Prop := s.boot.phase = .ready ∧ s.cfg.switching = none

/-- The groups that a T.SPAD names: IMM32[7:0] and the IMM32[15:8] above it. -/
def inGroups (w : InsWord) (g : Nat) : Prop := w.imm32.toNat % 256 ≤ g ∧ g ≤ w.imm32.toNat % 256 + w.imm32.toNat / 256 % 256

end Sys2Proof.Claims

/-- T.SPAD and its groups' events. POWER_DOWN turns ON groups down; POWER_UP lets OFF groups wait for their ramp, of which at most 8 run and
which the power cap may put off to a later interval (R611); ZERO clears every line of its groups. At the safe point a group is OFF, or
goes up again where an up is held; after its ramp it is zeroed and another may ramp; after its zeroing it is ON and reads zero, or goes
down where a down is held. That a group event out of its phase changes nothing is the model's (log 10), as is ZERO at the safe point
(log 29). -/
def Obligations.PowerGroupsMove : Prop :=
  (∀ (s : State) (w : InsWord) (op : TOp), startsClean s w op → groupsOnce s →
    let b := begun s w
    (w.toInstr = .powerDown w → ∃ t : State, exec w.toInstr s = .next t ∧ t = { b with fl := t.fl, sp := { s.sp with groups := t.sp.groups } }
      ∧ (∀ g, inGroups w g → ((s.group g).phase = .on → (t.group g).phase = .down) ∧ ((s.group g).phase = .off → (t.group g).phase = .off))
      ∧ ∀ g, ¬ inGroups w g → t.group g = s.group g) ∧
    (w.toInstr = .powerUp w → ∃ t : State, exec w.toInstr s = .next t
      ∧ t = { b with fl := t.fl, sp := { s.sp with groups := t.sp.groups }, pw := { s.pw with rampWait := t.pw.rampWait } }
      ∧ (∀ g, inGroups w g → ((s.group g).phase = .off → (t.group g).phase = .waitRamp ∨ (t.group g).phase = .ramp)
          ∧ ((s.group g).phase = .on → (t.group g).phase = .on))
      ∧ (s.ramping ≤ 8 → t.ramping ≤ 8)) ∧
    (w.toInstr = .zero w → ∃ t : State, exec w.toInstr s = .next t ∧ t = { b with sp := t.sp } ∧ t.sp.groups = s.sp.groups
      ∧ (∀ a, (inGroups w (a / 2 ^ 21) → t.sp.mem.read a = 0) ∧ (¬ inGroups w (a / 2 ^ 21) → t.sp.mem.read a = s.sp.mem.read a))
      ∧ ∀ l, inGroups w (l / 2 ^ 21) → t.psn l = false)) ∧
  (∀ (s : State) (g : BitVec 8), settled s → groupsOnce s →
    let x := s.group g.toNat
    let others := fun (t : State) => ∀ k, k ≠ g.toNat → t.group k = s.group k
    (x.phase = .down → x.held = false → ∃ t, exec (.groupSafePoint g) s = .next t ∧ t.group g.toNat = ⟨.off, false⟩ ∧ others t) ∧
    (x.phase = .down → x.held = true → ∃ t, exec (.groupSafePoint g) s = .next t
      ∧ ((t.group g.toNat).phase = .waitRamp ∨ (t.group g.toNat).phase = .ramp)) ∧
    (x.phase ≠ .down → exec (.groupSafePoint g) s = .next s) ∧
    (x.phase = .ramp → ∃ t, exec (.groupRampDone g) s = .next t ∧ t.group g.toNat = ⟨.zeroing, x.held⟩ ∧ t.sp.mem = s.sp.mem
      ∧ ∀ k y, s.sp.groups.filter (fun p => p.1 ≠ g.toNat) = [(k, y)] → y.phase = .waitRamp → k ∉ s.pw.rampWait →
          (s.pw.estW.toNat + 2 ≤ s.pw.capEff.toNat → (t.group k).phase = .ramp) ∧
          (s.pw.capEff.toNat < s.pw.estW.toNat + 2 → t.group k = y ∧ k ∈ t.pw.rampWait)) ∧
    (x.phase ≠ .ramp → exec (.groupRampDone g) s = .next s) ∧
    (x.phase = .zeroing → ∃ t, exec (.groupZeroingDone g) s = .next t ∧ others t
      ∧ t.group g.toNat = (if x.held then ⟨.down, false⟩ else ⟨.on, false⟩)
      ∧ ∀ a, t.sp.mem.read a = if a / 2 ^ 21 = g.toNat then 0 else s.sp.mem.read a) ∧
    (x.phase ≠ .zeroing → exec (.groupZeroingDone g) s = .next s))

/-! ### The command port: loading, launching, killing, profiles -/

namespace Sys2Proof.Claims

/-- READY, with no command under way or waiting; the command port is UP, the KPC has a credit for its message, the Skokin has two for
what it sends, and nothing waits there. -/
def listens (s : State) : Prop :=
  settled s ∧ s.job.kill = none ∧ s.cmd.heldLoad = none ∧ s.cmd.queue = []
    ∧ (s.port 33).state = 2 ∧ 1 ≤ (s.port 33).rxOut ∧ 2 ≤ (s.port 33).txCred ∧ (s.port 33).txq = []

/-- The completion of a command: CMD_STAT shows it, and its message, sent with job state `st`, is among the new ones (R633). -/
def reports (s t : State) (code : Byte) (result : BitVec 4) (fault : BitVec 16) (st : BitVec 4) (vals : List W64) : Prop :=
  t.cmd.lastCode = code ∧ t.cmd.lastResult = result ∧ t.cmd.lastFault = fault
    ∧ ⟨33, t.tickW, .completion (fault ++ code ++ result ++ st ++ (0 : W32)) vals⟩ ∈ t.out.drop s.out.length

/-- The same, with its count in CMD_COUNT. -/
def concludes (s t : State) (code : Byte) (result : BitVec 4) (fault : BitVec 16) (st : BitVec 4) (vals : List W64) : Prop :=
  reports s t code result fault st vals
    ∧ t.cmd.accepted = (if result = 0 then satAdd s.cmd.accepted 1 else s.cmd.accepted)
    ∧ t.cmd.refused = (if result = 0 then s.cmd.refused else satAdd s.cmd.refused 1)

/-- Nothing is due: no wait has reached its limit, and nothing goes on by itself (log 3). -/
def nothingDue (s : State) : Prop := firstDue dueActs s = none

/-- Where a register lies (format A, operand 6). -/
def regAt (off : Nat) : W64 := infoAt 6 (0x7F0000000000 + off)

/-- A manifest that R570 does not call malformed. -/
def manifestSound (m : Manifest) : Prop :=
  m.res39 = 0 ∧ m.resTail = 0 ∧ m.ports.toNat < 2 ^ 35 ∧ m.imgLen.toNat % 32 = 0 ∧ m.imgLen.toNat ≤ 524288
    ∧ m.entry.toNat % 32 = 0 ∧ m.entry.toNat < 2 ^ 19

/-- Every check of Table 15.9 passes, and the distance-table hash is the Skokin's (R571). -/
def manifestFits (s : State) (m : Manifest) : Prop :=
  let yard := s.cfg.active.yardMib.toNat * 2 ^ 20
  m.spadTop.toNat ≤ 2 ^ 29 - yard ∧ m.yardNeed.toNat ≤ yard
    ∧ (∀ g < 256, m.groups.getLsbD g = true → s.cfg.active.groups.getLsbD g = true ∧ (g + 1) * 2 ^ 21 ≤ 2 ^ 29 - yard)
    ∧ m.vcs.toNat ≤ s.svc.vcs.toNat ∧ m.plats.toNat ≤ s.svc.platforms.toNat
    ∧ (∀ p < 35, m.ports.getLsbD p = true → (s.port p).state = 2) ∧ s.job.chipValid = true ∧ m.distHash = s.sp.distHash

/-- The state after a load that ends without a job (R85). -/
def loadEnds (s : State) : BitVec 4 := if s.sp.scrubRun then 8 else 0

/-- Registers of Table 18.5 that LAUNCH sets to their reset values, the job's copies where they are banked. -/
def launchRegs : List Nat :=
  [0x0120, 0x0188, 0x0190, 0x0200, 0x0208, 0x0210, 0x0218, 0x0220, 0x0300, 0x0308, 0x0310, 0x0400, 0x0408, 0x0510, 0x0528, 0x0538,
   0x0600, 0x0608, 0x0610, 0x0618, 0x0620, 0x0628, 0x0630, 0x0708, 0x0710, 0x0720, 0x0728, 0x0730, 0x0738, 0x0740, 0x0748, 0x2020,
   0x2028, 0x2030, 0x2038, 0x2040, 0x2048, 0x2050, 0x2058, 0x2080, 0x2088, 0x2090, 0x2098, 0x20A0, 0x20A8, 0x20B0, 0x20B8, 0x20C0,
   0x20C8, 0x20D0, 0x20D8, 0x20E0, 0x20E8, 0x3048, 0x3050, 0x3810, 0x4010, 0x4820]

end Sys2Proof.Claims

/-- LOAD in IDLE or SCRUBBING clears the fault registers and makes the state LOADING; while a substitution pass runs it is held (R587);
malformed, in another state or with the trip pin low it is rejected. DATA writes its bytes; once the image is whole the rest of signal-
box memory is zero, and the state is LOADED where the manifest fits, and else as R85 says, with 0x7004 or 0x7005. LAUNCH in LOADED sets
TT_EPOCH to its tick, resets Table 2.1 and every register that Table 18.5 marks L, and waits for the tick; with a tick that has passed
it is RUNNING at once. At the launch tick LAUNCH_TICK makes it RUNNING, and fetch may begin. 0x6007 as the code of a command that is not
accepted is the model's (log 17). So is that the mark of a failed spare holds a LOAD (log 98). -/
def Obligations.JobLoadsAndLaunches : Prop :=
  ((∀ (s : State) (m : Manifest), listens s → (s.job.state = 0 ∨ s.job.state = 8) → s.pw.trip = false → s.hl.pass = false →
    (s.job.state = 8 → s.anyFailed = false) → manifestSound m →
    (m.imgLen ≠ 0 → ∃ t, exec (.load m 0) s = .next t ∧ concludes s t 1 0 0 1 [] ∧ t.job = { s.job with state := 1, manifest := m, image := [] }
      ∧ t.ft.valid = false ∧ t.ft.code = 0 ∧ t.ft.pc = 0 ∧ t.ft.tick = 0 ∧ t.ft.info = 0 ∧ t.ft.seq = 0 ∧ t.ft.logged = 0
      ∧ t.ft.suppressed = 0 ∧ t.ft.ovf = false ∧ t.ft.log = [] ∧ t.bankJ.faultLog = 0 ∧ t.bankK.faultLog = 0
      ∧ t.sb = s.sb ∧ t.sp = { s.sp with bad := [] }) ∧
    (m.imgLen = 0 → manifestFits s m → ∃ t, exec (.load m 0) s = .next t ∧ t.job.state = 2 ∧ ∀ a < 2 ^ 19, t.sb.mem.read a = 0)) ∧
  (∀ (s : State) (m : Manifest), listens s → (s.job.state = 0 ∨ s.job.state = 8) → s.pw.trip = false → s.hl.pass = true →
    manifestSound m → ∃ t, exec (.load m 0) s = .next t ∧ t.cmd.heldLoad = some m ∧ t.cmd.lastCode = 1 ∧ t.job = s.job ∧ t.sb = s.sb
      ∧ t.sp = s.sp) ∧
  (∀ (s : State) (m : Manifest), listens s →
    ((s.job.state ≠ 0 ∧ s.job.state ≠ 8) ∨ ¬ manifestSound m ∨ s.pw.trip = true) →
    ∃ t, exec (.load m 0) s = .next t ∧ concludes s t 1 1 0x6007 s.job.state [] ∧ t.job = s.job ∧ t.sb = s.sb) ∧
  (∀ (s : State) (off : W64) (bytes : List Byte), listens s → s.memOk = true → s.job.state = 1 → bytes.length % 8 = 0 →
    bytes.length ≤ 8184 → off.toNat + bytes.length ≤ s.job.manifest.imgLen.toNat →
    let lo := off.toNat
    let hi := lo + bytes.length
    let m := s.job.manifest
    let image := addInterval s.job.image lo hi
    let whole := image.any (fun p => decide (p.1 = 0 ∧ m.imgLen.toNat ≤ p.2)) = true
    ∃ t, exec (.data off bytes) s = .next t ∧ t.sp = s.sp
      ∧ (∀ a < m.imgLen.toNat, t.sb.mem.read a = if lo ≤ a ∧ a < hi then bytes.getD (a - lo) 0 else s.sb.mem.read a)
      ∧ (¬ whole → t.job = { s.job with image := image })
      ∧ (whole → (∀ a, m.imgLen.toNat ≤ a → a < 2 ^ 19 → t.sb.mem.read a = 0) ∧ t.sb.ecc = []
        ∧ (manifestFits s m → t.job.state = 2)
        ∧ (∀ r n l, s.shortfalls m = (r, n) :: l → t.job.state = loadEnds s ∧ t.cmd.lastResult = 2 ∧ t.cmd.lastFault = 0x7004
            ∧ (s.ft.log.length < 64 → t.ft.log = s.ft.log ++ [⟨0x7004, 2, 0, s.tickW, BitVec.ofNat 64 (r * 2 ^ 60 + n % 2 ^ 32)⟩]))
        ∧ (s.shortfalls m = [] → m.distHash ≠ s.sp.distHash → t.job.state = loadEnds s ∧ t.cmd.lastResult = 2
            ∧ t.cmd.lastFault = 0x7005)))) ∧
  ((∀ (s : State) (tick : W64), listens s → s.job.state = 2 → ∃ t, exec (.launch tick 0) s = .next t ∧ concludes s t 2 0 0 3 []
    ∧ t.job.state = (if tick.toNat ≤ s.now then 4 else 3) ∧ t.job.launch = tick ∧ t.tickW = s.tickW
    ∧ (∀ k, t.getS k = if k = 1 then s.job.manifest.arg else if k = 2 then s.job.chipId.setWidth 64 else 0)
    ∧ (∀ k, t.getD k = 0) ∧ (∀ k, 1 ≤ k → t.getP k = 0) ∧ t.sb.pc = s.job.manifest.entry.setWidth 19 ∧ t.sb.epoch = tick
    ∧ t.sb.seed = s.job.manifest.seed ∧ t.sb.mem = s.sb.mem ∧ t.sb.fmem = s.sb.mem ∧ empty t ∧ t.sp.mem = s.sp.mem
    ∧ (∀ o ∈ launchRegs, t.readReg .job o = State.reset.readReg .job o)
    ∧ (∀ c < 16, t.readReg .job (0x780 + 8 * c) = 0)
    ∧ (t.readReg .job 0x3028).toNat % 64 = 0 ∧ t.ft.log = s.ft.log ∧ t.ft.ovf = s.ft.ovf
    ∧ (∀ w < 32, t.window w = Window.init) ∧ (∀ k, t.slot k = Slot.free)
    ∧ (∀ c, 1 ≤ c → c ≤ 31 → ∀ j < 16, t.readReg .job (0x1080 + 0x80 * (c - 1) + 8 * j) = 0)
    ∧ (tick.toNat ≤ s.now → issues t)) ∧
  (∀ (s : State) (tick : W64), listens s → s.job.state ≠ 2 →
    ∃ t, exec (.launch tick 0) s = .next t ∧ concludes s t 2 1 0x6007 s.job.state [] ∧ t.job = s.job ∧ t.sb = s.sb) ∧
  (∀ s : State, s.job.state = 3 → s.job.kill = none → ticking s → s.job.launch.toNat < 2 ^ 64 - 512 → ∃ t, exec .launchTick s = .next t
    ∧ t.job = { s.job with state := 4 } ∧ s.job.launch.toNat ≤ t.now ∧ t.sb = s.sb ∧ t.sp.mem = s.sp.mem))

/-- KILL abandons a load, or ends the job: every window closes, the slots are FREE, no instruction is left, and the state is PRESERVED or
SCRUBBING, once the requests made before it are answered or KILL_DRAIN_COMPLETE ends them. In IDLE, SCRUBBING and PRESERVED it is
rejected. A KILL finds everything that was due at its tick done (R537). 0x6007 as the code of a KILL that is not accepted is the model's
(log 17). -/
def Obligations.KillEndsTheJob : Prop :=
  (∀ (s : State) (p : Bool), listens s → nothingDue s → s.job.state = 1 → ∃ t, exec (.kill p 0) s = .next t
    ∧ concludes s t 3 0 0 (loadEnds s) [] ∧ t.job = { s.job with state := loadEnds s, preserve := p } ∧ t.sb = s.sb ∧ t.sp = s.sp) ∧
  (∀ (s : State) (p : Bool), listens s → nothingDue s → s.job.state ∈ [2, 3, 4, 6] → ∃ t, exec (.kill p 0) s = .next t
    ∧ empty t ∧ (∀ k, k ≠ 33 → (t.port k).txq = []) ∧ (∀ w, (t.window w).openTs = none64 ∧ (t.window w).closeTs = none64) ∧ t.yd.slots = [] ∧ t.job.preserve = p
    ∧ t.ft.halting = none ∧ t.sb.wait = none ∧ t.sb.waitReg = none
    ∧ (s.reqs = [] → t.job.state = (if p then 7 else 8) ∧ t.job.kill = none ∧ concludes s t 3 0 0 (if p then 7 else 8) []
        ∧ (p = false → ∀ a, s.groupOn (a / 2 ^ 21) = true → t.sp.mem.read a = 0))
    ∧ (s.reqs ≠ [] → t.job.state = s.job.state ∧ t.job.kill = some (s.fl.map (·.q.seq)) ∧ t.reqs = s.reqs)) ∧
  (∀ (s : State) (p : Bool), listens s → nothingDue s → s.job.state ∈ [0, 7, 8] →
    ∃ t, exec (.kill p 0) s = .next t ∧ concludes s t 3 1 0x6007 s.job.state [] ∧ t.job = s.job ∧ t.sb = s.sb ∧ t.sp = s.sp) ∧
  (∀ s : State, s.job.kill.isSome = true → s.cmd.queue = [] → (∀ k, (s.port k).txq = []) → (s.port 33).state = 2 →
    2 ≤ (s.port 33).txCred → ∃ t, exec .killDrainComplete s = .next t ∧ t.job.kill = none
    ∧ t.reqs = [] ∧ t.job.state = (if s.job.preserve then 7 else 8) ∧ t.cmd.lastResult = 0)

/-- PROFILE names the active profile, sets src to 2 and completes; a valid other profile in IDLE, where switching is allowed, begins a
switch (the PLL relocks first where the root differs); any other is refused with 0x7006. PROFILE_SWITCH_COMPLETE ends the switch and
completes it. A command of a code whose unused bits are not zero is rejected. That a completion with no switch at its last order changes
nothing is the model's (log 10), as are 0x6007 for a command with unused bits set (log 17) and the switch going order by order (log 18).
-/
def Obligations.ProfilesSwitch : Prop :=
  (∀ (s : State) (n : BitVec 2), listens s → n = s.cfg.profile →
    ∃ t, exec (.profile n 0) s = .next t ∧ concludes s t 4 0 0 s.job.state [] ∧ t.cfg = { s.cfg with src := 2 }) ∧
  (∀ (s : State) (n : BitVec 2) (x : Profile), listens s → n ≠ s.cfg.profile → s.boot.profiles[n.toNat]? = some x →
    x.valid n.toNat = true → s.cfg.active.flags.getLsbD 1 = true → s.job.state = 0 → ∃ t, exec (.profile n 0) s = .next t
      ∧ (∃ k, t.cfg.switching = some (n.toNat, k)) ∧ t.job.state = 0 ∧ t.cmd.lastCode = 4
      ∧ (x.rootMhz ≠ s.cfg.active.rootMhz → t.cfg.switching = some (n.toNat, 1) ∧ t.pw.pllLock = false ∧ t.cfg.active = s.cfg.active)
      ∧ (x.rootMhz = s.cfg.active.rootMhz → s.pw.pllLock = true → t.cfg.profile = n ∧ t.cfg.src = 2
          ∧ t.cfg.active.groups = x.groups ∧ t.cfg.active.capW = x.capW ∧ t.pw.capW = x.capW.setWidth 9)) ∧
  (∀ (s : State) (n : BitVec 2), listens s → n ≠ s.cfg.profile →
    (s.job.state ≠ 0 ∨ s.cfg.active.flags.getLsbD 1 = false ∨ ∀ x, s.boot.profiles[n.toNat]? = some x → x.valid n.toNat = false) →
    ∃ t, exec (.profile n 0) s = .next t ∧ concludes s t 4 2 0x7006 s.job.state [] ∧ t.cfg = s.cfg ∧ t.job = s.job) ∧
  (∀ (s : State) (n : Nat), s.cfg.switching = some (n, 6) → s.cmd.queue = [] → (s.port 33).state = 2 → 2 ≤ (s.port 33).txCred →
    (s.port 33).txq = [] → ∃ t, exec .profileSwitchComplete s = .next t
    ∧ t.cfg = { s.cfg with switching := none } ∧ t.cmd.lastResult = 0 ∧ t.cmd.accepted = satAdd s.cmd.accepted 1) ∧
  (∀ s : State, (∀ n, s.cfg.switching ≠ some (n, 6)) → exec .profileSwitchComplete s = .next s) ∧
  (∀ (s : State) (junk : BitVec 56), listens s → nothingDue s → junk ≠ 0 →
    (∀ m, ∃ t, exec (.load m junk) s = .next t ∧ concludes s t 1 1 0x6007 s.job.state [] ∧ t.job = s.job) ∧
    (∀ k, ∃ t, exec (.launch k junk) s = .next t ∧ concludes s t 2 1 0x6007 s.job.state [] ∧ t.job = s.job) ∧
    (∀ p, ∃ t, exec (.kill p junk) s = .next t ∧ concludes s t 3 1 0x6007 s.job.state [] ∧ t.job = s.job) ∧
    (∀ n, ∃ t, exec (.profile n junk) s = .next t ∧ concludes s t 4 1 0x6007 s.job.state [] ∧ t.cfg = s.cfg))

/-- STATUS answers JOB_STATUS and SVC_STAT. RREG answers the register, and SPAD_MDATA's word in PRESERVED or IDLE while no scrub runs; a
single-bit error of signal-box memory is corrected and counted, an uncorrectable one counted (R31); WREG writes what the KPC may write,
and else changes nothing. An access outside the rules is logged and answered with the code of its fault, a read with a zero (00 R19,
R516). 0x6007 for a command with unused bits set is the model's (log 17), as is that a read of an uncorrectable word of signal-box
memory completes with result 0 and no fault (log 59). So are that SPAD_MDATA tests the state before the address (log 106) and that rows
144 to 255 of DIST_DATA read zero (log 107). -/
def Obligations.CommandsReadAndWriteRegisters : Prop :=
  (∀ s : State, listens s → ∃ t, exec (.status 0) s = .next t
    ∧ concludes s t 5 0 0 s.job.state [s.readReg .kpc 0x108, s.readReg .kpc 0x3058] ∧ t.job = s.job ∧ t.svc = s.svc) ∧
  (∀ (s : State) (off : BitVec 21), listens s → off.toNat % 8 = 0 → off.toNat < 0x18_0000 → off ≠ 0x560 →
    (0x10_0000 ≤ off.toNat → ∀ e ∈ s.sb.ecc, e.1 ≠ off.toNat - 0x10_0000) → ∃ t, exec (.rreg off 0) s = .next t
    ∧ reports s t 6 0 0 s.job.state [({ s with cmd := { s.cmd with lastCode := 6 } }).readReg .kpc off.toNat] ∧ t.sb.mem = s.sb.mem
    ∧ t.job.state = s.job.state ∧ t.sp.mem = s.sp.mem) ∧
  (∀ (s : State) (off : BitVec 21) (hard : Bool), listens s → off.toNat % 8 = 0 → 0x10_0000 ≤ off.toNat → off.toNat < 0x18_0000 →
    s.job.state ≠ 3 → s.job.state ≠ 4 →
    s.sb.ecc.find? (fun e => e.1 = off.toNat - 0x10_0000) = some (off.toNat - 0x10_0000, hard) → ∃ t v, exec (.rreg off 0) s = .next t
      ∧ reports s t 6 0 0 s.job.state [v] ∧ t.sb.mem = s.sb.mem
      ∧ (hard = true → t.sb.uncorrected = satAdd s.sb.uncorrected 1 ∧ t.sb.corrected = s.sb.corrected ∧ t.sb.ecc = s.sb.ecc)
      ∧ (hard = false → v = s.readReg .kpc off.toNat ∧ t.sb.corrected = satAdd s.sb.corrected 1 ∧ t.sb.uncorrected = s.sb.uncorrected
          ∧ t.sb.ecc = s.sb.ecc.filter (fun e => e.1 ≠ off.toNat - 0x10_0000))) ∧
  (∀ (s : State) (off : BitVec 21), listens s → off.toNat % 8 ≠ 0 ∨ 0x18_0000 ≤ off.toNat →
    let code : BitVec 16 := if off.toNat % 8 ≠ 0 then 0x2002 else 0x2001
    ∃ t, exec (.rreg off 0) s = .next t ∧ concludes s t 6 1 code s.job.state [0] ∧ logs s t code 1 (regAt off.toNat) ∧ t.sb = s.sb
      ∧ t.sp = s.sp ∧ t.job = s.job ∧ t.cfg = s.cfg) ∧
  (∀ s : State, listens s → (s.job.state = 7 ∨ s.job.state = 0) → s.sp.scrubRun = false → s.sp.maddr.toNat < 2 ^ 29 → s.groupOn (s.sp.maddr.toNat / 2 ^ 21) = true →
    (s.svc.limp = false ∨ s.districtOk (s.sp.maddr.toNat / 2 ^ 22) = true) → s.sp.suspects.contains (s.sp.maddr.toNat / 128 * 128) = false → ∃ t, exec (.rreg 0x560 0) s = .next t
      ∧ concludes s t 6 0 0 s.job.state [BitVec.ofNat 64 (s.sp.mem.readLE s.sp.maddr.toNat 8)]
      ∧ t.sp = { s.sp with maddr := BitVec.ofNat 48 (s.sp.maddr.toNat + 8), maddrPsn := s.psn (s.sp.maddr.toNat / 128 * 128) }) ∧
  (∀ (s : State) (off : BitVec 21) (v : W64), listens s → off.toNat % 8 = 0 → off.toNat < 0x18_0000 → s.mayWrite .kpc off.toNat = true →
    (off = 0x558 → v.toNat % 8 = 0) → ∃ t : State, exec (.wreg off v 0) s = .next t
      ∧ t = { s.writeReg .kpc off.toNat v with out := t.out, ports := t.ports, cmd := t.cmd, tr := t.tr }
      ∧ concludes s t 7 0 0 t.job.state []) ∧
  (∀ (s : State) (off : BitVec 21) (v : W64), listens s →
    let code : Nat := if off.toNat % 8 ≠ 0 then 0x2002 else if 0x18_0000 ≤ off.toNat then 0x2001 else 0x2003
    (off.toNat % 8 ≠ 0 ∨ 0x18_0000 ≤ off.toNat ∨ s.mayWrite .kpc off.toNat = false) → ∃ t, exec (.wreg off v 0) s = .next t
      ∧ concludes s t 7 1 (BitVec.ofNat 16 code) s.job.state [] ∧ logs s t (BitVec.ofNat 16 code) 1 (regAt off.toNat) ∧ t.sb = s.sb ∧ t.sp = s.sp ∧ t.job = s.job ∧ t.cfg = s.cfg) ∧
  (∀ (s : State) (junk : BitVec 56), listens s → junk ≠ 0 →
    (∃ t, exec (.status junk) s = .next t ∧ concludes s t 5 1 0x6007 s.job.state [] ∧ t.job = s.job) ∧
    (∀ off, ∃ t, exec (.rreg off junk) s = .next t ∧ concludes s t 6 1 0x6007 s.job.state [] ∧ t.job = s.job) ∧
    (∀ off v, ∃ t, exec (.wreg off v junk) s = .next t ∧ concludes s t 7 1 0x6007 s.job.state [] ∧ t.job = s.job))

/-! ### Register accesses -/

namespace Sys2Proof.Claims

/-- A party can make an access: the job while it can issue, the KPC once the Skokin is READY and takes commands. -/
def canReach (s : State) : Party → Prop
  | .job => issues s
  | .kpc => listens s

/-- The KPC's command of code `code` completes with the effect of `u` on everything but the command port, and with `vals` (R633). -/
def kpcDoes (s u t : State) (code : Byte) (vals : List W64) : Prop :=
  t = { u with out := t.out, ports := t.ports, cmd := t.cmd } ∧ (∀ k, k ≠ 33 → t.port k = s.port k)
    ∧ concludes s t code 0 0 u.job.state vals

/-- The KPC's command is answered with a fault and logged, and has no other effect (R516). -/
def kpcFaults (s u t : State) (code : Byte) (fault : BitVec 16) (info : W64) (vals : List W64) : Prop :=
  t = { u with out := t.out, ports := t.ports, cmd := t.cmd, ft := t.ft, tr := t.tr } ∧ logs s t fault 1 info ∧ t.ft.valid = s.ft.valid
    ∧ concludes s t code 1 fault s.job.state vals

/-- What an access leaves where both parties can make it: the KPC's completes as a command. -/
def does (s u t : State) (b : Party) (code : Byte) : Prop :=
  match b with
  | .job => t = u
  | .kpc => ∃ vals, kpcDoes s u t code vals

/-- The registers that the KPC writes in its own right, outside RUNNING and WAITING or always (K in Table 18.5), with the bits they keep,
where what was written reads back as it is. -/
def kpcKeeps : List (Nat × W64) :=
  [(0x0718, 0xFF), (0x4000, 0xFFFFFFFF), (0x4030, 0x1FFFF8), (0x4800, 0x1FF), (0x4810, 0xFFFF), (0x0558, 0xFFFFFFFFFFF8)]

/-- The registers that the job writes, with the bits they keep, where what was written reads back as it is. -/
def jobKeeps : List (Nat × W64) :=
  [(0x0120, 0xFFFFFFFF), (0x0180, 0xFFFFFFFFFFFFFFFF), (0x0188, 0xFFFFFFFFFFFF), (0x0528, 0x3FF), (0x0538, 0xFF), (0x2020, 0x17FFF),
   (0x2028, 0xFFFFFFFFFFFFFFFF), (0x2030, 0xFFFFFFFFFFFFFFFF), (0x2040, 0xFFF), (0x3810, 0x3F), (0x4010, 0x3FFFF), (0x4820, 0x7F)]

/-- The job is RUNNING or WAITING. -/
def jobActive (s : State) : Prop := s.job.state = 3 ∨ s.job.state = 4

end Sys2Proof.Claims

/-- The rows that write a register; that the job's wait for the signal box to issue and the KPC's are WREG commands is the model's (log 19).
The KPC's are WREG commands and complete as such. JOB_CTL.release ends PRESERVED and scrubs; CHIP_ID
keeps its fields in IDLE and SCRUBBING only; AMAX_CTL sets the margin and clears the histories; AMAX_DATA appends, and a job's access to
either waits until every earlier tensor instruction has completed (R153); CNT_CTL takes a snapshot; SPAD_MADDR takes a multiple of 8;
PWR_CTL waits for the interval's end; the window onto signal-box memory writes 8 bytes outside RUNNING and WAITING. -/
def Obligations.RegisterRowsWrite : Prop :=
  (∀ (s : State) (v : W64), listens s →
    (s.job.state = 7 → v.getLsbD 1 = true → ∃ t, exec (.jobCtlRelease v) s = .next t ∧ concludes s t 7 0 0 8 []
      ∧ t.job = { s.job with state := 8, preserve := v.getLsbD 0 } ∧ t.sp.scrubRun = true ∧ t.sp.scrubWm = 0
      ∧ (∀ a, t.sp.mem.read a = if s.groupOn (a / 2 ^ 21) then 0 else s.sp.mem.read a) ∧ t.sb = s.sb) ∧
    ((s.job.state ≠ 7 ∨ v.getLsbD 1 = false) → ∃ t, exec (.jobCtlRelease v) s = .next t
      ∧ kpcDoes s { s with job := { s.job with preserve := v.getLsbD 0 } } t 7 [])) ∧
  (∀ (s : State) (v : W64), listens s →
    ((s.job.state = 0 ∨ s.job.state = 8) → ∃ t, exec (.chipIdWrite v) s = .next t
      ∧ kpcDoes s { s with job := { s.job with chipValid := v.getLsbD 63, chipId := v.setWidth 12 } } t 7 []) ∧
    (s.job.state ≠ 0 → s.job.state ≠ 8 → ∃ t, exec (.chipIdWrite v) s = .next t ∧ kpcFaults s s t 7 0x2003 (regAt 0x30) [])) ∧
  (∀ (s : State) (b : Party) (v : W64), canReach s b → (b = .kpc → ¬ jobActive s) → (b = .job → empty s) →
    (∃ t, exec (.amaxCtlClear b v) s = .next t ∧ does s { s with ar := { s.ar with
      margin := v.setWidth 2, hist := if v.getLsbD 2 then [] else s.ar.hist } } t b 7) ∧
    (∃ t, exec (.amaxDataWrite b v) s = .next t
      ∧ does s { s with ar := { s.ar with hist := t.ar.hist, appends := satAdd s.ar.appends 1 } } t b 7
      ∧ (∀ k, AL.getD t.ar.hist k [] = if k = (s.bank b).amaxTid.toNat then amaxAppended s k (v.setWidth 32)
          else AL.getD s.ar.hist k []))) ∧
  (∀ (s : State) (b : Party) (v : W64), canReach s b → (b = .kpc → ¬ jobActive s) →
    ∃ t, exec (.cntCtlSnap b v) s = .next t ∧ does s { s with snap := if v.getLsbD 0 then s.live else s.snap } t b 7) ∧
  (∀ (s : State) (v : W64), issues s → ¬ empty s →
    exec (.amaxCtlClear .job v) s = .next { s with sb := { s.sb with waitReg := some (0x200, v) } } ∧
    exec (.amaxDataWrite .job v) s = .next { s with sb := { s.sb with waitReg := some (0x210, v) } }) ∧
  (∀ (s : State) (v : W64) (f : Inflight), s.sb.waitReg = some (0x200, v) → s.sb.wait = none → s.fl = [f] → s.tq = [] → s.job.state = 4 →
    s.instDone f = true → s.ft.halting = none → s.job.kill = none → ∃ t, exec .tensorInstructionComplete s = .next t ∧ t.fl = []
      ∧ t.sb = { s.sb with waitReg := none } ∧ t.ar.margin = v.setWidth 2 ∧ (v.getLsbD 2 = true → t.ar.hist = [])) ∧
  (∀ (s : State) (v : W64), listens s → jobActive s →
    (∃ t, exec (.amaxCtlClear .kpc v) s = .next t ∧ kpcFaults s s t 7 0x2003 (regAt 0x200) []) ∧
    (∃ t, exec (.amaxDataWrite .kpc v) s = .next t ∧ kpcFaults s s t 7 0x2003 (regAt 0x210) []) ∧
    (∃ t, exec (.cntCtlSnap .kpc v) s = .next t ∧ kpcFaults s s t 7 0x2003 (regAt 0x2080) [])) ∧
  (∀ (s : State) (v : W64), listens s →
    (v.toNat % 8 = 0 → ∃ t, exec (.spadMaddrWrite v) s = .next t ∧ kpcDoes s { s with sp := { s.sp with maddr := v.setWidth 48 } } t 7 []) ∧
    (v.toNat % 8 ≠ 0 → ∃ t, exec (.spadMaddrWrite v) s = .next t ∧ kpcFaults s s t 7 0x2002 (infoAt 8 (v.toNat % 2 ^ 48)) []) ∧
    (∃ t, exec (.pwrCtlWrite v) s = .next t ∧ kpcDoes s { s with pw := { s.pw with capNew := some (v.setWidth 9) } } t 7 [])) ∧
  (∀ (s : State) (off : BitVec 21) (v : W64), listens s → s.memOk = true → 0x100000 ≤ off.toNat → off.toNat < 0x180000 →
    off.toNat % 8 = 0 →
    let a := off.toNat - 0x100000
    (¬ jobActive s → ∃ t, exec (.signalBoxMemoryAccess off (some v)) s = .next t
      ∧ kpcDoes s { s with sb := { s.sb with mem := t.sb.mem, fmem := t.sb.fmem, ecc := s.sb.ecc.filter (fun p => p.1 ≠ a) } } t 7 []
      ∧ (∀ k, t.sb.mem.read k = if a ≤ k ∧ k < a + 8 then BitVec.ofNat 8 (v.toNat / 2 ^ (8 * (k - a))) else s.sb.mem.read k)
      ∧ (t.readReg .kpc off.toNat = v)) ∧
    ((∀ e ∈ s.sb.ecc, e.1 ≠ a) → ∃ t, exec (.signalBoxMemoryAccess off none) s = .next t ∧ (jobActive s → kpcDoes s s t 6 [0])
      ∧ (¬ jobActive s → kpcDoes s s t 6 [BitVec.ofNat 64 (s.sb.mem.readLE a 8)])) ∧
    (jobActive s → ∃ t, exec (.signalBoxMemoryAccess off (some v)) s = .next t ∧ kpcFaults s s t 7 0x2003 (regAt off.toNat) []))

namespace Sys2Proof.Claims

/-- A limit field for which a write of zero sets the reset value `d` (14 R529). -/
def limitOr (v d : Nat) : Nat := if v = 0 then d else v

/-- What a write of `v` to a register with limit fields or bits cleared by writing one leaves (03 Table 3.13, 07 Table 7.15, 09 Table 9.8,
10 Table 10.12, 11 Table 11.8, 12 Table 12.6, 14 Tables 14.5 and 14.8): only the fields of the register that the tables let be written change. -/
def fieldsTake (s t : State) (v : W64) : Nat → Prop
  | 0x218 => t = { s with ar := { s.ar with flags := t.ar.flags } }
      ∧ ∀ i < 10, t.ar.flags.getLsbD i = (s.ar.flags.getLsbD i && !v.getLsbD i)
  | 0x300 => t = { s with xp := { s.xp with stall := t.xp.stall } } ∧ t.xp.stall.toNat = limitOr (v.toNat % 2 ^ 24) 400000
  | 0x508 => t = { s with sp := { s.sp with eccValid := s.sp.eccValid && !v.getLsbD 63 } }
  | 0x600 => t = { s with xf := { s.xf with nack1Limit := t.xf.nack1Limit, drain := t.xf.drain } }
      ∧ t.xf.nack1Limit.toNat = v.toNat / 2 ^ 40 % 2 ^ 16 ∧ t.xf.drain.toNat = limitOr (v.toNat % 2 ^ 24) 1600
  | 0x608 => t = { s with xf := { s.xf with
        nackHalt := v.getLsbD 63, hostTicks := t.xf.hostTicks, netTicks := t.xf.netTicks, memTicks := t.xf.memTicks } }
      ∧ t.xf.hostTicks.toNat = limitOr (v.toNat / 2 ^ 40 % 2 ^ 20) 40000 ∧ t.xf.netTicks.toNat = limitOr (v.toNat / 2 ^ 20 % 2 ^ 20) 80000
      ∧ t.xf.memTicks.toNat = limitOr (v.toNat % 2 ^ 20) 8000
  | 0x630 => t = { s with xf := { s.xf with gfValid := s.xf.gfValid && !v.getLsbD 63 } }
  | 0x708 => t = { s with yd := { s.yd with waitTicks := t.yd.waitTicks, claimTicks := t.yd.claimTicks } }
      ∧ t.yd.waitTicks.toNat = limitOr (v.toNat / 2 ^ 24 % 2 ^ 24) 80000 ∧ t.yd.claimTicks.toNat = limitOr (v.toNat % 2 ^ 24) 20000
  | 0x728 => t = { s with yd := { s.yd with taintAny := s.yd.taintAny && !v.getLsbD 63 } }
  | 0x2008 => t = { s with tb := { s.tb with holdover := t.tb.holdover, slew := t.tb.slew, stepLimit := t.tb.stepLimit } }
      ∧ t.tb.holdover.toNat = limitOr (v.toNat / 2 ^ 24 % 2 ^ 24) 4194304 ∧ t.tb.slew.toNat = v.toNat / 2 ^ 12 % 2 ^ 12
      ∧ t.tb.stepLimit.toNat = v.toNat % 2 ^ 12
  | 0x3050 => t = { s with ft := { s.ft with pfValid := s.ft.pfValid && !v.getLsbD 63 } }
  | _ => False

end Sys2Proof.Claims

/-- The rows that read a register or write one by its offset; that the KPC's are RREG and WREG commands is the model's (log 19). SPAD_MDATA
steps SPAD_MADDR by 8 and shows the line's poison bit, and outside the scratchpad or at a group that is not ON it faults, and in other
states, or while the scrub runs (09 R402), it reads zero and changes nothing; WEAR_DATA steps WEAR_ADDR; TRACE_REC0 latches the record's
other half; a read clears the RC fields (CMD_COUNT then counts the RREG). A register keeps the bits that its table gives it; a write
outside the rules is logged and answered, or halts the job. A write to a limit field takes its bits, zero standing for the reset value
where Table 14.5 says so (14 R529), and a bit cleared by writing one is cleared by a one and kept by a zero; nothing else changes.
XCH_STEP takes the whole word, at its chain and step alone (07 R286, R317). S.REG writes what the job's row writes, and the PC goes on.
-/
def Obligations.RegisterRowsRead : Prop :=
  ((∀ s : State, listens s → (s.job.state = 7 ∨ s.job.state = 0) → s.sp.scrubRun = false →
    let a := s.sp.maddr.toNat
    let none_ := { s with sp := { s.sp with maddrPsn := false } }
    (a < 2 ^ 29 → s.groupOn (a / 2 ^ 21) = true → (s.svc.limp = false ∨ s.districtOk (a / 2 ^ 22) = true) →
      s.sp.suspects.contains (a / 128 * 128) = false → ∃ t, exec .spadMdataRead s = .next t ∧ kpcDoes s
        { s with sp := { s.sp with maddr := BitVec.ofNat 48 (a + 8), maddrPsn := s.psn (a / 128 * 128) } } t 6
        [BitVec.ofNat 64 (s.sp.mem.readLE a 8)]) ∧
    (2 ^ 29 ≤ a → ∃ t, exec .spadMdataRead s = .next t ∧ kpcFaults s none_ t 6 0x2001 (infoAt 8 a) [0]) ∧
    (a < 2 ^ 29 → (s.groupOn (a / 2 ^ 21) = false ∨ (s.svc.limp = true ∧ s.districtOk (a / 2 ^ 22) = false)) →
      ∃ t, exec .spadMdataRead s = .next t ∧ kpcFaults s none_ t 6 0x2004 (infoAt 8 a) [0])) ∧
  (∀ s : State, listens s → ((s.job.state ≠ 7 ∧ s.job.state ≠ 0) ∨ s.sp.scrubRun = true) → ∃ t, exec .spadMdataRead s = .next t ∧ kpcDoes s s t 6 [0]) ∧
  (∀ s : State, listens s → ∃ t, exec .wearDataRead s = .next t
    ∧ kpcDoes s { s with hl := { s.hl with wearAddr := s.hl.wearAddr + 8 } } t 6 [s.readReg .kpc 0x4038]) ∧
  (∀ (s : State) (b : Party), canReach s b → ∃ t, exec (.traceRec0Read b) s = .next t
    ∧ (t.bank b).latch = (AL.getD s.tr.ring (s.bank b).traceIdx.toNat 0).extractLsb' 64 64
    ∧ does s (s.setBank b { s.bank b with latch := (t.bank b).latch }) t b 6) ∧
  (∀ (s : State) (b : Party) (off : BitVec 21), canReach s b → off.toNat ∈ rcRegs → ∃ t, exec (.readToClear b off) s = .next t
    ∧ (off.toNat ≠ 0x2010 → off.toNat ≠ 0x4808 → (b = .kpc → off.toNat ≠ 0x28) → t.readReg b off.toNat = 0)
    ∧ (b = .kpc → off.toNat = 0x28 → t.cmd.accepted = 1 ∧ t.cmd.refused = 0)
    ∧ (off.toNat = 0x2010 → does s { s with tb := { s.tb with steps := 0 } } t b 6)
    ∧ (off.toNat = 0x4808 → does s { s with pw := { s.pw with thrAclk := 0 } } t b 6)
    ∧ (∀ o ∈ launchRegs, o ≠ off.toNat → t.readReg b o = s.readReg b o) ∧ t.sb.mem = s.sb.mem ∧ t.sp.mem = s.sp.mem) ∧
  (∀ (s : State) (v : W64) (p : Nat × W64), listens s → p ∈ kpcKeeps → p.1 ≠ 0x558 ∨ v.toNat % 8 = 0 →
    ∃ t, exec (.registerWrite .kpc (BitVec.ofNat 21 p.1) v) s = .next t ∧ t.readReg .kpc p.1 &&& p.2 = v &&& p.2 ∧ t.job = s.job
      ∧ t.sb = s.sb ∧ t.ft = s.ft) ∧
  (∀ (s : State) (v : W64) (p : Nat × W64), issues s → p ∈ jobKeeps →
    ∃ t, exec (.registerWrite .job (BitVec.ofNat 21 p.1) v) s = .next t ∧ t.readReg .job p.1 = v &&& p.2 ∧ t.sb.mem = s.sb.mem
      ∧ t.sp = s.sp ∧ t.ft = s.ft) ∧
  (∀ (s : State) (v : W64), issues s → ¬ empty s → ∀ off : BitVec 21, off.toNat ∈ [0x200, 0x208, 0x210] →
    exec (.registerWrite .job off v) s = .next { s with sb := { s.sb with waitReg := some (off.toNat, v) } }) ∧
  (∀ (s : State) (off : BitVec 21) (v : W64),
    let code : BitVec 16 := if off.toNat % 8 ≠ 0 then 0x2002 else if 0x180000 ≤ off.toNat then 0x2001 else 0x2003
    (listens s → (off.toNat % 8 ≠ 0 ∨ 0x180000 ≤ off.toNat ∨ s.mayWrite .kpc off.toNat = false) →
      ∃ t, exec (.registerWrite .kpc off v) s = .next t ∧ kpcFaults s s t 7 code (regAt off.toNat) []) ∧
    (issues s → (off.toNat % 8 ≠ 0 ∨ 0x180000 ≤ off.toNat ∨ jobWritable off.toNat = false) →
      ∃ t, exec (.registerWrite .job off v) s = .next t ∧ stops s t code (regAt off.toNat)))) ∧
  ((∀ (s : State) (b : Party) (v : W64) (off : BitVec 21), canReach s b → (b = .kpc → ¬ jobActive s) →
    off.toNat ∈ [0x218, 0x300, 0x600, 0x608, 0x708, 0x3050] →
    ∃ u t, exec (.registerWrite b off v) s = .next t ∧ fieldsTake s u v off.toNat ∧ does s u t b 7) ∧
  (∀ (s : State) (v : W64) (off : BitVec 21), listens s → off.toNat ∈ [0x508, 0x630, 0x728, 0x2008] →
    ∃ u t, exec (.registerWrite .kpc off v) s = .next t ∧ fieldsTake s u v off.toNat ∧ kpcDoes s u t 7 []) ∧
  (∀ (s : State) (b : Party) (v : W64) (c k : Nat), canReach s b → (b = .kpc → ¬ jobActive s) → 1 ≤ c → c ≤ 31 → k < 16 →
    ∃ u t, exec (.registerWrite b (BitVec.ofNat 21 (0x1080 + 0x80 * (c - 1) + 8 * k)) v) s = .next t ∧ does s u t b 7
      ∧ u = { s with xp := { s.xp with chains := u.xp.chains } }
      ∧ ∀ c' k', 1 ≤ c' → c' ≤ 31 → k' < 16 → u.readReg b (0x1080 + 0x80 * (c' - 1) + 8 * k') =
          if c' = c ∧ k' = k then v else s.readReg b (0x1080 + 0x80 * (c' - 1) + 8 * k')) ∧
  (∀ (s : State) (r : BitVec 6) (off : BitVec 21), issues s → room s → reg r → off.toNat % 8 = 0 → jobWritable off.toNat = true →
    (waitsForArray off.toNat → empty s) →
    ∃ t, exec (.registerWrite .job off (s.getS r.toNat)) s = .next t
      ∧ exec (.sRegWreg { word 0xB 1 with sa := r, imm32 := off.setWidth 32 }) s = .next (goneOn t)))

/-! ### Ports -/

namespace Sys2Proof.Claims

/-- Only port `p` differs, and it is `q`. -/
def onlyPort (s t : State) (p : Nat) (q : Port) : Prop :=
  t = { s with ports := t.ports } ∧ t.port p = q ∧ ∀ k, k ≠ p → t.port k = s.port k

/-- The mode that R565 computes from a partner's CAP word of the port's kind: the lower of the highest versions, the lower width, the
common formats and options, and the Skokin's depth; version 1 is the base mode. -/
def jointMode (p : Nat) (w : W64) : W64 :=
  let v := min 3 (w.extractLsb' 60 4).toNat
  let width := if v = 1 then 0 else min 3 (w.extractLsb' 52 4).toNat
  let opts := if v = 1 then 0 else ownOptions p &&& (w.extractLsb' 24 3).toNat
  BitVec.ofNat 64 (v * 2 ^ 60 + v * 2 ^ 56 + width * 2 ^ 52 + (ownFmt p &&& (w.extractLsb' 32 16).toNat) * 2 ^ 32 + opts * 2 ^ 24
    + p * 2 ^ 16 + rxDepth p)

/-- The versions overlap and the kinds agree. -/
def agrees (p : Nat) (w : W64) : Prop :=
  max 1 (w.extractLsb' 56 4).toNat ≤ min 3 (w.extractLsb' 60 4).toNat ∧ (w.extractLsb' 16 8).toNat = p

/-- Drops on the port so far in this aligned interval of 65,536 ticks. -/
def dropsNow (s : State) (p : Nat) : Nat := if (s.port p).dropIv = s.now / 65536 then (s.port p).drops else 0

/-- From `s` to `t` a fault of the Log response is logged and nothing else changes but the trace. -/
def logsOnly (s t : State) (code : BitVec 16) (info : W64) : Prop :=
  t = { s with ft := { s.ft with log := t.ft.log, ovf := t.ft.ovf, logged := t.ft.logged }, tr := t.tr } ∧ logs s t code 1 info

/-- A received message is dropped: counted, logged with 0x6007, without effect; its port stays as it is but for the counts (R619). -/
def dropped (s t : State) (p : Nat) : Prop :=
  ∃ u, onlyPort s u p { s.port p with crcErr := satAdd (s.port p).crcErr 1, drops := dropsNow s p + 1, dropIv := s.now / 65536 }
    ∧ logsOnly u t 0x6007 (infoPort p s.now)

/-- The block attends to port `p`: once a start-up fault has stopped it, to the command port alone (14 Table 14.1). -/
def heeds (s : State) (p : Nat) : Prop := attends s ∨ (s.boot.phase = .stopped ∧ p = 33)

/-- Ports negotiate: step 5 of start-up, or the fourth change of a profile switch. -/
def negotiating (s : State) : Prop :=
  (s.boot.phase = .step 5 ∧ s.cfg.switching = none) ∨ (s.boot.phase = .ready ∧ ∃ n, s.cfg.switching = some (n, 4))

/-- A port as it becomes UP with the depths of its partner's CAP word. -/
def becomesUp (p : Nat) (q : Port) : Port :=
  { q with
    state := 2, confirmed := false, txDepth := q.cap.setWidth 16, txCred := (q.cap.setWidth 16 : BitVec 16).toNat
    rxFree := if portClass p = .intake then rxDepth p else 0, rxOut := if portClass p = .intake then 0 else rxDepth p }

end Sys2Proof.Claims

/-- Negotiation, in start-up's step 5 and in the fourth change of a profile switch. CAP stores the fields of the partner's word and answers
with the mode of R565, where versions and kinds agree. CONFIRM of that mode, which no floor or rule excludes, makes the port UP with the
partner's depth; any other word leaves the attempt to its timeout; the last port's CONFIRM ends step 5. The timeout begins another
attempt with a CAP word, or, after the last, makes the port FAILED with 0x6001, which on the command port ends start-up, or the profile
switch: its PROFILE ends with an error completion (log 96), and of the commands that waited reads are answered and the others rejected
(R549). 0x6007 for CAP and CONFIRM outside negotiation is the model's (log 17), as is that an attempt before start-up step 6 is timed by
the ticks that the time would make at the nominal TB_INC (log 14). -/
def Obligations.PortsNegotiate : Prop :=
  (∀ (s : State) (p : Fin 35) (w : W64), attends s → onTime s → (s.port p).state = 1 →
    let cap := w &&& 0xFFF0FFFF07FFFFFF
    (agrees p w → ∃ t : State, exec (.cap p w) s = .next t
      ∧ t = { s with ports := t.ports, out := s.out ++ [⟨p, s.tickW, .confirm (jointMode p w)⟩] }
      ∧ t.port p = { s.port p with cap := cap, mode := jointMode p w, confirmed := true } ∧ ∀ k, k ≠ p.val → t.port k = s.port k) ∧
    (¬ agrees p w → ∃ t, exec (.cap p w) s = .next t ∧ onlyPort s t p { s.port p with cap := cap, confirmed := false })) ∧
  (∀ (s : State) (p : Fin 35) (w : W64), negotiating s → onTime s → (s.port p).state = 1 →
    let q := s.port p
    let same := w.extractLsb' 16 48 = q.mode.extractLsb' 16 48
    let more := ∃ k, k ≠ p.val ∧ (s.port k).state = 1
    (q.confirmed = true → same → s.modeOk p q.mode q.cap = true → q.txq = [] →
      (more → ∃ t : State, exec (.confirm p w) s = .next t ∧ t = { s with
          ports := t.ports, svc := { s.svc with portOk := t.svc.portOk }, xp := { s.xp with discard := AL.del s.xp.discard p.val } }
        ∧ t.port p = becomesUp p q ∧ (∀ k, k ≠ p.val → t.port k = s.port k) ∧ (∀ c, (portClass p).index = some c → t.svc.portOk.getLsbD c = true)) ∧
      (s.boot.phase = .step 5 → (∀ x ∈ s.ports, x.1 ≠ p.val → x.2.state ≠ 1) → s.ports.Pairwise (fun a b => a.1 < b.1) →
        s.cfg.active.flags.getLsbD 0 = false → ∃ t, exec (.confirm p w) s = .next t ∧ t.port p = becomesUp p q
        ∧ t.boot.phase = .step 6 ∧ t.cfg.step = 5 ∧ t.tb.on = true ∧ t.tb.acc = s.tb.acc ∧ t.tb.lock = 1)) ∧
    ((q.confirmed = false ∨ ¬ same ∨ s.modeOk p q.mode q.cap = false) → more → exec (.confirm p w) s = .next s)) ∧
  (∀ (s : State) (p : Fin 35) (w : W64), settled s → onTime s → (s.port p).state ≠ 1 →
    (∃ t, exec (.cap p w) s = .next t ∧ logsOnly s t 0x6007 (infoPort p s.now)) ∧
    (∃ t, exec (.confirm p w) s = .next t ∧ logsOnly s t 0x6007 (infoPort p s.now))) ∧
  (∀ (s : State) (p : Fin 35), negotiating s → (s.port p).state = 1 → 1 ≤ s.tb.inc.toNat →
    let q := s.port p
    let due := q.negFrom + 400 * s.boot.negUs
    due < 2 ^ 64 - 512 → (∃ k, k ≠ p.val ∧ (s.port k).state = 1) → ∃ t, exec (.negotiationAttemptTimeout p) s = .next t ∧ due ≤ t.clock
      ∧ (∀ k, k ≠ p.val → t.port k = s.port k) ∧
      (q.attempts.toNat < s.boot.negTries → t.out = s.out ++ [⟨p, t.tickW, .cap (ownCap p)⟩] ∧ t.boot = s.boot ∧ t.port p = { q with
        state := 1, attempts := q.attempts + 1, confirmed := false, negAt := t.tickW, negFrom := t.clock, txCred := 0, rxFree := 0, rxOut := 0 }) ∧
      (s.boot.negTries ≤ q.attempts.toNat → (p.val = 33 → s.boot.phase = .step 5) → t.out = s.out ∧ t.port p = { q with state := 3, confirmed := false }
        ∧ (p.val = 33 → t.boot.phase = .stopped ∧ t.svc.ready = false) ∧ (p.val ≠ 33 → t.boot = s.boot)
        ∧ logs s t 0x6001 (if p.val = 33 then 3 else 1) (infoPort p q.negAt.toNat))) ∧
  (∀ (s : State) (n : Nat), s.boot.phase = .ready → s.cfg.switching = some (n, 4) → s.job.kill = none → s.cmd.heldLoad = none →
    1 ≤ s.tb.inc.toNat →
    let q := s.port 33
    let due := q.negFrom + 400 * s.boot.negUs
    q.state = 1 → q.broken = false → q.txq = [] → s.boot.negTries ≤ q.attempts.toNat → due < 2 ^ 64 - 512 →
    let done := fun (t : State) (code : Byte) (result : BitVec 4) (fault : BitVec 16) (vals : List W64) =>
      ∃ m ∈ t.out.drop s.out.length, m.port = 33 ∧ m.msg = .completion (fault ++ code ++ result ++ s.job.state ++ (0 : W32)) vals
    ∃ t, exec (.negotiationAttemptTimeout 33) s = .next t ∧ t.boot = { s.boot with phase := .stopped } ∧ t.svc.ready = false
      ∧ t.cfg.switching = none ∧ t.cmd.queue = [] ∧ done t 4 1 0x6001 [] ∧ (s.cmd.queue = [.status 0] → ∃ vals, done t 5 0 0 vals)
      ∧ (∀ k j, s.cmd.queue = [.launch k j] → done t 2 1 0x6007 [] ∧ t.job = s.job))

/-- CREDIT adds its credits up to the negotiated depth, and one that returns more counts as dropped. LINK_ERROR writes the port's credits
off and makes it FAILED. A message that fails its check, has reserved bits, a type or length that Table 17.8 does not list for the port,
or comes at a port that is not UP is dropped; the 16th in one interval ends the port with LINK_ERROR. A COMMAND of an unknown code is
answered with an error completion (14 Table 14.6). That a CREDIT outside its range is logged with 0x6007 is the model's (log 17), as are
that a MESSAGE_DROP of a sound message changes nothing (log 32) what the 16th drop does (log 42) and the answer to an unknown code (log
43). -/
def Obligations.CreditsAndLinkErrors : Prop :=
  (∀ (s : State) (p : Fin 35) (w : W64), attends s → onTime s → (s.port p).state = 2 → (s.port p).txq = [] → 2 ≤ (s.port p).version →
    1 ≤ w.toNat → w.toNat ≤ (if (s.port p).version = 2 then 1 else 8) →
    let q := s.port p
    let all := { q with txCred := min (q.txCred + w.toNat) q.txDepth.toNat }
    (q.txCred + w.toNat ≤ q.txDepth.toNat → ∃ t, exec (.credit p w) s = .next t ∧ onlyPort s t p all) ∧
    (q.txDepth.toNat < q.txCred + w.toNat → dropsNow s p < 15 → ∃ t u, exec (.credit p w) s = .next t
      ∧ onlyPort s u p all ∧ dropped u t p)) ∧
  (∀ (s : State) (p : Fin 35) (w : W64) (i : TxItem) (is : List TxItem) (psn : Bool) (tag : Byte) (line : W32) (data : List Byte),
    attends s → onTime s → (s.port p).state = 2 → p.val ≤ 1 → 2 ≤ (s.port p).version → w = 1 → (s.port p).txCred = 0 →
    1 ≤ (s.port p).txDepth.toNat → (s.port p).txq = i :: is → (∀ j ∈ is, 1 ≤ j.msg.cost) →
    i.msg = .operand psn tag line data → ∃ t, exec (.credit p w) s = .next t
      ∧ t.out = s.out ++ [⟨p, s.tickW, .operand psn tag line data⟩] ∧ (t.port p).txCred = 0 ∧ (t.port p).txq.length = is.length) ∧
  (∀ (s : State) (p : Fin 35) (w : W64), attends s → onTime s → (s.port p).state = 2 → 2 ≤ (s.port p).version →
    (w.toNat = 0 ∨ (if (s.port p).version = 2 then 1 else 8) < w.toNat) →
    ∃ t, exec (.credit p w) s = .next t ∧ logsOnly s t 0x6007 (infoPort p s.now)) ∧
  (∀ (s : State) (p : Fin 35) (w : W64), heeds s p → (s.port p).state = 2 → ∃ t, exec (.linkError p w) s = .next t
    ∧ t = { s with ports := t.ports } ∧ (∀ k, k ≠ p.val → t.port k = s.port k)
    ∧ t.port p = { s.port p with state := 3, broken := true, txCred := 0, rxFree := 0, rxOut := 0, txq := (t.port p).txq }
    ∧ (t.port p).txq.map (·.msg) = (s.port p).txq.map (·.msg)) ∧
  (∀ (s : State) (p : Fin 35) (w : W64), heeds s p → (s.port p).state ≠ 2 → dropsNow s p < 15 →
    (∃ t, exec (.linkError p w) s = .next t ∧ dropped s t p) ∧
    (onTime s → ∃ t, exec (.credit p w) s = .next t ∧ dropped s t p)) ∧
  (∀ (s : State) (p : Fin 35) (link : W64) (body : List Byte), heeds s p →
    let type := (link.extractLsb' 58 6).toNat
    let len := (link.extractLsb' 32 16).toNat
    let broken := crc32c (leBytes 4 (link.toNat / 2 ^ 32) ++ body) ≠ link.setWidth 32 ∨ link.extractLsb' 48 10 ≠ 0
    let foreign := typeListed type (portClass p) = false ∨ lenOk type len body = false ∨ body.length ≠ 8 * len
    let closed := (s.port p).state ≠ 2 ∧ type ≠ 1 ∧ type ≠ 2 ∧ ¬ ((type = 0x0F ∨ type = 0x11) ∧ (s.port 33).broken = false)
    let code := body.head?.getD 0
    ((broken ∨ foreign ∨ closed) → dropsNow s p < 15 → ∃ t, exec (.messageDrop p link body) s = .next t ∧ dropped s t p) ∧
    ((broken ∨ foreign ∨ closed) → 15 ≤ dropsNow s p → ∃ t, exec (.messageDrop p link body) s = .next t
      ∧ t.out = s.out ++ (if (s.port p).state = 3 ∧ (p ≠ 33 ∨ (s.port p).broken = true) then [] else
          [⟨p, s.tickW, .linkError (if broken then 1 else if foreign then 2 else 1)⟩])
      ∧ (t.port p).state = 3 ∧ (t.port p).txCred = 0 ∧ (t.port p).rxOut = 0 ∧ (∀ k, k ≠ p.val → t.port k = s.port k)
      ∧ logs s t 0x6007 1 (infoPort p s.now)) ∧
    (¬ broken → ¬ foreign → ¬ closed →
      (¬ (type = 0x0F ∧ (code = 0 ∨ 8 < code.toNat)) → exec (.messageDrop p link body) s = .next s) ∧
      (type = 0x0F → code = 0 ∨ 8 < code.toNat → listens s → ∃ t, exec (.messageDrop p link body) s = .next t
        ∧ concludes s t code 1 0x6007 s.job.state [] ∧ logs s t 0x6007 1 (infoPort 33 s.now) ∧ t.job = s.job ∧ t.sb = s.sb
        ∧ t.cfg = s.cfg))) ∧
  (∀ (s : State) (p : Fin 35), s.boot.phase = .inReset → (∀ w, exec (.linkError p w) s = .next s) ∧
    ∀ link body, (s.dropReason p link body).isSome = true → exec (.messageDrop p link body) s = .next s)

/-! ### Start-up -/

namespace Sys2Proof.Claims

/-- The state at reset release, with the model's own queues and counter kept (R545). -/
def restarted (s : State) : State := { State.reset with pending := s.pending, out := s.out, freeCtr := s.freeCtr }

/-- A command that is taken in the base mode: the command port is not UP, no link error has failed it, and nothing waits there (R549,
R550). -/
def takesBase (s : State) : Prop :=
  s.cfg.switching = none ∧ s.job.kill = none ∧ s.cmd.heldLoad = none ∧ s.cmd.queue = []
    ∧ (s.port 33).state ≠ 2 ∧ (s.port 33).broken = false ∧ (s.port 33).txq = []

/-- The same, with no port enabled yet. -/
def baseMode (s : State) : Prop := takesBase s ∧ s.cfg.active.ports = 0

/-- Start-up stops with a fault: its log entry of response Start, and no READY (14 Table 14.1). -/
def startStops (s t : State) (code : BitVec 16) (info : W64) : Prop :=
  t.boot.phase = .stopped ∧ (s.ft.log.length < 64 → t.ft.log = s.ft.log ++ [⟨code, 3, 0, t.tickW, info⟩])

/-- No job runs and no port waits or negotiates, as in start-up's step 1: of the waits of Table 14.5 only the load's can run. -/
def onlyLoads (s : State) : Prop :=
  s.active = false ∧ s.fl = [] ∧ s.tq = [] ∧ s.reqs = [] ∧ s.yd.trigs = [] ∧ s.yd.held = [] ∧ s.tb.lock = 0
    ∧ ∀ p ∈ s.ports, p.2.txq = [] ∧ p.2.state ≠ 1

/-- Bytes `at_` to `at_ + n - 1` as a number, little-endian. -/
def field (bs : List Byte) (at_ n : Nat) : Nat := leNat ((bs.drop at_).take n)

/-- What the image copy gives: profile record `n`, the wear record, the self-test section (Table 15.2). -/
def copyProfile (copy : List Byte) (n : Nat) : Profile := profileOf ((copy.drop (field copy 20 4 + 128 * n)).take 128)
def copyWear (copy : List Byte) : List Byte := (copy.drop (field copy 24 4)).take (field copy 28 4)

/-- A unit's record from its entry (Table 16.5). -/
def recorded (e : Nat) : UnitRec :=
  ⟨BitVec.ofNat 2 (e / 2 ^ 62), e.testBit 61, e.testBit 60, BitVec.ofNat 12 (e / 2 ^ 48), BitVec.ofNat 8 (e / 2 ^ 40), BitVec.ofNat 32 e, 0, 0⟩

/-- What step 2 builds: the reserve map and the stress counts of the wear record, and from them the distance table and the counts of
units in service (R559). -/
def buildsMap (s u : State) (copy : List Byte) : Prop :=
  let wear := copyWear copy
  (∀ k kind i, unitOfEntry k = some (kind, i) → u.unit kind i = recorded (field wear (1040 + 8 * k) 8))
    ∧ (∀ k < 128, AL.getD u.hl.stress k 0 = BitVec.ofNat 64 (field wear (16 + 8 * k) 8))
    ∧ u.sp.distTab = u.buildTable ∧ u.sp.distHash = tableHash u.sp.distTab ∧ u.rebuild.svc = u.svc
    ∧ u.cfg.distChanged = (s.cfg.distChanged || decide (u.sp.distHash ≠ BitVec.ofNat 32 (field copy 36 4)))

/-- Steps 1 and 2 are over: profile `n` of the copy is active with its power cap, and shows in CFG_STAT; with the map that step 2 builds
step 3 begins. Where the units that it leaves in service do not allow that, start-up ends, and what step 2 was building shows nowhere
(R541, R542, R555, R556, R559, R627). -/
def stepsOneAndTwo (s t : State) (copy : List Byte) (n : Nat) : Prop :=
  let x := copyProfile copy n
  t.cfg.active = x ∧ t.cfg.profile = BitVec.ofNat 2 n ∧ t.cfg.serial = BitVec.ofNat 32 (field copy 44 4) ∧ t.cfg.copy = s.boot.copyB
    ∧ t.pw.capW = x.capW.setWidth 9 ∧ t.pw.capNew = none ∧ t.tb.inc = nominalInc x.rootMhz ∧
    ∃ u : State, buildsMap s u copy ∧
      let serves := u.svc.none_ = false ∧ (n = 2 ∨ u.svc.limp = false)
      (serves → buildsMap s t copy ∧ t.svc = u.svc ∧ t.boot.phase = .step 3 ∧ t.cfg.step = 2 ∧ t.hl.wearOn = true) ∧
      (¬ serves → t.sp = s.sp ∧ t.svc = s.svc ∧ t.hl = s.hl ∧ t.cfg.distChanged = s.cfg.distChanged ∧ t.boot.phase = .stopped
        ∧ t.cfg.step = 1 ∧ (s.ft.log.length < 63 → ∃ e ∈ t.ft.log, e.code = 0x8002 ∧ e.response = 3))

/-- What the boot state keeps of a usable copy (R552, Table 15.2). -/
def keeps (b : Boot) (copy : List Byte) : Prop :=
  copyUsable copy = true ∧ b.imgOk = true ∧ b.img = [(0, copy)] ∧ b.defProf = field copy 12 1 ∧ b.selSrc = field copy 13 1
    ∧ b.negTries = field copy 14 1 ∧ b.negUs = field copy 16 2 ∧ b.serial = BitVec.ofNat 32 (field copy 44 4)
    ∧ b.distHash = BitVec.ofNat 32 (field copy 36 4) ∧ b.profiles = (List.range 4).map (copyProfile copy)

/-- The unit `i` of a kind has failed its self-test, and the reserve `r` of its group has taken its slot. -/
def replacedBy (s t : State) (kind i r : Nat) : Prop :=
  t.unit kind i = { s.unit kind i with state := 2, failed := true, slot := 0xFFF, borrower := 0xFF }
    ∧ t.unit kind r = { s.unit kind r with state := 0, slot := BitVec.ofNat 12 (i % unitPer kind), borrower := 0xFF }
    ∧ t.hl.wearGen = s.hl.wearGen + 1 ∧ t.sp.distTab = t.buildTable ∧ t.sp.distHash = tableHash t.sp.distTab
    ∧ t.cfg.distChanged = (s.cfg.distChanged || decide (t.sp.distHash ≠ s.boot.distHash)) ∧ t.ft.log = s.ft.log

/-- No reserve of the group can serve: each is in service or retired. -/
def noReserve (s : State) (kind grp : Nat) : Prop :=
  ∀ r, unitActive kind ≤ r → r < unitPer kind → (s.unit kind (unitPer kind * grp + r)).state ≠ 1

/-- A unit fails its self-test that no reserve can replace: the fault of the test and 0x8002, both of response Start (R541, R542). -/
def cannotReplace (s t : State) (code : BitVec 16) (kind i : Nat) : Prop :=
  let info := BitVec.ofNat 64 (kind * 2 ^ 56 + i)
  t.boot.phase = .stopped ∧ (t.unit kind i).state = 2
    ∧ (s.ft.log.length < 63 → t.ft.log = s.ft.log ++ [⟨code, 3, 0, s.tickW, info⟩, ⟨0x8002, 3, 0, s.tickW, info⟩])

end Sys2Proof.Claims

/-- Start-up's rows. RESET and PLL_LOSS_OF_LOCK bring every unit to its reset state; RESET_RELEASE begins step 0; PLL_LOCK ends it and asks
for copy A, or ends the relock of step 1. Before READY, STATUS and RREG are answered, after a start-up fault too, and every other
command is rejected. IMAGE_DATA is taken in step 1 only, and like the pins' sample before the load's limit of 25 ms, at which start-up
stops; a bad copy A makes it ask for B, a bad B stops start-up, as a missing image or missing pins do. A usable copy and its profile end
steps 1 and 2, be it by the image, the pins or the relock. The self-tests end steps 3 and 4, with a failed unit replaced or start-up
ended; then every enabled port negotiates. That a release outside reset changes nothing is the model's (log 10), as are 0x6007 for
IMAGE_DATA outside step 1 (log 17), the order of the two entries for a unit that no reserve can replace (log 15), a length judged by the
first 8 bytes (log 16) and the end of start-up at a reserve map that leaves a unit unreplaced (log 61). -/
def Obligations.StartUpSteps : Prop :=
  (∀ s : State, exec .reset s = .next { restarted s with boot := { Boot.reset with phase := .inReset } } ∧
    (s.boot.phase = .inReset → exec .resetRelease s = .next (restarted s)) ∧
    (s.boot.phase ≠ .inReset → exec .resetRelease s = .next s ∧ exec .pllLossOfLock s = .next (restarted s))) ∧
  (∀ s : State, s.boot.phase = .step 0 → exec .pllLock s = .next { s with
    pw := { s.pw with pllLock := true, sclkRoot := true, rootMhz := 4800 }, cfg := { s.cfg with step := 0 }
    boot := { s.boot with phase := .step 1, copyB := false, img := [], loadFrom := s.clock }, out := s.out ++ [⟨33, s.tickW, .imageReq false⟩] }) ∧
  (∀ (s : State) (copy : List Byte), s.boot.phase = .step 1 → s.boot.relock = true → keeps s.boot copy → s.boot.chosen < 4 →
    ∃ t, exec .pllLock s = .next t ∧ t.boot.relock = false ∧ t.pw.pllLock = true
      ∧ t.pw.rootMhz = (copyProfile copy s.boot.chosen).rootMhz ∧ stepsOneAndTwo s t copy s.boot.chosen) ∧
  (∀ (s : State) (n : Nat) (x : Profile), s.boot.phase = .ready → s.cfg.switching = some (n, 1) → s.pw.pllLock = false →
    s.boot.profiles[n]? = some x → ∃ t, exec .pllLock s = .next t ∧ t.pw.pllLock = true ∧ t.pw.rootMhz = x.rootMhz
      ∧ t.cfg.profile = BitVec.ofNat 2 n) ∧
  (∀ (s : State) (off : W64) (bytes : List Byte), baseMode s → onTime s → s.boot.phase = .step 1 → s.boot.imgOk = false → off.toNat < 2 ^ 32 →
    bytes.length % 8 = 0 → bytes.length ≤ 8176 →
    let boot := { s.boot with img := AL.put s.boot.img off.toNat bytes }
    let got := boot.image
    let len := field got 4 4
    let copy := got.take len
    let n := if field copy 13 1 = 1 then field copy 12 1 else s.boot.pins.toNat
    let x := copyProfile copy n
    ∃ t, exec (.imageData ⟨off, 0⟩ bytes) s = .next t ∧ reports s t 8 0 0 s.job.state [] ∧
      (got.length < 8 ∨ (64 ≤ len ∧ len ≤ 2097152 ∧ got.length < len) → t.boot = boot ∧ t.cfg = s.cfg) ∧
      (8 ≤ got.length → (len < 64 ∨ 2097152 < len ∨ (len ≤ got.length ∧ copyUsable copy = false)) →
        (s.boot.copyB = false → t.boot.copyB = true ∧ t.boot.badA = true ∧ t.boot.img = [] ∧ t.boot.phase = .step 1
          ∧ ⟨33, s.tickW, .imageReq true⟩ ∈ t.out.drop s.out.length) ∧
        (s.boot.copyB = true → startStops s t 0x7002 (BitVec.ofNat 64 3))) ∧
      (64 ≤ len → len ≤ 2097152 → len ≤ got.length → copyUsable copy = true → s.boot.relock = false →
        (field copy 13 1 ≠ 1 → s.boot.pinsOk = false → keeps t.boot copy ∧ t.boot.phase = .step 1 ∧ t.cfg = s.cfg) ∧
        (field copy 13 1 = 1 ∨ s.boot.pinsOk = true →
          (x.valid n = false → t.boot.phase = .stopped ∧ (s.boot.copyB = false →
            startStops s t 0x7006 (BitVec.ofNat 64 (if field copy 13 1 = 1 then 0 else s.boot.pins.toNat)))) ∧
          (x.valid n = true → x.rootMhz = 4200 → keeps t.boot copy ∧ t.boot.phase = .step 1 ∧ t.boot.relock = true ∧ t.boot.chosen = n
            ∧ t.pw.pllLock = false ∧ t.cfg = s.cfg) ∧
          (x.valid n = true → x.rootMhz ≠ 4200 → stepsOneAndTwo s t copy n)) ∧
        (s.boot.copyB = true → s.ft.log.length < 64 → ⟨0x7001, 1, 0, s.tickW, 1⟩ ∈ t.ft.log))) ∧
  (∀ (s : State) (off : W64) (bytes : List Byte) (junk : BitVec 56), onTime s → bytes.length % 8 = 0 → bytes.length ≤ 8176 →
    (listens s → ∃ t, exec (.imageData ⟨off, junk⟩ bytes) s = .next t ∧ concludes s t 8 1 0x6007 s.job.state [] ∧ t.boot = s.boot
      ∧ t.cfg = s.cfg) ∧
    (baseMode s → s.boot.phase = .step 1 → junk ≠ 0 → ∃ t, exec (.imageData ⟨off, junk⟩ bytes) s = .next t
      ∧ concludes s t 8 1 0x6007 s.job.state [] ∧ t.boot = s.boot ∧ t.cfg = s.cfg)) ∧
  (∀ s : State, takesBase s → s.boot.phase ≠ .inReset → s.boot.phase ≠ .ready →
    let rejected := fun (c : Instr) (code : Byte) => ∃ t, exec c s = .next t ∧ concludes s t code 1 0x6007 s.job.state []
      ∧ t.job = s.job ∧ t.cfg = s.cfg ∧ t.sb = s.sb ∧ t.sp = s.sp
    (∃ t, exec (.status 0) s = .next t ∧ concludes s t 5 0 0 s.job.state [s.readReg .kpc 0x108, s.readReg .kpc 0x3058] ∧ t.job = s.job) ∧
    (∀ off : BitVec 21, off.toNat % 8 = 0 → off.toNat < 0x10_0000 → off ≠ 0x560 → ∃ t, exec (.rreg off 0) s = .next t
      ∧ reports s t 6 0 0 s.job.state [({ s with cmd := { s.cmd with lastCode := 6 } }).readReg .kpc off.toNat] ∧ t.job = s.job) ∧
    (∀ m j, rejected (.load m j) 1) ∧ (∀ k j, rejected (.launch k j) 2) ∧ (nothingDue s → ∀ p j, rejected (.kill p j) 3) ∧
    (∀ n j, rejected (.profile n j) 4) ∧ ∀ off v j, rejected (.wreg off v j) 7) ∧
  (∀ (s : State) (pins : BitVec 2), onTime s → s.boot.phase = .step 1 → s.boot.pinsOk = false →
    (s.boot.imgOk = false → exec (.profileSelSampling pins) s = .next { s with boot := { s.boot with pins := pins, pinsOk := true } }) ∧
    (∀ copy, keeps s.boot copy → s.boot.selSrc ≠ 1 → s.boot.relock = false →
      let x := copyProfile copy pins.toNat
      ∃ t, exec (.profileSelSampling pins) s = .next t ∧ (x.valid pins.toNat = false → startStops s t 0x7006 (pins.setWidth 64)) ∧
        (x.valid pins.toNat = true → x.rootMhz ≠ 4200 → t.cfg.pins = pins ∧ t.cfg.src = 0 ∧ stepsOneAndTwo s t copy pins.toNat))) ∧
  (∀ s : State, s.boot.phase = .step 1 → s.boot.relock = false → ∃ t, exec .configurationLoadTimeout s = .next t ∧
    (s.boot.imgOk = false → startStops s t 0x7003 (if s.boot.badA then 1 else 0)) ∧
    (s.boot.imgOk = true → startStops s t 0x7006 (s.boot.pins.setWidth 64)) ∧
    (s.tb.on = false → 1 ≤ s.tb.inc.toNat → s.boot.loadFrom + 10000000 ≤ t.clock)) ∧
  (∀ s : State, baseMode s → onlyLoads s → s.boot.phase = .step 1 → s.boot.relock = false → s.boot.loadFrom + 10000000 ≤ s.clock →
    (∀ off bytes, s.boot.imgOk = false → bytes.length % 8 = 0 → bytes.length ≤ 8176 → ∃ t, exec (.imageData ⟨off, 0⟩ bytes) s = .next t
      ∧ t.boot = { s.boot with phase := .stopped } ∧ reports s t 8 1 0x6007 s.job.state [] ∧ t.cfg = s.cfg
      ∧ (s.ft.log.length < 63 → ⟨0x7003, 3, 0, s.tickW, if s.boot.badA then 1 else 0⟩ ∈ t.ft.log)) ∧
    (∀ pins, ∃ t, exec (.profileSelSampling pins) s = .next t ∧ t.boot = { s.boot with phase := .stopped } ∧ t.cfg = s.cfg
      ∧ startStops s t (if s.boot.imgOk then 0x7006 else 0x7003)
          (if s.boot.imgOk then s.boot.pins.setWidth 64 else if s.boot.badA then 1 else 0))) ∧
  (∀ s : State, s.boot.phase = .step 3 → s.cfg.profile ≠ 2 → ∃ t, exec (.memorySelfTest []) s = .next t ∧ t.boot.phase = .step 4
    ∧ t.cfg.step = 3 ∧ t.sp.mem = [] ∧ t.sp.poison = [] ∧ t.sp.decay = []
    ∧ ∀ g < 256, t.groupOn g = s.cfg.active.groups.getLsbD g) ∧
  (∀ (s : State) (i r : Nat), s.boot.phase = .step 3 → s.cfg.profile ≠ 2 → s.hl.pass = false → i < 8704 → i % 68 < 64 →
    (s.unit 1 i).state = 0 →
    (i / 68 = r / 68 → 64 ≤ r % 68 → (s.unit 1 r).state = 1 →
      (∀ k, i / 68 = k / 68 → 64 ≤ k % 68 → k ≠ r → (s.unit 1 k).state ≠ 1
        ∨ (s.unit 1 k).remH.toNat < (s.unit 1 r).remH.toNat ∨ ((s.unit 1 k).remH = (s.unit 1 r).remH ∧ r < k)) →
      ∃ t, exec (.memorySelfTest [i]) s = .next t ∧ t.boot.phase = .step 4 ∧ replacedBy s t 1 i r ∧ t.sp.mem = []) ∧
    (noReserve s 1 (i / 68) → (s.lends = false ∨ ∀ k < 128, noReserve s 1 k) →
      ∃ t, exec (.memorySelfTest [i]) s = .next t ∧ cannotReplace s t 0x8003 1 i)) ∧
  (∀ (s : State) (wrong : List (Nat × W32)), s.boot.phase = .step 4 → s.cfg.profile ≠ 2 → (∀ p ∈ wrong, p.2 = s.signature) →
    (testSignature s.boot.sect = s.signature → ∃ t, exec (.latticeSelfTest wrong) s = .next t ∧ t.boot.phase = .step 5 ∧ t.cfg.step = 4
      ∧ ∀ p < 35, s.cfg.active.ports.getLsbD p = true → (t.port p).state = 1 ∧ ⟨p, s.tickW, .cap (ownCap p)⟩ ∈ t.out) ∧
    (testSignature s.boot.sect ≠ s.signature → wrong = [] → s.hl.pass = false → (∃ i < 1152, (s.unit 2 i).state = 0) →
      ∃ t, exec (.latticeSelfTest wrong) s = .next t ∧ t.boot.phase = .stopped)) ∧
  (∀ (s : State) (i : Nat) (v : W32), s.boot.phase = .step 4 → s.cfg.profile ≠ 2 → s.hl.pass = false → i < 1152 → i % 9 < 8 →
    (s.unit 2 i).state = 0 → testSignature s.boot.sect = s.signature → v ≠ s.signature →
    let r := 9 * (i / 9) + 8
    ((s.unit 2 r).state = 1 →
      ∃ t, exec (.latticeSelfTest [(i, v)]) s = .next t ∧ t.boot.phase = .step 5 ∧ replacedBy s t 2 i r) ∧
    (noReserve s 2 (i / 9) → ∃ t, exec (.latticeSelfTest [(i, v)]) s = .next t ∧ cannotReplace s t 0x8004 2 i))

/-! ### The timebase -/

/-- TICK announces the next pulse. A pulse without its tick, or whose tick does not follow the last one's by 65,536 while pulses are not
lost (log 58), is logged. The first of a lock sets the tick and raises nothing; one below the own tick leaves it, which never decreases
(log 14). Any other sets TB_STAT.offset; within step_limit it corrects TB_INC by at most slew_ppm and counts toward the lock, and the
second one in a row, 65,536 ticks after the first, locks, which in start-up ends step 6; further ahead the tick steps to the pulse's,
with 0x9002, and an instruction whose start tick it skips is late (R74, R75); where the own tick is ahead TB_INC is at its least, with
0x9002 once. HOLDOVER and the lock timeout raise 0x9003. A free-running timebase takes no pulse. The rounding of the offset is the
model's (log 14). -/
def Obligations.TimebaseFollowsPulses : Prop :=
  (∀ (s : State) (tick : W64), attends s → (s.port 34).state = 2 → ∃ t : State, exec (.tick 34 tick) s = .next t
    ∧ t = { s with tb := { s.tb with ann := some (tick, s.tickW) }, out := t.out, ports := t.ports } ∧ ∀ p, t.port p = s.port p) ∧
  (∀ (s : State) (tick at_ : W64), settled s → onTime s → s.tbFree = false → s.tb.ann = some (tick, at_) → s.now ≤ at_.toNat + 65536 →
    (∀ last own, s.tb.lastPulse = some (last, own) → own.toNat + s.tb.holdLim ≤ s.now ∨ tick.toNat = last.toNat + 65536) →
    let off : Int := (tick.toNat * 2 ^ 24 : Nat) - (s.tb.acc.toNat : Int)
    let lim : Int := (s.tb.stepLimit.toNat * 2 ^ 24 : Nat)
    let nominal := (nominalInc s.cfg.active.rootMhz).toNat
    let slew := nominal * s.tb.slew.toNat / 1000000
    let good := if s.tb.lastPulse.any (fun p => decide (tick.toNat ≠ p.1.toNat + 65536)) then 0 else s.tb.good
    ∃ t, exec .ptbPulse s = .next t ∧ t.tb.ann = none ∧ t.tb.lastPulse = some (tick, t.tickW) ∧ t.tb.holdLim = s.tb.holdover.toNat
      ∧ t.boot = s.boot ∧ (-(2 : Int) ^ 31 ≤ off / 65536 → off / 65536 < 2 ^ 31 → t.tb.offset = BitVec.ofInt 32 (off / 65536)) ∧
      (-lim ≤ off → off ≤ lim → t.tb.acc = s.tb.acc ∧ t.tb.good = good + 1 ∧ t.tb.steps = s.tb.steps ∧ t.tb.ahead = false
        ∧ t.tb.lock = (if 1 ≤ good then 2 else s.tb.lock) ∧ t.ft.log = s.ft.log
        ∧ (0 < off → nominal ≤ t.tb.inc.toNat ∧ t.tb.inc.toNat ≤ nominal + slew) ∧ (off = 0 → t.tb.inc.toNat = nominal)
        ∧ (off < 0 → nominal - slew ≤ t.tb.inc.toNat ∧ t.tb.inc.toNat ≤ nominal)) ∧
      (lim < off → t.tb.acc = tick.setWidth 88 <<< 24 ∧ t.tickW = tick ∧ t.tb.steps = satAdd s.tb.steps 1 ∧ t.tb.good = 0
        ∧ t.tb.ahead = false ∧ logs s t 0x9002 1 (BitVec.ofNat 64 (tick.toNat - s.now))
        ∧ t.tq = s.tq.map (fun q => if q.readyAt.isSome && q.startAt.any (fun a => decide (s.now < a.toNat ∧ a.toNat < tick.toNat))
            then { q with readyAt := some tick } else q)) ∧
      (off < -lim → t.tb.acc = s.tb.acc ∧ t.tb.good = 0 ∧ t.tb.steps = s.tb.steps ∧ t.tb.ahead = true ∧ t.tb.inc.toNat = nominal - slew
        ∧ (s.tb.ahead = false → logs s t 0x9002 1 0) ∧ (s.tb.ahead = true → t.ft = s.ft))) ∧
  (∀ s : State, settled s → onTime s → s.tbFree = false →
    (s.tb.ann = none ∨ (∃ tick at_ last own, s.tb.ann = some (tick, at_) ∧ s.tb.lastPulse = some (last, own) ∧ s.now < own.toNat + s.tb.holdLim
      ∧ tick.toNat ≠ last.toNat + 65536)) → ∃ t, exec .ptbPulse s = .next t ∧ logsOnly s t 0x6007 (infoPort 34 s.now)) ∧
  (∀ s : State, settled s → onTime s → s.tbFree = true → exec .ptbPulse s = .next s) ∧
  (∀ (s : State) (tick at_ : W64), s.boot.phase = .step 6 → s.cfg.switching = none → onTime s → s.tbFree = false → s.tb.lock = 1 →
    s.tb.ann = some (tick, at_) → s.now ≤ at_.toNat + 65536 →
    (s.tb.lastPulse = none → s.now < tick.toNat → ∃ t, exec .ptbPulse s = .next t ∧ t.tb.acc = tick.setWidth 88 <<< 24 ∧ t.tickW = tick ∧ t.tb.ann = none
      ∧ t.tb.lastPulse = some (tick, tick) ∧ t.tb.good = 0 ∧ t.tb.lock = 1 ∧ t.tb.steps = s.tb.steps ∧ t.ft = s.ft
      ∧ t.boot = { s.boot with lockFrom := s.boot.lockFrom + tick.toNat - s.now }) ∧
    (s.tb.lastPulse = none → tick.toNat ≤ s.now → ∃ t, exec .ptbPulse s = .next t ∧ t.tb.acc = s.tb.acc ∧ t.tb.ann = none
      ∧ t.tb.lastPulse = some (tick, s.tickW) ∧ t.tb.good = 0 ∧ t.tb.lock = 1 ∧ t.tb.steps = s.tb.steps ∧ t.ft = s.ft ∧ t.boot = s.boot) ∧
    (∀ last own, s.tb.lastPulse = some (last, own) → tick.toNat = last.toNat + 65536 → 1 ≤ s.tb.good →
      let off : Int := (tick.toNat * 2 ^ 24 : Nat) - (s.tb.acc.toNat : Int)
      let lim : Int := (s.tb.stepLimit.toNat * 2 ^ 24 : Nat)
      off ≤ lim → -lim ≤ off → ∃ t, exec .ptbPulse s = .next t ∧ t.tb.lock = 2 ∧ t.boot.phase = .ready ∧ t.svc.ready = true
        ∧ t.job.state = 0 ∧ t.cfg.step = 7 ∧ t.ft = s.ft)) ∧
  (∀ (s : State) (last own : W64), s.tb.lastPulse = some (last, own) → s.tb.lock ≠ 0 → s.tb.lock ≠ 3 → ticking s →
    own.toNat + s.tb.holdLim < 2 ^ 64 - 512 → ∃ t, exec .holdover s = .next t ∧ t.tb.lock = 3 ∧ t.tb.inc = s.tb.inc
      ∧ own.toNat + s.tb.holdLim ≤ t.now ∧ logs s t 0x9003 1 (BitVec.ofNat 64 (t.now - own.toNat))) ∧
  (∀ s : State, ticking s → s.boot.lockFrom + s.boot.lockLim < 2 ^ 64 - 512 →
    let since : Int := (s.tb.lastPulse.map (fun p => (p.2.toNat : Int))).getD s.boot.lockFrom
    (s.boot.phase = .step 6 → ∃ t, exec .timebaseLockTimeout s = .next t ∧ t.boot.phase = .ready ∧ t.svc.ready = true ∧ t.job.state = 0
      ∧ t.cfg.step = 7 ∧ (s.tb.lastPulse = none → t.tb.lock = 3) ∧ s.boot.lockFrom + s.boot.lockLim ≤ t.now
      ∧ logs s t 0x9003 1 (BitVec.ofInt 64 (t.now - since))) ∧
    (∀ n, s.boot.phase = .ready → s.cfg.switching = some (n, 5) → ∃ t, exec .timebaseLockTimeout s = .next t
      ∧ t.cfg = { s.cfg with switching := some (n, 6) } ∧ (s.tb.lastPulse = none → t.tb.lock = 3)
      ∧ s.boot.lockFrom + s.boot.lockLim ≤ t.now ∧ logs s t 0x9003 1 (BitVec.ofInt 64 (t.now - since))))

/-! ### Power, thermal inputs, monitors, scrub -/

namespace Sys2Proof.Claims

/-- The estimate of R606 as an exact number; a part with nothing available adds nothing. -/
def watts (s : State) (a : Activity) : Rat :=
  let part := fun (c : Rat) (r : Ratio) => c * (r.used : Rat) / (r.avail : Rat)
  20 + 3 / 16 * (s.onGroups.length : Rat) + 2 * (s.ramping : Rat) + part 120 a.lanes + part 25 a.pipes + part 55 a.regs
    + part 142 a.banks + part 30 a.ports

/-- 32 × the stress factor at a temperature in 1/4 °C (Table 16.3), halved in profile 3. -/
def stressStep (t : Int) (slow : Bool) : Nat :=
  (if t < 180 then 2 else if t < 220 then 4 else if t < 260 then 8 else if t < 300 then 16 else if t < 340 then 32
    else if t < 380 then 64 else if t < 420 then 128 else 256) / (if slow then 2 else 1)

/-- The sample is of an installed unit that the window measures: of each district's banks, the one whose turn it is (Table 16.2; with
which bank the rotation begins is the model's, log 8). -/
def inTurn (s : State) (m : Sample) : Prop :=
  m.kind.toNat < 6 ∧ m.index.toNat < unitInstalled m.kind.toNat ∧ (m.kind = 1 → m.index.toNat % 68 = s.now / 2 ^ 28 % 68)

end Sys2Proof.Claims

/-- The governor and the thermal pins. GOVERNOR_INTERVAL estimates the power, sets the thermal state from the hottest district, applies a
cap written, and sets the level and the calm count by `govern`. THERM_WARN_N holds its level for the interval's end. THERM_TRIP_N low
halts the job with 0x8005 and throttles; high lets the governor resume. That a repeated pin level changes nothing is the model's (log
10), as are the readings of log 22. -/
def Obligations.GovernorAndThermalPins : Prop :=
  (∀ (s : State) (a : Activity) (temps : List (Nat × BitVec 12)), s.boot.phase ≠ .inReset → ∃ (t : State) (P : Nat),
    exec (.governorInterval a temps) s = .next t ∧ watts s a ≤ (P : Rat) ∧ (P : Rat) < watts s a + 1 ∧ t.pw.estW = BitVec.ofNat 10 P ∧
    let T := t.pw.tmax.toInt
    let c := t.pw.capEff.toNat
    let least := min t.pw.capW.toNat s.cfg.active.capW.toNat
    let calm := if 16 * P ≤ 15 * c then s.pw.calm + 1 else 0
    let cool := t.pw.hard = false ∧ s.pw.trip = false
    (∀ k < 128, t.temp k ≤ T) ∧ (∃ k < 128, t.temp k = T ∧ t.pw.district = BitVec.ofNat 7 k)
    ∧ (t.pw.warn = true ↔ s.pw.warnPin = true ∨ 4 * (s.pw.softC.toNat : Int) ≤ T)
    ∧ (t.pw.hard = true ↔ if s.pw.hard then 4 * (s.pw.hardC.toNat : Int) - 20 ≤ T else 4 * (s.pw.hardC.toNat : Int) ≤ T)
    ∧ t.pw.capW = s.pw.capNew.getD s.pw.capW ∧ t.pw.capNew = none ∧ c = (if t.pw.warn then 3 * least / 4 else least)
    ∧ (¬ cool → t.pw.level = 1 ∧ t.pw.calm = 0)
    ∧ (cool → c < P → t.pw.level.toNat = max 1 (s.pw.level.toNat * c / P) ∧ t.pw.calm = 0)
    ∧ (cool → P ≤ c → calm = 4 → t.pw.level.toNat = min 16 (s.pw.level.toNat + 1) ∧ t.pw.calm = 0)
    ∧ (cool → P ≤ c → calm ≠ 4 → t.pw.level = s.pw.level ∧ t.pw.calm = calm)
    ∧ t.sb = s.sb ∧ t.job = s.job ∧ t.sp.mem = s.sp.mem) ∧
  (∀ (s : State) (level : Bool), s.boot.phase ≠ .inReset →
    exec (.thermWarnN level) s = .next { s with pw := { s.pw with warnPin := !level } } ∧
    exec (.thermTripN true) s = .next { s with pw := { s.pw with trip := false } } ∧
    (s.pw.trip = true → exec (.thermTripN false) s = .next s)) ∧
  (∀ s : State, s.boot.phase ≠ .inReset → s.pw.trip = false → s.job.state = 3 ∨ s.job.state = 4 → s.ft.halting = none →
    ∃ t, exec (.thermTripN false) s = .next t
    ∧ t.pw = { s.pw with trip := true, level := 1, calm := 0 } ∧ t.ft.code = 0x8005
    ∧ t.ft.info = BitVec.ofNat 64 (6 * 2 ^ 56 + s.pw.district.toNat) ∧ empty t ∧ t.job.state = 6) ∧
  (∀ s : State, s.boot.phase ≠ .inReset → s.pw.trip = false → s.job.state ≠ 3 → s.job.state ≠ 4 → ∃ t, exec (.thermTripN false) s = .next t
    ∧ t.pw = { s.pw with trip := true, level := 1, calm := 0 } ∧ t.job = s.job
    ∧ logs s t 0x8005 1 (BitVec.ofNat 64 (6 * 2 ^ 56 + s.pw.district.toNat)))

/-- MONITOR_WINDOW adds each district's stress once and applies its samples, of each district's banks only the one whose turn it is; a unit
that no such sample names keeps its values, and no mark is ever cleared. PATROL corrects a line of an ON group, or poisons it, and
counts the read once; a line that the scrub has not reached makes it wait. ECC_WRITE_BACK makes the write-back unless it was cancelled.
SCRUB_COMPLETE ends SCRUBBING, and what waited for the scrub goes on, the ZERO of a T.SPAD here, patrol last (R377, R402), and a pass
begins where any unit not yet RETIRED is marked failed, a spare too (R582). SUBSTITUTION_PASS_END puts the platform's reserve DPU in the
place of one in its snapshot, or raises 0x8002, and a failed one then leaves service; a pipe without a reserve takes its VC with it; a
spare becomes RETIRED, and nothing takes its place. That a write-back, a scrub end or a pass end which nothing awaits changes nothing is
the model's (log 10), as are the prediction readings (log 34), which bank of a district has its turn (log 8), no 0x8002 under HOLD (log
23) and the errors that PATROL keeps for a data pass (log 50). So are what the marks of spare and retired units do (log 98), the bytes
of a word that PATROL finds uncorrectable (log 104) and the patrol read that waits for the scrub (log 95). -/
def Obligations.MonitorsScrubAndSubstitution : Prop :=
  (∀ (s : State) (ms : List Sample), s.boot.phase ≠ .inReset → ticking s → (s.now / 2 ^ 28 + 1) * 2 ^ 28 < 2 ^ 64 - 512 →
    (ms.map (fun m => (m.kind, m.index))).Nodup →
    ∃ t, exec (.monitorWindow ms) s = .next t ∧ (s.now / 2 ^ 28 + 1) * 2 ^ 28 ≤ t.now ∧ t.hl.wearGen = s.hl.wearGen + 1 ∧
      (∀ k < 128, AL.getD t.hl.stress k 0 = AL.getD s.hl.stress k 0 + BitVec.ofNat 64 (stressStep (s.temp k) (s.cfg.profile = 3))) ∧
      (∀ m ∈ ms, inTurn s m →
        let u := s.unit m.kind.toNat m.index.toNat
        let v := t.unit m.kind.toNat m.index.toNat
        let b := natF v.baseline.toNat
        let d := ofF32 (fMul (fSub b (natF m.x.toNat)) (fPrim .rcp b))
        v.baseline = (if u.baseline = 0 then m.x else u.baseline) ∧ v.x = m.x ∧ v.state = u.state ∧ v.slot = u.slot ∧ v.borrower = u.borrower
          ∧ (v.warned = true ↔ u.warned = true ∨ v.remH.toNat ≤ s.hl.warnH.toNat)
          ∧ (v.failed = true ↔ u.failed = true ∨ (d.isNan = false ∧ Val.lt d (ofF32 (dfailOf m.kind.toNat)) = false))) ∧
      ∀ kind k, k < 32768 → (∀ m ∈ ms, inTurn s m → ¬ (kind = m.kind.toNat ∧ k = m.index.toNat)) → t.unit kind k = s.unit kind k) ∧
  (∀ (s : State) (ms : List Sample), s.boot.phase ≠ .inReset → (∀ m ∈ ms, ¬ inTurn s m) →
    ∃ t, exec (.monitorWindow ms) s = .next t ∧ t.hl.wearGen = s.hl.wearGen + 1 ∧ ∀ kind k, t.unit kind k = s.unit kind k) ∧
  (∀ (s : State) (l : BitVec 22) (found : List EccFind), s.boot.phase ≠ .inReset →
    let line := 128 * l.toNat
    let soft := found.any (fun f => !f.uncorrectable)
    let hard := found.any (·.uncorrectable)
    s.groupOn (line / 2 ^ 21) = true → (∀ d ∈ s.sp.decay, d.1 / 128 * 128 ≠ line) → (found.map (·.word)).Nodup →
    (AL.getD s.sp.poison line 0 = 0 ∨ AL.getD s.sp.poison line 0 = 7) → ¬ unscrubbed s line →
    ((∀ f ∈ found, f.late = false) → ∃ t, exec (.patrol l found 0) s = .next t ∧ t.sp.mem = s.sp.mem
      ∧ t.psn line = (s.psn line || hard) ∧ (soft = true → line ∈ t.sp.wb)
      ∧ t.sp.corrected = (if soft then satAdd s.sp.corrected 1 else s.sp.corrected)
      ∧ t.sp.uncorrected = (if hard then satAdd s.sp.uncorrected 1 else s.sp.uncorrected)
      ∧ (hard = true → t.sp.eccValid = true ∧ (s.sp.eccValid = false → t.sp.eccAddr = BitVec.ofNat 48 line) ∧ t.ft.log = s.ft.log)
      ∧ (hard = false → t.ft = s.ft)) ∧
    (∀ copy ∈ [(1 : BitVec 3), 2, 4], ∃ t, exec (.patrol l [] copy) s = .next t ∧ t.sp.mem = s.sp.mem ∧ t.psn line = s.psn line
      ∧ t.sp.corrected = satAdd s.sp.corrected 1 ∧ t.sp.uncorrected = s.sp.uncorrected ∧ line ∈ t.sp.wb ∧ t.ft = s.ft) ∧
    (∀ w : BitVec 4, ∃ t, exec (.patrol l [⟨w, true, true⟩] 0) s = .next t ∧ t = { s with sp := { s.sp with spoil := t.sp.spoil } }
      ∧ ∀ a, a ∈ t.sp.spoil ↔ a ∈ s.sp.spoil ∨ a = line + 8 * w.toNat)) ∧
  (∀ (s : State) (l : BitVec 22) (found : List EccFind) (copies : BitVec 3), s.boot.phase ≠ .inReset →
    s.groupOn (128 * l.toNat / 2 ^ 21) = false → exec (.patrol l found copies) s = .next s) ∧
  (∀ (s : State) (l : BitVec 22) (found : List EccFind) (copies : BitVec 3), s.boot.phase ≠ .inReset →
    s.groupOn (128 * l.toNat / 2 ^ 21) = true → unscrubbed s (128 * l.toNat) → exec (.patrol l found copies) s = .next
      { s with xf := { s.xf with parked := s.xf.parked ++ [.patrol (128 * l.toNat) found copies] } }) ∧
  (∀ (s : State) (l : BitVec 22), s.sp.scrubRun = true → s.tq = [] → s.sb.wait = none → s.sb.waitReg = none → s.cmd.heldLoad = none →
    s.job.state ≠ 8 → (∀ f ∈ s.fl, f.prog = .idle) → s.groupOn (128 * l.toNat / 2 ^ 21) = true → s.sp.decay = [] → s.sp.poison = [] →
    s.xf.parked = [.patrol (128 * l.toNat) [⟨0, true, false⟩] 0] → ∃ t, exec .scrubComplete s = .next t ∧ t.sp.scrubRun = false
      ∧ t.xf.parked = [] ∧ t.psn (128 * l.toNat) = true ∧ t.sp.uncorrected = satAdd s.sp.uncorrected 1) ∧
  (∀ (s : State) (l : BitVec 22), 
    let line := 128 * l.toNat
    (s.sp.wb.contains line = false → exec (.eccWriteBack l) s = .next s) ∧
    (s.sp.wb.contains line = true → ∃ t, exec (.eccWriteBack l) s = .next t
      ∧ t = { s with sp := { s.sp with wb := t.sp.wb, decay := t.sp.decay, poison := t.sp.poison } }
      ∧ (∀ k, t.psn k = s.psn k) ∧ (t.sp.poison.Pairwise (fun a b => a.1 < b.1) ∨ ¬ s.sp.poison.Pairwise (fun a b => a.1 < b.1))
      ∧ (AL.getD t.sp.poison line 0 = 0 ∨ AL.getD t.sp.poison line 0 = 7) ∧ line ∉ t.sp.wb ∧ (∀ k ≠ line, k ∈ t.sp.wb ↔ k ∈ s.sp.wb)
      ∧ ∀ d, d ∈ t.sp.decay ↔ d ∈ s.sp.decay ∧ (d.1 / 128 * 128 ≠ line ∨ d.2 = true))) ∧
  (∀ s : State, s.sp.scrubRun = true → s.tq = [] → s.sb.wait = none → s.sb.waitReg = none → s.cmd.heldLoad = none → s.xf.parked = [] →
    (∀ f ∈ s.fl, f.prog = .idle) → ∃ t, exec .scrubComplete s = .next t
    ∧ t.sp.scrubRun = false ∧ t.sp.scrubWm = 32768 ∧ t.job = { s.job with state := if s.job.state = 8 then 0 else s.job.state }
    ∧ t.sp.mem = s.sp.mem ∧ t.sb = s.sb
    ∧ (s.job.state = 8 → s.hl.pass = false → t.hl.pass = s.markPending
        ∧ ((∃ e ∈ s.hl.units, e.2.failed = true ∧ e.2.state ≠ 2) → t.hl.pass = true))) ∧
  (∀ (s : State) (q : QEntry) (at_ : W64) (l : BitVec 22), s.sp.scrubRun = true → s.tq = [] → s.sb.wait = none → s.sb.waitReg = none →
    s.cmd.heldLoad = none → s.job.state = 4 → s.sp.suspects = [] → s.fl = [⟨q, at_, none, false, false, [], .scrub⟩] → q.w.toInstr = .zero q.w →
    q.w.commit = false → l.toNat / 2 ^ 14 ∈ spadGroups q.w → s.groupOn (l.toNat / 2 ^ 14) = true →
    s.xf.parked = [.patrol (128 * l.toNat) [⟨0, true, false⟩] 0] → ∃ t, exec .scrubComplete s = .next t
      ∧ t.fl = [⟨q, at_, some t.tickW, false, false, [], .idle⟩] ∧ t.xf.parked = [] ∧ t.psn (128 * l.toNat) = true
      ∧ ∀ a, t.sp.mem.read a = if a / 2 ^ 21 ∈ spadGroups q.w then 0 else s.sp.mem.read a) ∧
  (∀ s : State, s.sp.scrubRun = false → exec .scrubComplete s = .next s) ∧
  (∀ (s : State) (p slot : Nat) (failed : Bool), p < 128 → slot < 8 → s.hl.pass = true → s.cmd.heldLoad = none →
    s.hl.snap = [(2 * 32768 + (9 * p + slot), failed)] →
    let u := s.unit 2 (9 * p + slot)
    let x := s.unit 2 (9 * p + 8)
    let free := x.state = 1 ∧ 2 * 32768 + (9 * p + 8) ∉ s.hl.snapMarks
    u.state = 0 → ∃ t, exec .substitutionPassEnd s = .next t ∧ t.hl.pass = false ∧ t.hl.snap = [] ∧ t.hl.wearGen = s.hl.wearGen + 1
      ∧ t.hl.snapMarks = [] ∧ t.sp.distTab = t.buildTable ∧ t.sp.distHash = tableHash t.sp.distTab ∧ t.sp.mem = s.sp.mem
      ∧ (s.policy ≠ 2 → free → (t.unit 2 (9 * p + slot)).state = 2 ∧ (t.unit 2 (9 * p + 8)).state = 0
          ∧ (t.unit 2 (9 * p + 8)).slot.toNat = slot ∧ t.serving 2 p slot = some (9 * p + 8) ∧ t.ft = s.ft)
      ∧ (s.policy ≠ 2 → ¬ free → (t.unit 2 (9 * p + slot)).state = (if failed then 2 else 0)
          ∧ logs s t 0x8002 1 (BitVec.ofNat 64 (2 * 2 ^ 56 + (9 * p + slot))))
      ∧ (s.policy = 2 → (t.unit 2 (9 * p + slot)).state = (if failed then 2 else 0) ∧ t.ft = s.ft)) ∧
  (∀ (s : State) (v slot : Nat), v < 2176 → slot < 8 → s.hl.pass = true → s.cmd.heldLoad = none → s.policy ≠ 2 →
    s.hl.snap = [(3 * 32768 + (9 * v + slot), true)] → (s.unit 3 (9 * v + slot)).state = 0 → (s.unit 3 (9 * v + 8)).state ≠ 1 →
    ∃ t, exec .substitutionPassEnd s = .next t ∧ (t.unit 0 v).state = 2 ∧ (∀ k < 9, (t.unit 3 (9 * v + k)).state = 2)
      ∧ logs s t 0x8002 1 (BitVec.ofNat 64 (3 * 2 ^ 56 + (9 * v + slot)))) ∧
  (∀ (s : State) (i : Nat) (failed : Bool), i < 1152 → s.hl.pass = true → s.cmd.heldLoad = none →
    s.hl.snap = [(2 * 32768 + i, failed)] → (s.unit 2 i).state = 1 → ∃ t, exec .substitutionPassEnd s = .next t ∧ t.hl.pass = false
      ∧ (t.unit 2 i).state = 2 ∧ t.ft = s.ft ∧ ∀ kind k, k < 32768 → ¬ (kind = 2 ∧ k = i) → t.unit kind k = s.unit kind k) ∧
  (∀ s : State, s.hl.pass = false → s.cmd.heldLoad = none → exec .substitutionPassEnd s = .next s)

/-! ### Timeouts -/

namespace Sys2Proof.Claims

/-- At time `due`, or at once if it has passed, a halt fault is recorded at the instruction `f`. -/
def haltsAt (t : State) (f : QEntry) (due : Nat) (code : BitVec 16) (info : W64) : Prop :=
  due ≤ t.now ∧ t.ft.valid = true ∧ t.ft.code = code ∧ t.ft.info = info ∧ t.ft.pc = f.pc ∧ t.ft.seq = BitVec.ofNat 32 f.seq

/-- Time can go on to `due`. -/
def reachable (s : State) (due : Nat) : Prop := ticking s ∧ due < 2 ^ 64 - 512

/-- The code of a response that does not come, by port (Table 10.9). -/
def lateFault (p : Nat) : BitVec 16 := if 6 ≤ p ∧ p ≤ 21 then 0x6002 else if p = 31 ∨ p = 32 then 0x6005 else 0x6003

/-- Info format Y. -/
def infoYard (coll chunk chip slot : Nat) : W64 := BitVec.ofNat 64 (coll * 2 ^ 48 + chunk * 2 ^ 28 + chip * 2 ^ 16 + slot * 2 ^ 8)

end Sys2Proof.Claims

/-- The first wait that reaches its limit ends with the fault of its kind at its instruction, once the time comes: a matrix or intake port
0x6004, a transfer 0x6002, 0x6003 or 0x6005 by its port, a trigger or WAIT 0x6003, a claim 0x4003, a chunk 0x4004. The watchdog fires
once in a launch, in WAITING and RUNNING and while a KILL drains. Trace records that have waited 256 TCLK are dropped as one run. An
arrival finds every wait whose limit has come ended first; a remote write or a chunk also finds stored what waited for the scrub, and
completed and started what completes and starts at that tick (R432, R436, R463); a KILL finds everything done that was due (R537). That
a timeout with nothing waiting changes nothing is the model's (log 10), as are that an arrival row does itself what is due (log 3) and
the port that the 0x6003 of a trigger or a WAIT names (log 26). So is the limit of a request that waits at the head of its port (log
109). -/
def Obligations.WaitsEndAtTheirLimits : Prop :=
  (∀ (s : State) (due p : Nat) (o : Nat) (since : W64) (f : Inflight), mayHalt s → reachable s due →
    s.fl.find? (fun x => x.q.seq = o) = some f → p < 35 →
    (earliest s.stallWaits = some (due, .head p (some o) since) → ∃ t, exec .stallTimeout s = .next t
      ∧ haltsAt t f.q due 0x6004 (infoPort p since.toNat)) ∧
    (earliest s.stallWaits = some (due, .intake p o since) → ∃ t, exec .stallTimeout s = .next t
      ∧ haltsAt t f.q due 0x6004 (infoPort p since.toNat)) ∧
    (earliest s.xferWaits = some (due, .head p (some o) since) → ∃ t, exec .transferTimeout s = .next t
      ∧ haltsAt t f.q due (lateFault p) (infoPort p since.toNat)) ∧
    (∀ i r, r.owner = some o → r.port = p → earliest s.xferWaits = some (due, .req i r) → ∃ t,
      exec .transferTimeout s = .next t ∧ haltsAt t f.q due (lateFault p) (infoPort p r.since.toNat))) ∧
  (∀ (s : State) (i due : Nat) (r : Req), reachable s due → r.owner = none → earliest s.xferWaits = some (due, .req i r) →
    (s.port r.port).txq = [] → ∃ t, exec .transferTimeout s = .next t ∧ due ≤ t.now ∧ t.reqs = s.reqs.eraseIdx i ∧ t.job = s.job
      ∧ t.ft = s.ft) ∧
  (∀ (s : State) (x : TrigItem) (f : Inflight), mayHalt s → earliest s.trigWaits = some (x.since.toNat + x.limit, x) →
    s.fl.find? (fun f => some f.q.seq = x.owner) = some f → reachable s (x.since.toNat + x.limit) →
    ∃ t, exec .triggerAcceptanceTimeout s = .next t
      ∧ haltsAt t f.q (x.since.toNat + x.limit) 0x6003 (infoPort (s.trigPort.getD 22) x.since.toNat)) ∧
  (∀ (s : State) (f : Inflight) (c : Nat) (th : W32) (since : W64) (limit : Nat), mayHalt s → s.fl = [f] →
    f.prog = .trigWait c th since limit → reachable s (since.toNat + limit) → ∃ t, exec .waitTimeout s = .next t
      ∧ haltsAt t f.q (since.toNat + limit) 0x6003 (infoPort (s.trigPort.getD 22) since.toNat)) ∧
  (∀ (s : State) (f : Inflight) (since : W64) (limit : Nat), mayHalt s → s.fl = [f] → f.prog = .claim since limit →
    reachable s (since.toNat + limit) → ∃ t, exec .claimTimeout s = .next t ∧ haltsAt t f.q (since.toNat + limit) 0x4003
      (infoYard (f.q.w.imm32.toNat / 2 ^ 16) 0 s.job.chipId.toNat f.q.w.ys.toNat)) ∧
  (∀ (s : State) (f : Inflight) (c : CollProg), mayHalt s → s.fl = [f] → f.prog = .coll c → c.next < c.count → s.chunkReady f.q c = none →
    f.q.w.aux64.toNat % 2 ^ 20 + c.next < 2 ^ 20 → reachable s (c.since.toNat + c.limit) → ∃ t, exec .chunkWaitTimeout s = .next t
      ∧ haltsAt t f.q (c.since.toNat + c.limit) 0x4004 (infoYard (s.slot f.q.w.ys.toNat).coll.toNat
          (f.q.w.aux64.toNat % 2 ^ 20 + c.next) (s.consumer f.q) f.q.w.ys.toNat)) ∧
  (∀ (s : State) (x : HeldChunk), s.yd.held = [x] → s.mustHold x.hdr = true → s.fl = [] → reachable s (x.since.toNat + x.limit) →
    let info := infoYard x.hdr.coll.toNat x.hdr.chunk.toNat x.hdr.sender.toNat x.hdr.slot.toNat
    ∃ t, exec .frameHoldTimeout s = .next t ∧ x.since.toNat + x.limit ≤ t.now ∧ t.yd.held = [] ∧ t.yd.refused = satAdd s.yd.refused 1
      ∧ t.slot x.hdr.slot.toNat = { s.slot x.hdr.slot.toNat with pend := some info }
      ∧ logs s t 0x4003 1 info
      ∧ (x.owner = none → (s.port x.port).state = 2 → ∃ m ∈ t.out.drop s.out.length, m.port = x.port
          ∧ m.msg = .answer (BitVec.ofNat 64 (2 * 2 ^ 61 + s.job.chipId.toNat * 2 ^ 44 + x.hdr.stamp.toNat)))) ∧
  (∀ s : State, (s.stallWaits = [] → exec .stallTimeout s = .next s) ∧ (s.xferWaits = [] → exec .transferTimeout s = .next s)
    ∧ (s.yd.trigs = [] → exec .triggerAcceptanceTimeout s = .next s) ∧ (s.waitWaits = [] → exec .waitTimeout s = .next s)
    ∧ (s.claimWaits = [] → exec .claimTimeout s = .next s) ∧ (s.holdWaits = [] → exec .frameHoldTimeout s = .next s)
    ∧ (s.chunkWaits = [] → exec .chunkWaitTimeout s = .next s)) ∧
  (∀ s : State, s.job.state = 3 ∨ s.job.state = 4 → s.ft.halting = none → s.job.wdog ≠ 0 → s.job.wdogDone = false → reachable s (s.job.launch.toNat + s.job.wdog.toNat) → ∃ t, exec .jobWatchdog s = .next t
    ∧ s.job.launch.toNat + s.job.wdog.toNat ≤ t.now ∧ t.ft.code = 0x9004 ∧ t.ft.info = s.job.wdog.setWidth 64 ∧ empty t ∧ t.job.state = 6) ∧
  (∀ s : State, s.job.wdog = 0 ∨ s.job.wdogDone = true ∨ (s.job.state ≠ 3 ∧ s.job.state ≠ 4) → exec .jobWatchdog s = .next s) ∧
  (∀ s : State,
    let late := s.tr.pend.filter (fun r => decide (256 ≤ r.age))
    (late = [] → exec .traceEntryTimeout s = .next s) ∧
    (∀ x rest, late = x :: rest → ∃ t, exec .traceEntryTimeout s = .next t
      ∧ t = { s with tr := { s.tr with pend := s.tr.pend.filter (fun r => decide (r.age < 256)), lost := t.tr.lost, loss := t.tr.loss } }
      ∧ t.tr.lost.toNat = min (2 ^ 32 - 1) (s.tr.lost.toNat + late.length)
      ∧ t.tr.loss = match s.tr.loss with | none => some (x.tick, late.length) | some (k, n) => some (k, n + late.length))) ∧
  (∀ s : State, firstDue limitActs s.expire = none →
    (∀ p w, exec (.cap p w) s = exec (.cap p w) s.expire ∧ exec (.confirm p w) s = exec (.confirm p w) s.expire
      ∧ exec (.credit p w) s = exec (.credit p w) s.expire ∧ exec (.answer p w) s = exec (.answer p w) s.expire) ∧
    exec .ptbPulse s = exec .ptbPulse s.expire ∧ (∀ p b, exec (.event p b) s = exec (.event p b) s.expire) ∧
    (∀ p h d, exec (.accTile p h d) s = exec (.accTile p h d) s.expire) ∧
    ∀ p h d, exec (.mresp p h d) s = exec (.mresp p h d) s.expire) ∧
  (∀ s : State, firstDue limitActs s.beforeArrival = none → firstDue arriveActs s.beforeArrival = none →
    (∀ p h d, exec (.rwrite p h d) s = exec (.rwrite p h d) s.beforeArrival) ∧
    ∀ p h d, exec (.chunk p h d) s = exec (.chunk p h d) s.beforeArrival) ∧
  (∀ (s t : State), firstDue limitActs s = none → firstDue arriveActs s = some t → ∃ k, s.beforeArrival = runDue arriveActs k t) ∧
  (∀ s : State, firstDue dueActs s.settle = none → ∀ p j, exec (.kill p j) s = exec (.kill p j) s.settle) ∧
  (∀ (s t : State), firstDue limitActs s = some t → ∃ k, s.expire = runDue limitActs k t)
end

