-- ==== Sys2Proof/Laws/Memory.lean ====
section
/-! SUPPORT. Sparse maps and byte memory: read after write, what a write leaves alone, and that every memory operation keeps
the canonical form. -/

namespace Sys2Proof.Machine

/-! ### Sparse maps -/

@[simp] theorem AL.get?_put {α : Type} (m : AL α) (k j : Nat) (v : α) :
    AL.get? (AL.put m k v) j = if k = j then some v else AL.get? m j := by
  induction m with
  | nil => simp [AL.put, AL.get?]
  | cons p r ih =>
    obtain ⟨x, y⟩ := p
    simp only [AL.put]
    split
    · simp [AL.get?]
    · split
      · rename_i _ h; subst h; simp only [AL.get?]; split <;> rfl
      · rename_i h1 h2
        simp only [AL.get?, ih]
        by_cases hx : x = j
        · subst hx; simp [h2]
        · simp [hx]

@[simp] theorem AL.getD_put {α : Type} (m : AL α) (k j : Nat) (v d : α) :
    AL.getD (AL.put m k v) j d = if k = j then v else AL.getD m j d := by
  unfold AL.getD; rw [AL.get?_put]; split <;> rfl

theorem AL.get?_del {α : Type} (m : AL α) (k j : Nat) :
    AL.get? (AL.del m k) j = if j = k then none else AL.get? m j := by
  induction m with
  | nil => simp [AL.del, AL.get?]
  | cons p r ih =>
    obtain ⟨x, y⟩ := p
    unfold AL.del at ih ⊢
    by_cases hx : x = k
    · subst hx
      simp only [List.filter_cons, ne_eq, not_true_eq_false, decide_false, Bool.false_eq_true, if_false, ih, AL.get?]
      by_cases hj : j = x
      · simp [hj]
      · have : x ≠ j := fun h => hj h.symm
        simp [hj, this]
    · simp only [List.filter_cons, ne_eq, hx, not_false_eq_true, decide_true, if_true, AL.get?, ih]
      by_cases hj : x = j
      · subst hj; simp [hx]
      · simp [hj]

/-! ### One byte -/

@[simp] theorem Mem.read_nil (a : Nat) : Mem.read [] a = 0 := rfl

theorem Memory.wfFrom_mono {m : Mem} {lo lo' : Nat} (h : lo' ≤ lo) (w : Memory.wfFrom lo m = true) :
    Memory.wfFrom lo' m = true := by
  cases m with
  | nil => rfl
  | cons c r =>
    obtain ⟨x, y⟩ := c
    simp only [Memory.wfFrom, Bool.and_eq_true, decide_eq_true_eq] at w ⊢
    exact ⟨⟨by omega, w.1.2⟩, w.2⟩

/-- Below its first possible address a memory reads 0. -/
theorem Mem.read_below {m : Mem} {lo a : Nat} (w : Memory.wfFrom lo m = true) (h : a < lo) : Mem.read m a = 0 := by
  induction m generalizing lo with
  | nil => rfl
  | cons c r ih =>
    obtain ⟨x, y⟩ := c
    simp only [Memory.wfFrom, Bool.and_eq_true, decide_eq_true_eq] at w
    have hx : x ≠ a := by omega
    simp only [Mem.read, hx, if_false]
    exact ih w.2 (by omega)

/-- A write keeps the canonical form. -/
theorem Memory.wfFrom_write {m : Mem} {lo a : Nat} {b : Byte} (w : Memory.wfFrom lo m = true) (h : lo ≤ a) :
    Memory.wfFrom lo (Mem.write m a b) = true := by
  induction m generalizing lo with
  | nil =>
    simp only [Mem.write]
    split
    · rfl
    · rename_i hb
      simpa [Memory.wfFrom, h] using hb
  | cons c r ih =>
    obtain ⟨x, y⟩ := c
    have w' := w
    simp only [Memory.wfFrom, Bool.and_eq_true, decide_eq_true_eq] at w
    simp only [Mem.write]
    split
    · split
      · exact w'
      · rename_i h1 h2
        simp only [Memory.wfFrom, Bool.and_eq_true, decide_eq_true_eq]
        exact ⟨⟨h, h2⟩, ⟨⟨by omega, w.1.2⟩, w.2⟩⟩
    · split
      · split
        · exact Memory.wfFrom_mono (by omega) w.2
        · rename_i h1 h2 h3
          subst h2
          simp only [Memory.wfFrom, Bool.and_eq_true, decide_eq_true_eq]
          exact ⟨⟨h, h3⟩, w.2⟩
      · simp only [Memory.wfFrom, Bool.and_eq_true, decide_eq_true_eq]
        exact ⟨w.1, ih w.2 (by omega)⟩

theorem Memory.wf_write {m : Mem} {a : Nat} {b : Byte} (w : Memory.wf m = true) : Memory.wf (Mem.write m a b) = true :=
  Memory.wfFrom_write w (Nat.zero_le a)

/-- A read after a write. -/
theorem Mem.read_write_from {m : Mem} {lo a j : Nat} {b : Byte} (w : Memory.wfFrom lo m = true) :
    Mem.read (Mem.write m a b) j = if j = a then b else Mem.read m j := by
  induction m generalizing lo with
  | nil =>
    simp only [Mem.write]
    split
    · rename_i h; subst h; simp
    · simp only [Mem.read]
      by_cases hj : j = a
      · simp [hj]
      · have : a ≠ j := fun h => hj h.symm
        simp [hj, this]
  | cons c r ih =>
    obtain ⟨x, y⟩ := c
    simp only [Memory.wfFrom, Bool.and_eq_true, decide_eq_true_eq] at w
    simp only [Mem.write]
    by_cases h1 : a < x
    · have hlow : Mem.read ((x, y) :: r) a = 0 := by
        have : x ≠ a := by omega
        simp only [Mem.read, this, if_false]
        exact Mem.read_below w.2 (by omega)
      simp only [h1, if_true]
      split
      · rename_i hb; subst hb
        by_cases hj : j = a
        · subst hj; simp [hlow]
        · simp [hj]
      · by_cases hj : j = a
        · subst hj; simp [Mem.read]
        · have : a ≠ j := fun h => hj h.symm
          rw [Mem.read]; simp [hj, this]
    · simp only [h1, if_false]
      by_cases h2 : a = x
      · subst h2
        simp only [if_true]
        split
        · rename_i hb; subst hb
          by_cases hj : j = a
          · subst hj; simp [Mem.read_below w.2 (Nat.lt_succ_self _)]
          · have : a ≠ j := fun h => hj h.symm
            simp [hj, Mem.read, this]
        · by_cases hj : j = a
          · subst hj; simp [Mem.read]
          · have : a ≠ j := fun h => hj h.symm
            simp [hj, Mem.read, this]
      · simp only [h2, if_false, Mem.read, ih w.2]
        by_cases hx : x = j
        · subst hx
          have : x ≠ a := fun h => h2 h.symm
          simp [this]
        · simp [hx]

theorem Mem.read_write {m : Mem} (w : Memory.wf m = true) (a j : Nat) (b : Byte) :
    Mem.read (Mem.write m a b) j = if j = a then b else Mem.read m j := Mem.read_write_from w

/-! ### Byte ranges -/

theorem Memory.wf_writeBytes {m : Mem} (w : Memory.wf m = true) (a : Nat) (bs : List Byte) :
    Memory.wf (Mem.writeBytes m a bs) = true := by
  induction bs generalizing m a with
  | nil => exact w
  | cons b r ih => exact ih (Memory.wf_write w) _

/-- A byte of memory after a byte range is written. -/
theorem Mem.read_writeBytes {m : Mem} (w : Memory.wf m = true) (a j : Nat) (bs : List Byte) :
    Mem.read (Mem.writeBytes m a bs) j =
      if a ≤ j ∧ j < a + bs.length then bs.getD (j - a) 0 else Mem.read m j := by
  induction bs generalizing m a with
  | nil => simp [Mem.writeBytes]
  | cons b r ih =>
    rw [Mem.writeBytes, ih (Memory.wf_write w), Mem.read_write w]
    by_cases h0 : j = a
    · subst h0; simp
    · by_cases h1 : a + 1 ≤ j ∧ j < a + 1 + r.length
      · have h2 : a ≤ j ∧ j < a + (r.length + 1) := by omega
        have h3 : j - a = (j - (a + 1)) + 1 := by omega
        simp only [h1, and_self, if_true, List.length_cons, h2, h3]
        simp
      · have h2 : ¬ (a ≤ j ∧ j < a + (r.length + 1)) := by omega
        rw [if_neg h1, if_neg h0, List.length_cons, if_neg h2]

theorem Memory.wf_writeLE {m : Mem} (w : Memory.wf m = true) (a n v : Nat) : Memory.wf (Mem.writeLE m a n v) = true :=
  Memory.wf_writeBytes w _ _

@[simp] theorem leBytes_length (n v : Nat) : (leBytes n v).length = n := by
  induction n generalizing v with
  | zero => rfl
  | succ k ih => simp [leBytes, ih]

theorem leNat_leBytes (n v : Nat) : leNat (leBytes n v) = v % 256 ^ n := by
  induction n generalizing v with
  | zero => simp [leBytes, leNat, Nat.mod_one]
  | succ k ih =>
    simp only [leBytes, leNat, ih, BitVec.toNat_ofNat]
    rw [show (256 : Nat) ^ (k + 1) = 256 * 256 ^ k by rw [Nat.pow_succ]; ring, Nat.mod_mul]

/-- Outside the `n` bytes at `a` a store changes nothing. -/
theorem Mem.read_writeLE_other {m : Mem} (w : Memory.wf m = true) {a n v j : Nat} (h : j < a ∨ a + n ≤ j) :
    Mem.read (Mem.writeLE m a n v) j = Mem.read m j := by
  unfold Mem.writeLE
  rw [Mem.read_writeBytes w, leBytes_length]
  have : ¬ (a ≤ j ∧ j < a + n) := by omega
  simp [this]

theorem Mem.readBytes_writeBytes {m : Mem} (w : Memory.wf m = true) (a : Nat) (bs : List Byte) :
    Mem.readBytes (Mem.writeBytes m a bs) a bs.length = bs := by
  apply List.ext_getElem
  · simp [Mem.readBytes]
  · intro i h1 h2
    have h : a ≤ a + i ∧ a + i < a + bs.length := by omega
    simp [Mem.readBytes, Mem.read_writeBytes w, h2]

/-- A little-endian read of what a store wrote. -/
theorem Mem.readLE_writeLE {m : Mem} (w : Memory.wf m = true) (a n v : Nat) :
    Mem.readLE (Mem.writeLE m a n v) a n = v % 256 ^ n := by
  have h := Mem.readBytes_writeBytes w a (leBytes n v)
  rw [leBytes_length] at h
  unfold Mem.readLE Mem.writeLE
  rw [h, leNat_leBytes]

/-! ### Clearing and bit writes -/

theorem Memory.wfFrom_filter {m : Mem} {lo : Nat} (p : Host.Cell → Bool) (w : Memory.wfFrom lo m = true) :
    Memory.wfFrom lo (m.filter p) = true := by
  induction m generalizing lo with
  | nil => rfl
  | cons c r ih =>
    obtain ⟨x, y⟩ := c
    simp only [Memory.wfFrom, Bool.and_eq_true, decide_eq_true_eq] at w
    simp only [List.filter_cons]
    split
    · simp only [Memory.wfFrom, Bool.and_eq_true, decide_eq_true_eq]
      exact ⟨w.1, ih w.2⟩
    · exact Memory.wfFrom_mono (by omega) (ih w.2)

theorem Memory.wf_filter {m : Mem} (p : Host.Cell → Bool) (w : Memory.wf m = true) : Memory.wf (m.filter p) = true :=
  Memory.wfFrom_filter p w

/-- What a memory reads after some of its bytes are cleared. -/
theorem Mem.read_filter {m : Mem} {lo : Nat} (w : Memory.wfFrom lo m = true) (f : Nat → Bool) (a : Nat) :
    Mem.read (m.filter (fun c => f c.1)) a = if f a then Mem.read m a else 0 := by
  induction m generalizing lo with
  | nil => simp
  | cons c r ih =>
    obtain ⟨x, y⟩ := c
    simp only [Memory.wfFrom, Bool.and_eq_true, decide_eq_true_eq] at w
    simp only [List.filter_cons]
    by_cases hx : x = a
    · subst hx
      split
      · simp_all [Mem.read]
      · rename_i hf
        rw [ih w.2]; simp [hf]
    · split
      · simp only [Mem.read, hx, if_false]; exact ih w.2
      · rw [ih w.2]; simp [Mem.read, hx]

theorem Memory.wf_clear {m : Mem} (w : Memory.wf m = true) (lo hi : Nat) : Memory.wf (m.clear lo hi) = true :=
  Memory.wf_filter _ w

theorem Memory.wf_writeBits {m : Mem} (w : Memory.wf m = true) (a n v : Nat) : Memory.wf (m.writeBits a n v) = true :=
  Memory.wf_writeLE w _ _ _

/-- A bit write changes no byte outside the bytes that hold its bits. -/
theorem Mem.read_writeBits_other {m : Mem} (w : Memory.wf m = true) {a n v j : Nat} (h : 8 * j + 8 ≤ a ∨ a + n ≤ 8 * j) :
    Mem.read (m.writeBits a n v) j = Mem.read m j := by
  unfold Mem.writeBits
  by_cases hj : j < a / 8 ∨ a / 8 + cdiv (a % 8 + n) 8 ≤ j
  · exact Mem.read_writeLE_other w hj
  · exfalso; unfold cdiv at hj; omega

theorem Memory.wf_foldl_writeBits {m : Mem} (w : Memory.wf m = true) (ws : List BitW) :
    Memory.wf (ws.foldl (fun m b => m.writeBits b.at_ b.width b.val) m) = true := by
  induction ws generalizing m with
  | nil => exact w
  | cons b r ih => exact ih (Memory.wf_writeBits w _ _ _)

/-- A list of bit writes changes no byte outside the bytes that hold their bits. -/
theorem Mem.read_foldl_writeBits_other {m : Mem} (w : Memory.wf m = true) (ws : List BitW) {j : Nat}
    (h : ∀ b ∈ ws, 8 * j + 8 ≤ b.at_ ∨ b.at_ + b.width ≤ 8 * j) :
    Mem.read (ws.foldl (fun m b => m.writeBits b.at_ b.width b.val) m) j = Mem.read m j := by
  induction ws generalizing m with
  | nil => rfl
  | cons b r ih =>
    rw [List.foldl_cons, ih (Memory.wf_writeBits w _ _ _) (fun c hc => h c (List.mem_cons_of_mem _ hc)),
      Mem.read_writeBits_other w (h b List.mem_cons_self)]

end Sys2Proof.Machine
end

