-- ==== Sys2Proof/Laws/Bits.lean ====
section
/-! SUPPORT. Bit writes bit by bit: what each bit of the memory holds after a bit write and after a list of disjoint ones. -/

namespace Sys2Proof.Machine

/-- Bit `p` of the memory, counted from byte 0. -/
def Mem.bit (m : Mem) (p : Nat) : Bool := (Mem.read m (p / 8)).getLsbD (p % 8)

theorem leNat_testBit (bs : List Byte) (i : Nat) : (leNat bs).testBit i = (bs.getD (i / 8) 0).getLsbD (i % 8) := by
  induction bs generalizing i with
  | nil => simp [leNat]
  | cons b r ih =>
    have e : leNat (b :: r) = 2 ^ 8 * leNat r + b.toNat := by simp only [leNat]; omega
    rw [e, Nat.testBit_two_pow_mul_add _ b.isLt]
    by_cases h : i < 8
    · have h0 : i / 8 = 0 := by omega
      have h1 : i % 8 = i := by omega
      simp [h, h0, h1, BitVec.getLsbD]
    · have h0 : i / 8 = (i - 8) / 8 + 1 := by omega
      have h1 : i % 8 = (i - 8) % 8 := by omega
      rw [if_neg h, ih, h0, h1]; rfl

theorem Mem.readBytes_getD (m : Mem) (a n k : Nat) :
    (m.readBytes a n).getD k 0 = if k < n then m.read (a + k) else 0 := by
  unfold Mem.readBytes
  by_cases h : k < n
  · simp [h]
  · simp [h]

theorem Mem.readLE_testBit (m : Mem) (b n i : Nat) :
    (m.readLE b n).testBit i = (decide (i < 8 * n) && m.bit (8 * b + i)) := by
  unfold Mem.readLE Mem.bit
  rw [leNat_testBit, Mem.readBytes_getD]
  have h1 : (8 * b + i) / 8 = b + i / 8 := by omega
  have h2 : (8 * b + i) % 8 = i % 8 := by omega
  rw [h1, h2]
  by_cases h : i < 8 * n
  · have : i / 8 < n := by omega
    simp [h, this]
  · have : ¬ i / 8 < n := by omega
    simp [h, this]

theorem leBytes_getD (n v k : Nat) : (leBytes n v).getD k 0 = if k < n then BitVec.ofNat 8 (v / 256 ^ k) else 0 := by
  induction n generalizing v k with
  | zero => simp [leBytes]
  | succ n ih =>
    cases k with
    | zero => simp [leBytes]
    | succ k =>
      simp only [leBytes, List.getD_cons_succ, ih, Nat.add_lt_add_iff_right]
      rw [Nat.div_div_eq_div_mul, Nat.pow_succ, Nat.mul_comm]

theorem Mem.bit_writeLE {m : Mem} (w : Memory.wf m = true) (b n v p : Nat) :
    (m.writeLE b n v).bit p = if 8 * b ≤ p ∧ p < 8 * (b + n) then v.testBit (p - 8 * b) else m.bit p := by
  unfold Mem.bit Mem.writeLE
  rw [Mem.read_writeBytes w, leBytes_length]
  by_cases h : 8 * b ≤ p ∧ p < 8 * (b + n)
  · have h1 : b ≤ p / 8 ∧ p / 8 < b + n := by omega
    have h2 : p / 8 - b < n := by omega
    rw [if_pos h1, if_pos h, leBytes_getD, if_pos h2, BitVec.getLsbD_ofNat, show (256 : Nat) = 2 ^ 8 by rfl, ← Nat.pow_mul,
      Nat.testBit_div_two_pow]
    have h3 : p % 8 < 8 := Nat.mod_lt _ (by omega)
    have h4 : p % 8 + 8 * (p / 8 - b) = p - 8 * b := by omega
    simp [h3, h4]
  · have h1 : ¬ (b ≤ p / 8 ∧ p / 8 < b + n) := by omega
    rw [if_neg h1, if_neg h]

/-- A bit of the memory after a bit write. -/
theorem Mem.bit_writeBits {m : Mem} (wf : Memory.wf m = true) (a w v p : Nat) :
    (m.writeBits a w v).bit p = if a ≤ p ∧ p < a + w then v.testBit (p - a) else m.bit p := by
  unfold Mem.writeBits
  set b := a / 8 with hb
  set k := a % 8 with hk
  set n := cdiv (k + w) 8 with hn
  have hn8 : k + w ≤ 8 * n ∧ 8 * n < k + w + 8 := by unfold cdiv at hn; omega
  rw [Mem.bit_writeLE wf]
  set old := m.readLE b n with hold
  have hnew : ∀ i, (old % 2 ^ k + v % 2 ^ w * 2 ^ k + old / 2 ^ (k + w) * 2 ^ (k + w)).testBit i =
      if i < k then old.testBit i else if i < k + w then v.testBit (i - k) else old.testBit i := by
    intro i
    have e1 : old % 2 ^ k + v % 2 ^ w * 2 ^ k + old / 2 ^ (k + w) * 2 ^ (k + w) =
        2 ^ k * (2 ^ w * (old / 2 ^ (k + w)) + v % 2 ^ w) + old % 2 ^ k := by rw [Nat.pow_add]; ring
    rw [e1, Nat.testBit_two_pow_mul_add _ (Nat.mod_lt _ (Nat.two_pow_pos k))]
    by_cases h : i < k
    · simp [h, Nat.testBit_mod_two_pow]
    · rw [if_neg h, if_neg h, Nat.testBit_two_pow_mul_add _ (Nat.mod_lt _ (Nat.two_pow_pos w))]
      by_cases h2 : i < k + w
      · have : i - k < w := by omega
        simp [h2, this, Nat.testBit_mod_two_pow]
      · have : ¬ i - k < w := by omega
        rw [if_neg this, if_neg h2, Nat.testBit_div_two_pow]
        congr 1; omega
  by_cases h : 8 * b ≤ p ∧ p < 8 * (b + n)
  · rw [if_pos h, hnew]
    have hbit : old.testBit (p - 8 * b) = m.bit p := by
      rw [hold, Mem.readLE_testBit]
      have h1 : p - 8 * b < 8 * n := by omega
      have h2 : 8 * b + (p - 8 * b) = p := by omega
      simp [h1, h2]
    by_cases h1 : a ≤ p ∧ p < a + w
    · have h2 : ¬ p - 8 * b < k := by omega
      have h3 : p - 8 * b < k + w := by omega
      have h4 : p - 8 * b - k = p - a := by omega
      rw [if_neg h2, if_pos h3, if_pos h1, h4]
    · rw [if_neg h1]
      by_cases h2 : p - 8 * b < k
      · rw [if_pos h2, hbit]
      · have h3 : ¬ p - 8 * b < k + w := by omega
        rw [if_neg h2, if_neg h3, hbit]
  · have h1 : ¬ (a ≤ p ∧ p < a + w) := by omega
    rw [if_neg h, if_neg h1]

theorem Mem.readBits_testBit (m : Mem) (a w i : Nat) :
    (m.readBits a w).testBit i = (decide (i < w) && m.bit (a + i)) := by
  unfold Mem.readBits bitsOf
  rw [Nat.testBit_mod_two_pow, Nat.testBit_div_two_pow, Mem.readLE_testBit]
  have h2 : 8 * (a / 8) + (i + a % 8) = a + i := by omega
  rw [h2]
  by_cases h : i < w
  · have h1 : i + a % 8 < 8 * cdiv (a % 8 + w) 8 := by unfold cdiv; omega
    simp [h, h1]
  · simp [h]

/-- A read of the bits just written. -/
theorem Mem.readBits_writeBits {m : Mem} (wf : Memory.wf m = true) (a w v : Nat) :
    (m.writeBits a w v).readBits a w = v % 2 ^ w := by
  apply Nat.eq_of_testBit_eq
  intro i
  rw [Mem.readBits_testBit, Mem.bit_writeBits wf, Nat.testBit_mod_two_pow]
  by_cases h : i < w <;> simp [h]

/-- A read of bits that a bit write does not touch. -/
theorem Mem.readBits_writeBits_other {m : Mem} (wf : Memory.wf m = true) {a w v b n : Nat} (h : b + n ≤ a ∨ a + w ≤ b) :
    (m.writeBits a w v).readBits b n = m.readBits b n := by
  apply Nat.eq_of_testBit_eq
  intro i
  rw [Mem.readBits_testBit, Mem.readBits_testBit, Mem.bit_writeBits wf]
  by_cases hi : i < n
  · have : ¬ (a ≤ b + i ∧ b + i < a + w) := by omega
    simp [this]
  · simp [hi]

/-- Two bit writes touch no bit in common. -/
def BitW.apart (x y : BitW) : Prop := x.at_ + x.width ≤ y.at_ ∨ y.at_ + y.width ≤ x.at_

/-- Bits that none of the writes touches. -/
theorem Mem.readBits_foldl_other {m : Mem} (wf : Memory.wf m = true) (ws : List BitW) {b n : Nat}
    (h : ∀ x ∈ ws, b + n ≤ x.at_ ∨ x.at_ + x.width ≤ b) :
    (ws.foldl (fun m x => m.writeBits x.at_ x.width x.val) m).readBits b n = m.readBits b n := by
  induction ws generalizing m with
  | nil => rfl
  | cons x r ih =>
    rw [List.foldl_cons, ih (Memory.wf_writeBits wf _ _ _) (fun y hy => h y (List.mem_cons_of_mem _ hy)),
      Mem.readBits_writeBits_other wf (h x List.mem_cons_self)]

/-- After a list of writes of which no two touch a bit in common, every one of them reads back. -/
theorem Mem.readBits_foldl_apart {m : Mem} (wf : Memory.wf m = true) {ws : List BitW} (h : ws.Pairwise BitW.apart)
    {x : BitW} (hx : x ∈ ws) :
    (ws.foldl (fun m y => m.writeBits y.at_ y.width y.val) m).readBits x.at_ x.width = x.val % 2 ^ x.width := by
  induction ws generalizing m with
  | nil => cases hx
  | cons y r ih =>
    rw [List.pairwise_cons] at h
    rw [List.foldl_cons]
    rcases List.mem_cons.mp hx with rfl | hr
    · rw [Mem.readBits_foldl_other (Memory.wf_writeBits wf _ _ _) r (fun z hz => h.1 z hz), Mem.readBits_writeBits wf]
    · exact ih (Memory.wf_writeBits wf _ _ _) h.2 hr

end Sys2Proof.Machine
end

