-- ==== Sys2Proof/Laws/State.lean ====
section
/-! SUPPORT. What each update of the state leaves in each field: one lemma per field per update, for simp. -/

namespace Sys2Proof.Machine

/-! ### setPort -/

@[simp] theorem State.setPort_pending (s : State) (p : Nat) (q : Port) : (s.setPort p q).pending = s.pending := rfl
@[simp] theorem State.setPort_out (s : State) (p : Nat) (q : Port) : (s.setPort p q).out = s.out := rfl
@[simp] theorem State.setPort_freeCtr (s : State) (p : Nat) (q : Port) : (s.setPort p q).freeCtr = s.freeCtr := rfl
@[simp] theorem State.setPort_sb (s : State) (p : Nat) (q : Port) : (s.setPort p q).sb = s.sb := rfl
@[simp] theorem State.setPort_tq (s : State) (p : Nat) (q : Port) : (s.setPort p q).tq = s.tq := rfl
@[simp] theorem State.setPort_fl (s : State) (p : Nat) (q : Port) : (s.setPort p q).fl = s.fl := rfl
@[simp] theorem State.setPort_reqs (s : State) (p : Nat) (q : Port) : (s.setPort p q).reqs = s.reqs := rfl
@[simp] theorem State.setPort_job (s : State) (p : Nat) (q : Port) : (s.setPort p q).job = s.job := rfl
@[simp] theorem State.setPort_ar (s : State) (p : Nat) (q : Port) : (s.setPort p q).ar = s.ar := rfl
@[simp] theorem State.setPort_xp (s : State) (p : Nat) (q : Port) : (s.setPort p q).xp = s.xp := rfl
@[simp] theorem State.setPort_sp (s : State) (p : Nat) (q : Port) : (s.setPort p q).sp = s.sp := rfl
@[simp] theorem State.setPort_xf (s : State) (p : Nat) (q : Port) : (s.setPort p q).xf = s.xf := rfl
@[simp] theorem State.setPort_wins (s : State) (p : Nat) (q : Port) : (s.setPort p q).wins = s.wins := rfl
@[simp] theorem State.setPort_yd (s : State) (p : Nat) (q : Port) : (s.setPort p q).yd = s.yd := rfl
@[simp] theorem State.setPort_tb (s : State) (p : Nat) (q : Port) : (s.setPort p q).tb = s.tb := rfl
@[simp] theorem State.setPort_tr (s : State) (p : Nat) (q : Port) : (s.setPort p q).tr = s.tr := rfl
@[simp] theorem State.setPort_live (s : State) (p : Nat) (q : Port) : (s.setPort p q).live = s.live := rfl
@[simp] theorem State.setPort_snap (s : State) (p : Nat) (q : Port) : (s.setPort p q).snap = s.snap := rfl
@[simp] theorem State.setPort_ft (s : State) (p : Nat) (q : Port) : (s.setPort p q).ft = s.ft := rfl
@[simp] theorem State.setPort_svc (s : State) (p : Nat) (q : Port) : (s.setPort p q).svc = s.svc := rfl
@[simp] theorem State.setPort_boot (s : State) (p : Nat) (q : Port) : (s.setPort p q).boot = s.boot := rfl
@[simp] theorem State.setPort_cfg (s : State) (p : Nat) (q : Port) : (s.setPort p q).cfg = s.cfg := rfl
@[simp] theorem State.setPort_ports (s : State) (p : Nat) (q : Port) : (s.setPort p q).ports = AL.put s.ports p q := rfl
@[simp] theorem State.setPort_hl (s : State) (p : Nat) (q : Port) : (s.setPort p q).hl = s.hl := rfl
@[simp] theorem State.setPort_pw (s : State) (p : Nat) (q : Port) : (s.setPort p q).pw = s.pw := rfl
@[simp] theorem State.setPort_cmd (s : State) (p : Nat) (q : Port) : (s.setPort p q).cmd = s.cmd := rfl
@[simp] theorem State.setPort_bankJ (s : State) (p : Nat) (q : Port) : (s.setPort p q).bankJ = s.bankJ := rfl
@[simp] theorem State.setPort_bankK (s : State) (p : Nat) (q : Port) : (s.setPort p q).bankK = s.bankK := rfl

/-! ### setWindow -/

@[simp] theorem State.setWindow_pending (s : State) (w : Nat) (x : Window) : (s.setWindow w x).pending = s.pending := rfl
@[simp] theorem State.setWindow_out (s : State) (w : Nat) (x : Window) : (s.setWindow w x).out = s.out := rfl
@[simp] theorem State.setWindow_freeCtr (s : State) (w : Nat) (x : Window) : (s.setWindow w x).freeCtr = s.freeCtr := rfl
@[simp] theorem State.setWindow_sb (s : State) (w : Nat) (x : Window) : (s.setWindow w x).sb = s.sb := rfl
@[simp] theorem State.setWindow_tq (s : State) (w : Nat) (x : Window) : (s.setWindow w x).tq = s.tq := rfl
@[simp] theorem State.setWindow_fl (s : State) (w : Nat) (x : Window) : (s.setWindow w x).fl = s.fl := rfl
@[simp] theorem State.setWindow_reqs (s : State) (w : Nat) (x : Window) : (s.setWindow w x).reqs = s.reqs := rfl
@[simp] theorem State.setWindow_job (s : State) (w : Nat) (x : Window) : (s.setWindow w x).job = s.job := rfl
@[simp] theorem State.setWindow_ar (s : State) (w : Nat) (x : Window) : (s.setWindow w x).ar = s.ar := rfl
@[simp] theorem State.setWindow_xp (s : State) (w : Nat) (x : Window) : (s.setWindow w x).xp = s.xp := rfl
@[simp] theorem State.setWindow_sp (s : State) (w : Nat) (x : Window) : (s.setWindow w x).sp = s.sp := rfl
@[simp] theorem State.setWindow_xf (s : State) (w : Nat) (x : Window) : (s.setWindow w x).xf = s.xf := rfl
@[simp] theorem State.setWindow_wins (s : State) (w : Nat) (x : Window) : (s.setWindow w x).wins = AL.put s.wins w x := rfl
@[simp] theorem State.setWindow_yd (s : State) (w : Nat) (x : Window) : (s.setWindow w x).yd = s.yd := rfl
@[simp] theorem State.setWindow_tb (s : State) (w : Nat) (x : Window) : (s.setWindow w x).tb = s.tb := rfl
@[simp] theorem State.setWindow_tr (s : State) (w : Nat) (x : Window) : (s.setWindow w x).tr = s.tr := rfl
@[simp] theorem State.setWindow_live (s : State) (w : Nat) (x : Window) : (s.setWindow w x).live = s.live := rfl
@[simp] theorem State.setWindow_snap (s : State) (w : Nat) (x : Window) : (s.setWindow w x).snap = s.snap := rfl
@[simp] theorem State.setWindow_ft (s : State) (w : Nat) (x : Window) : (s.setWindow w x).ft = s.ft := rfl
@[simp] theorem State.setWindow_svc (s : State) (w : Nat) (x : Window) : (s.setWindow w x).svc = s.svc := rfl
@[simp] theorem State.setWindow_boot (s : State) (w : Nat) (x : Window) : (s.setWindow w x).boot = s.boot := rfl
@[simp] theorem State.setWindow_cfg (s : State) (w : Nat) (x : Window) : (s.setWindow w x).cfg = s.cfg := rfl
@[simp] theorem State.setWindow_ports (s : State) (w : Nat) (x : Window) : (s.setWindow w x).ports = s.ports := rfl
@[simp] theorem State.setWindow_hl (s : State) (w : Nat) (x : Window) : (s.setWindow w x).hl = s.hl := rfl
@[simp] theorem State.setWindow_pw (s : State) (w : Nat) (x : Window) : (s.setWindow w x).pw = s.pw := rfl
@[simp] theorem State.setWindow_cmd (s : State) (w : Nat) (x : Window) : (s.setWindow w x).cmd = s.cmd := rfl
@[simp] theorem State.setWindow_bankJ (s : State) (w : Nat) (x : Window) : (s.setWindow w x).bankJ = s.bankJ := rfl
@[simp] theorem State.setWindow_bankK (s : State) (w : Nat) (x : Window) : (s.setWindow w x).bankK = s.bankK := rfl

/-! ### setSlot -/

@[simp] theorem State.setSlot_pending (s : State) (i : Nat) (x : Slot) : (s.setSlot i x).pending = s.pending := rfl
@[simp] theorem State.setSlot_out (s : State) (i : Nat) (x : Slot) : (s.setSlot i x).out = s.out := rfl
@[simp] theorem State.setSlot_freeCtr (s : State) (i : Nat) (x : Slot) : (s.setSlot i x).freeCtr = s.freeCtr := rfl
@[simp] theorem State.setSlot_sb (s : State) (i : Nat) (x : Slot) : (s.setSlot i x).sb = s.sb := rfl
@[simp] theorem State.setSlot_tq (s : State) (i : Nat) (x : Slot) : (s.setSlot i x).tq = s.tq := rfl
@[simp] theorem State.setSlot_fl (s : State) (i : Nat) (x : Slot) : (s.setSlot i x).fl = s.fl := rfl
@[simp] theorem State.setSlot_reqs (s : State) (i : Nat) (x : Slot) : (s.setSlot i x).reqs = s.reqs := rfl
@[simp] theorem State.setSlot_job (s : State) (i : Nat) (x : Slot) : (s.setSlot i x).job = s.job := rfl
@[simp] theorem State.setSlot_ar (s : State) (i : Nat) (x : Slot) : (s.setSlot i x).ar = s.ar := rfl
@[simp] theorem State.setSlot_xp (s : State) (i : Nat) (x : Slot) : (s.setSlot i x).xp = s.xp := rfl
@[simp] theorem State.setSlot_sp (s : State) (i : Nat) (x : Slot) : (s.setSlot i x).sp = s.sp := rfl
@[simp] theorem State.setSlot_xf (s : State) (i : Nat) (x : Slot) : (s.setSlot i x).xf = s.xf := rfl
@[simp] theorem State.setSlot_wins (s : State) (i : Nat) (x : Slot) : (s.setSlot i x).wins = s.wins := rfl
@[simp] theorem State.setSlot_yd (s : State) (i : Nat) (x : Slot) : (s.setSlot i x).yd = { s.yd with slots := AL.put s.yd.slots i x } := rfl
@[simp] theorem State.setSlot_tb (s : State) (i : Nat) (x : Slot) : (s.setSlot i x).tb = s.tb := rfl
@[simp] theorem State.setSlot_tr (s : State) (i : Nat) (x : Slot) : (s.setSlot i x).tr = s.tr := rfl
@[simp] theorem State.setSlot_live (s : State) (i : Nat) (x : Slot) : (s.setSlot i x).live = s.live := rfl
@[simp] theorem State.setSlot_snap (s : State) (i : Nat) (x : Slot) : (s.setSlot i x).snap = s.snap := rfl
@[simp] theorem State.setSlot_ft (s : State) (i : Nat) (x : Slot) : (s.setSlot i x).ft = s.ft := rfl
@[simp] theorem State.setSlot_svc (s : State) (i : Nat) (x : Slot) : (s.setSlot i x).svc = s.svc := rfl
@[simp] theorem State.setSlot_boot (s : State) (i : Nat) (x : Slot) : (s.setSlot i x).boot = s.boot := rfl
@[simp] theorem State.setSlot_cfg (s : State) (i : Nat) (x : Slot) : (s.setSlot i x).cfg = s.cfg := rfl
@[simp] theorem State.setSlot_ports (s : State) (i : Nat) (x : Slot) : (s.setSlot i x).ports = s.ports := rfl
@[simp] theorem State.setSlot_hl (s : State) (i : Nat) (x : Slot) : (s.setSlot i x).hl = s.hl := rfl
@[simp] theorem State.setSlot_pw (s : State) (i : Nat) (x : Slot) : (s.setSlot i x).pw = s.pw := rfl
@[simp] theorem State.setSlot_cmd (s : State) (i : Nat) (x : Slot) : (s.setSlot i x).cmd = s.cmd := rfl
@[simp] theorem State.setSlot_bankJ (s : State) (i : Nat) (x : Slot) : (s.setSlot i x).bankJ = s.bankJ := rfl
@[simp] theorem State.setSlot_bankK (s : State) (i : Nat) (x : Slot) : (s.setSlot i x).bankK = s.bankK := rfl

/-! ### setGroup -/

@[simp] theorem State.setGroup_pending (s : State) (g : Nat) (x : Group) : (s.setGroup g x).pending = s.pending := rfl
@[simp] theorem State.setGroup_out (s : State) (g : Nat) (x : Group) : (s.setGroup g x).out = s.out := rfl
@[simp] theorem State.setGroup_freeCtr (s : State) (g : Nat) (x : Group) : (s.setGroup g x).freeCtr = s.freeCtr := rfl
@[simp] theorem State.setGroup_sb (s : State) (g : Nat) (x : Group) : (s.setGroup g x).sb = s.sb := rfl
@[simp] theorem State.setGroup_tq (s : State) (g : Nat) (x : Group) : (s.setGroup g x).tq = s.tq := rfl
@[simp] theorem State.setGroup_fl (s : State) (g : Nat) (x : Group) : (s.setGroup g x).fl = s.fl := rfl
@[simp] theorem State.setGroup_reqs (s : State) (g : Nat) (x : Group) : (s.setGroup g x).reqs = s.reqs := rfl
@[simp] theorem State.setGroup_job (s : State) (g : Nat) (x : Group) : (s.setGroup g x).job = s.job := rfl
@[simp] theorem State.setGroup_ar (s : State) (g : Nat) (x : Group) : (s.setGroup g x).ar = s.ar := rfl
@[simp] theorem State.setGroup_xp (s : State) (g : Nat) (x : Group) : (s.setGroup g x).xp = s.xp := rfl
@[simp] theorem State.setGroup_sp (s : State) (g : Nat) (x : Group) : (s.setGroup g x).sp = { s.sp with groups := AL.put s.sp.groups g x } := rfl
@[simp] theorem State.setGroup_xf (s : State) (g : Nat) (x : Group) : (s.setGroup g x).xf = s.xf := rfl
@[simp] theorem State.setGroup_wins (s : State) (g : Nat) (x : Group) : (s.setGroup g x).wins = s.wins := rfl
@[simp] theorem State.setGroup_yd (s : State) (g : Nat) (x : Group) : (s.setGroup g x).yd = s.yd := rfl
@[simp] theorem State.setGroup_tb (s : State) (g : Nat) (x : Group) : (s.setGroup g x).tb = s.tb := rfl
@[simp] theorem State.setGroup_tr (s : State) (g : Nat) (x : Group) : (s.setGroup g x).tr = s.tr := rfl
@[simp] theorem State.setGroup_live (s : State) (g : Nat) (x : Group) : (s.setGroup g x).live = s.live := rfl
@[simp] theorem State.setGroup_snap (s : State) (g : Nat) (x : Group) : (s.setGroup g x).snap = s.snap := rfl
@[simp] theorem State.setGroup_ft (s : State) (g : Nat) (x : Group) : (s.setGroup g x).ft = s.ft := rfl
@[simp] theorem State.setGroup_svc (s : State) (g : Nat) (x : Group) : (s.setGroup g x).svc = s.svc := rfl
@[simp] theorem State.setGroup_boot (s : State) (g : Nat) (x : Group) : (s.setGroup g x).boot = s.boot := rfl
@[simp] theorem State.setGroup_cfg (s : State) (g : Nat) (x : Group) : (s.setGroup g x).cfg = s.cfg := rfl
@[simp] theorem State.setGroup_ports (s : State) (g : Nat) (x : Group) : (s.setGroup g x).ports = s.ports := rfl
@[simp] theorem State.setGroup_hl (s : State) (g : Nat) (x : Group) : (s.setGroup g x).hl = s.hl := rfl
@[simp] theorem State.setGroup_pw (s : State) (g : Nat) (x : Group) : (s.setGroup g x).pw = s.pw := rfl
@[simp] theorem State.setGroup_cmd (s : State) (g : Nat) (x : Group) : (s.setGroup g x).cmd = s.cmd := rfl
@[simp] theorem State.setGroup_bankJ (s : State) (g : Nat) (x : Group) : (s.setGroup g x).bankJ = s.bankJ := rfl
@[simp] theorem State.setGroup_bankK (s : State) (g : Nat) (x : Group) : (s.setGroup g x).bankK = s.bankK := rfl

/-! ### setUnit -/

@[simp] theorem State.setUnit_pending (s : State) (k i : Nat) (u : UnitRec) : (s.setUnit k i u).pending = s.pending := rfl
@[simp] theorem State.setUnit_out (s : State) (k i : Nat) (u : UnitRec) : (s.setUnit k i u).out = s.out := rfl
@[simp] theorem State.setUnit_freeCtr (s : State) (k i : Nat) (u : UnitRec) : (s.setUnit k i u).freeCtr = s.freeCtr := rfl
@[simp] theorem State.setUnit_sb (s : State) (k i : Nat) (u : UnitRec) : (s.setUnit k i u).sb = s.sb := rfl
@[simp] theorem State.setUnit_tq (s : State) (k i : Nat) (u : UnitRec) : (s.setUnit k i u).tq = s.tq := rfl
@[simp] theorem State.setUnit_fl (s : State) (k i : Nat) (u : UnitRec) : (s.setUnit k i u).fl = s.fl := rfl
@[simp] theorem State.setUnit_reqs (s : State) (k i : Nat) (u : UnitRec) : (s.setUnit k i u).reqs = s.reqs := rfl
@[simp] theorem State.setUnit_job (s : State) (k i : Nat) (u : UnitRec) : (s.setUnit k i u).job = s.job := rfl
@[simp] theorem State.setUnit_ar (s : State) (k i : Nat) (u : UnitRec) : (s.setUnit k i u).ar = s.ar := rfl
@[simp] theorem State.setUnit_xp (s : State) (k i : Nat) (u : UnitRec) : (s.setUnit k i u).xp = s.xp := rfl
@[simp] theorem State.setUnit_sp (s : State) (k i : Nat) (u : UnitRec) : (s.setUnit k i u).sp = s.sp := rfl
@[simp] theorem State.setUnit_xf (s : State) (k i : Nat) (u : UnitRec) : (s.setUnit k i u).xf = s.xf := rfl
@[simp] theorem State.setUnit_wins (s : State) (k i : Nat) (u : UnitRec) : (s.setUnit k i u).wins = s.wins := rfl
@[simp] theorem State.setUnit_yd (s : State) (k i : Nat) (u : UnitRec) : (s.setUnit k i u).yd = s.yd := rfl
@[simp] theorem State.setUnit_tb (s : State) (k i : Nat) (u : UnitRec) : (s.setUnit k i u).tb = s.tb := rfl
@[simp] theorem State.setUnit_tr (s : State) (k i : Nat) (u : UnitRec) : (s.setUnit k i u).tr = s.tr := rfl
@[simp] theorem State.setUnit_live (s : State) (k i : Nat) (u : UnitRec) : (s.setUnit k i u).live = s.live := rfl
@[simp] theorem State.setUnit_snap (s : State) (k i : Nat) (u : UnitRec) : (s.setUnit k i u).snap = s.snap := rfl
@[simp] theorem State.setUnit_ft (s : State) (k i : Nat) (u : UnitRec) : (s.setUnit k i u).ft = s.ft := rfl
@[simp] theorem State.setUnit_svc (s : State) (k i : Nat) (u : UnitRec) : (s.setUnit k i u).svc = s.svc := rfl
@[simp] theorem State.setUnit_boot (s : State) (k i : Nat) (u : UnitRec) : (s.setUnit k i u).boot = s.boot := rfl
@[simp] theorem State.setUnit_cfg (s : State) (k i : Nat) (u : UnitRec) : (s.setUnit k i u).cfg = s.cfg := rfl
@[simp] theorem State.setUnit_ports (s : State) (k i : Nat) (u : UnitRec) : (s.setUnit k i u).ports = s.ports := rfl
@[simp] theorem State.setUnit_hl (s : State) (k i : Nat) (u : UnitRec) : (s.setUnit k i u).hl = { s.hl with units := AL.put s.hl.units (unitKey k i) u } := rfl
@[simp] theorem State.setUnit_pw (s : State) (k i : Nat) (u : UnitRec) : (s.setUnit k i u).pw = s.pw := rfl
@[simp] theorem State.setUnit_cmd (s : State) (k i : Nat) (u : UnitRec) : (s.setUnit k i u).cmd = s.cmd := rfl
@[simp] theorem State.setUnit_bankJ (s : State) (k i : Nat) (u : UnitRec) : (s.setUnit k i u).bankJ = s.bankJ := rfl
@[simp] theorem State.setUnit_bankK (s : State) (k i : Nat) (u : UnitRec) : (s.setUnit k i u).bankK = s.bankK := rfl

/-! ### setD -/

@[simp] theorem State.setD_pending (s : State) (i : Nat) (v : BitVec 256) : (s.setD i v).pending = s.pending := rfl
@[simp] theorem State.setD_out (s : State) (i : Nat) (v : BitVec 256) : (s.setD i v).out = s.out := rfl
@[simp] theorem State.setD_freeCtr (s : State) (i : Nat) (v : BitVec 256) : (s.setD i v).freeCtr = s.freeCtr := rfl
@[simp] theorem State.setD_sb (s : State) (i : Nat) (v : BitVec 256) : (s.setD i v).sb = { s.sb with d := AL.put s.sb.d i v } := rfl
@[simp] theorem State.setD_tq (s : State) (i : Nat) (v : BitVec 256) : (s.setD i v).tq = s.tq := rfl
@[simp] theorem State.setD_fl (s : State) (i : Nat) (v : BitVec 256) : (s.setD i v).fl = s.fl := rfl
@[simp] theorem State.setD_reqs (s : State) (i : Nat) (v : BitVec 256) : (s.setD i v).reqs = s.reqs := rfl
@[simp] theorem State.setD_job (s : State) (i : Nat) (v : BitVec 256) : (s.setD i v).job = s.job := rfl
@[simp] theorem State.setD_ar (s : State) (i : Nat) (v : BitVec 256) : (s.setD i v).ar = s.ar := rfl
@[simp] theorem State.setD_xp (s : State) (i : Nat) (v : BitVec 256) : (s.setD i v).xp = s.xp := rfl
@[simp] theorem State.setD_sp (s : State) (i : Nat) (v : BitVec 256) : (s.setD i v).sp = s.sp := rfl
@[simp] theorem State.setD_xf (s : State) (i : Nat) (v : BitVec 256) : (s.setD i v).xf = s.xf := rfl
@[simp] theorem State.setD_wins (s : State) (i : Nat) (v : BitVec 256) : (s.setD i v).wins = s.wins := rfl
@[simp] theorem State.setD_yd (s : State) (i : Nat) (v : BitVec 256) : (s.setD i v).yd = s.yd := rfl
@[simp] theorem State.setD_tb (s : State) (i : Nat) (v : BitVec 256) : (s.setD i v).tb = s.tb := rfl
@[simp] theorem State.setD_tr (s : State) (i : Nat) (v : BitVec 256) : (s.setD i v).tr = s.tr := rfl
@[simp] theorem State.setD_live (s : State) (i : Nat) (v : BitVec 256) : (s.setD i v).live = s.live := rfl
@[simp] theorem State.setD_snap (s : State) (i : Nat) (v : BitVec 256) : (s.setD i v).snap = s.snap := rfl
@[simp] theorem State.setD_ft (s : State) (i : Nat) (v : BitVec 256) : (s.setD i v).ft = s.ft := rfl
@[simp] theorem State.setD_svc (s : State) (i : Nat) (v : BitVec 256) : (s.setD i v).svc = s.svc := rfl
@[simp] theorem State.setD_boot (s : State) (i : Nat) (v : BitVec 256) : (s.setD i v).boot = s.boot := rfl
@[simp] theorem State.setD_cfg (s : State) (i : Nat) (v : BitVec 256) : (s.setD i v).cfg = s.cfg := rfl
@[simp] theorem State.setD_ports (s : State) (i : Nat) (v : BitVec 256) : (s.setD i v).ports = s.ports := rfl
@[simp] theorem State.setD_hl (s : State) (i : Nat) (v : BitVec 256) : (s.setD i v).hl = s.hl := rfl
@[simp] theorem State.setD_pw (s : State) (i : Nat) (v : BitVec 256) : (s.setD i v).pw = s.pw := rfl
@[simp] theorem State.setD_cmd (s : State) (i : Nat) (v : BitVec 256) : (s.setD i v).cmd = s.cmd := rfl
@[simp] theorem State.setD_bankJ (s : State) (i : Nat) (v : BitVec 256) : (s.setD i v).bankJ = s.bankJ := rfl
@[simp] theorem State.setD_bankK (s : State) (i : Nat) (v : BitVec 256) : (s.setD i v).bankK = s.bankK := rfl

/-! ### advance -/

@[simp] theorem State.advance_pending (s : State) : (s.advance).pending = s.pending := rfl
@[simp] theorem State.advance_out (s : State) : (s.advance).out = s.out := rfl
@[simp] theorem State.advance_freeCtr (s : State) : (s.advance).freeCtr = s.freeCtr := rfl
@[simp] theorem State.advance_sb (s : State) : (s.advance).sb = { s.sb with pc := s.sb.pc + 32 } := rfl
@[simp] theorem State.advance_tq (s : State) : (s.advance).tq = s.tq := rfl
@[simp] theorem State.advance_fl (s : State) : (s.advance).fl = s.fl := rfl
@[simp] theorem State.advance_reqs (s : State) : (s.advance).reqs = s.reqs := rfl
@[simp] theorem State.advance_job (s : State) : (s.advance).job = s.job := rfl
@[simp] theorem State.advance_ar (s : State) : (s.advance).ar = s.ar := rfl
@[simp] theorem State.advance_xp (s : State) : (s.advance).xp = s.xp := rfl
@[simp] theorem State.advance_sp (s : State) : (s.advance).sp = s.sp := rfl
@[simp] theorem State.advance_xf (s : State) : (s.advance).xf = s.xf := rfl
@[simp] theorem State.advance_wins (s : State) : (s.advance).wins = s.wins := rfl
@[simp] theorem State.advance_yd (s : State) : (s.advance).yd = s.yd := rfl
@[simp] theorem State.advance_tb (s : State) : (s.advance).tb = s.tb := rfl
@[simp] theorem State.advance_tr (s : State) : (s.advance).tr = s.tr := rfl
@[simp] theorem State.advance_live (s : State) : (s.advance).live = s.live := rfl
@[simp] theorem State.advance_snap (s : State) : (s.advance).snap = s.snap := rfl
@[simp] theorem State.advance_ft (s : State) : (s.advance).ft = s.ft := rfl
@[simp] theorem State.advance_svc (s : State) : (s.advance).svc = s.svc := rfl
@[simp] theorem State.advance_boot (s : State) : (s.advance).boot = s.boot := rfl
@[simp] theorem State.advance_cfg (s : State) : (s.advance).cfg = s.cfg := rfl
@[simp] theorem State.advance_ports (s : State) : (s.advance).ports = s.ports := rfl
@[simp] theorem State.advance_hl (s : State) : (s.advance).hl = s.hl := rfl
@[simp] theorem State.advance_pw (s : State) : (s.advance).pw = s.pw := rfl
@[simp] theorem State.advance_cmd (s : State) : (s.advance).cmd = s.cmd := rfl
@[simp] theorem State.advance_bankJ (s : State) : (s.advance).bankJ = s.bankJ := rfl
@[simp] theorem State.advance_bankK (s : State) : (s.advance).bankK = s.bankK := rfl

/-! ### flag -/

@[simp] theorem State.flag_pending (s : State) (f : BitVec 10) : (s.flag f).pending = s.pending := rfl
@[simp] theorem State.flag_out (s : State) (f : BitVec 10) : (s.flag f).out = s.out := rfl
@[simp] theorem State.flag_freeCtr (s : State) (f : BitVec 10) : (s.flag f).freeCtr = s.freeCtr := rfl
@[simp] theorem State.flag_sb (s : State) (f : BitVec 10) : (s.flag f).sb = s.sb := rfl
@[simp] theorem State.flag_tq (s : State) (f : BitVec 10) : (s.flag f).tq = s.tq := rfl
@[simp] theorem State.flag_fl (s : State) (f : BitVec 10) : (s.flag f).fl = s.fl := rfl
@[simp] theorem State.flag_reqs (s : State) (f : BitVec 10) : (s.flag f).reqs = s.reqs := rfl
@[simp] theorem State.flag_job (s : State) (f : BitVec 10) : (s.flag f).job = s.job := rfl
@[simp] theorem State.flag_ar (s : State) (f : BitVec 10) : (s.flag f).ar = { s.ar with flags := s.ar.flags ||| f } := rfl
@[simp] theorem State.flag_xp (s : State) (f : BitVec 10) : (s.flag f).xp = s.xp := rfl
@[simp] theorem State.flag_sp (s : State) (f : BitVec 10) : (s.flag f).sp = s.sp := rfl
@[simp] theorem State.flag_xf (s : State) (f : BitVec 10) : (s.flag f).xf = s.xf := rfl
@[simp] theorem State.flag_wins (s : State) (f : BitVec 10) : (s.flag f).wins = s.wins := rfl
@[simp] theorem State.flag_yd (s : State) (f : BitVec 10) : (s.flag f).yd = s.yd := rfl
@[simp] theorem State.flag_tb (s : State) (f : BitVec 10) : (s.flag f).tb = s.tb := rfl
@[simp] theorem State.flag_tr (s : State) (f : BitVec 10) : (s.flag f).tr = s.tr := rfl
@[simp] theorem State.flag_live (s : State) (f : BitVec 10) : (s.flag f).live = s.live := rfl
@[simp] theorem State.flag_snap (s : State) (f : BitVec 10) : (s.flag f).snap = s.snap := rfl
@[simp] theorem State.flag_ft (s : State) (f : BitVec 10) : (s.flag f).ft = s.ft := rfl
@[simp] theorem State.flag_svc (s : State) (f : BitVec 10) : (s.flag f).svc = s.svc := rfl
@[simp] theorem State.flag_boot (s : State) (f : BitVec 10) : (s.flag f).boot = s.boot := rfl
@[simp] theorem State.flag_cfg (s : State) (f : BitVec 10) : (s.flag f).cfg = s.cfg := rfl
@[simp] theorem State.flag_ports (s : State) (f : BitVec 10) : (s.flag f).ports = s.ports := rfl
@[simp] theorem State.flag_hl (s : State) (f : BitVec 10) : (s.flag f).hl = s.hl := rfl
@[simp] theorem State.flag_pw (s : State) (f : BitVec 10) : (s.flag f).pw = s.pw := rfl
@[simp] theorem State.flag_cmd (s : State) (f : BitVec 10) : (s.flag f).cmd = s.cmd := rfl
@[simp] theorem State.flag_bankJ (s : State) (f : BitVec 10) : (s.flag f).bankJ = s.bankJ := rfl
@[simp] theorem State.flag_bankK (s : State) (f : BitVec 10) : (s.flag f).bankK = s.bankK := rfl

/-! ### emit -/

@[simp] theorem State.emit_pending (s : State) (p : Nat) (m : OutMsg) : (s.emit p m).pending = s.pending := rfl
@[simp] theorem State.emit_out (s : State) (p : Nat) (m : OutMsg) : (s.emit p m).out = s.out ++ [⟨p, s.tickW, m⟩] := rfl
@[simp] theorem State.emit_freeCtr (s : State) (p : Nat) (m : OutMsg) : (s.emit p m).freeCtr = s.freeCtr := rfl
@[simp] theorem State.emit_sb (s : State) (p : Nat) (m : OutMsg) : (s.emit p m).sb = s.sb := rfl
@[simp] theorem State.emit_tq (s : State) (p : Nat) (m : OutMsg) : (s.emit p m).tq = s.tq := rfl
@[simp] theorem State.emit_fl (s : State) (p : Nat) (m : OutMsg) : (s.emit p m).fl = s.fl := rfl
@[simp] theorem State.emit_reqs (s : State) (p : Nat) (m : OutMsg) : (s.emit p m).reqs = s.reqs := rfl
@[simp] theorem State.emit_job (s : State) (p : Nat) (m : OutMsg) : (s.emit p m).job = s.job := rfl
@[simp] theorem State.emit_ar (s : State) (p : Nat) (m : OutMsg) : (s.emit p m).ar = s.ar := rfl
@[simp] theorem State.emit_xp (s : State) (p : Nat) (m : OutMsg) : (s.emit p m).xp = s.xp := rfl
@[simp] theorem State.emit_sp (s : State) (p : Nat) (m : OutMsg) : (s.emit p m).sp = s.sp := rfl
@[simp] theorem State.emit_xf (s : State) (p : Nat) (m : OutMsg) : (s.emit p m).xf = s.xf := rfl
@[simp] theorem State.emit_wins (s : State) (p : Nat) (m : OutMsg) : (s.emit p m).wins = s.wins := rfl
@[simp] theorem State.emit_yd (s : State) (p : Nat) (m : OutMsg) : (s.emit p m).yd = s.yd := rfl
@[simp] theorem State.emit_tb (s : State) (p : Nat) (m : OutMsg) : (s.emit p m).tb = s.tb := rfl
@[simp] theorem State.emit_tr (s : State) (p : Nat) (m : OutMsg) : (s.emit p m).tr = s.tr := rfl
@[simp] theorem State.emit_live (s : State) (p : Nat) (m : OutMsg) : (s.emit p m).live = s.live := rfl
@[simp] theorem State.emit_snap (s : State) (p : Nat) (m : OutMsg) : (s.emit p m).snap = s.snap := rfl
@[simp] theorem State.emit_ft (s : State) (p : Nat) (m : OutMsg) : (s.emit p m).ft = s.ft := rfl
@[simp] theorem State.emit_svc (s : State) (p : Nat) (m : OutMsg) : (s.emit p m).svc = s.svc := rfl
@[simp] theorem State.emit_boot (s : State) (p : Nat) (m : OutMsg) : (s.emit p m).boot = s.boot := rfl
@[simp] theorem State.emit_cfg (s : State) (p : Nat) (m : OutMsg) : (s.emit p m).cfg = s.cfg := rfl
@[simp] theorem State.emit_ports (s : State) (p : Nat) (m : OutMsg) : (s.emit p m).ports = s.ports := rfl
@[simp] theorem State.emit_hl (s : State) (p : Nat) (m : OutMsg) : (s.emit p m).hl = s.hl := rfl
@[simp] theorem State.emit_pw (s : State) (p : Nat) (m : OutMsg) : (s.emit p m).pw = s.pw := rfl
@[simp] theorem State.emit_cmd (s : State) (p : Nat) (m : OutMsg) : (s.emit p m).cmd = s.cmd := rfl
@[simp] theorem State.emit_bankJ (s : State) (p : Nat) (m : OutMsg) : (s.emit p m).bankJ = s.bankJ := rfl
@[simp] theorem State.emit_bankK (s : State) (p : Nat) (m : OutMsg) : (s.emit p m).bankK = s.bankK := rfl

/-! ### updInst -/

@[simp] theorem State.updInst_pending (s : State) (q : Nat) (f : Inflight → Inflight) : (s.updInst q f).pending = s.pending := rfl
@[simp] theorem State.updInst_out (s : State) (q : Nat) (f : Inflight → Inflight) : (s.updInst q f).out = s.out := rfl
@[simp] theorem State.updInst_freeCtr (s : State) (q : Nat) (f : Inflight → Inflight) : (s.updInst q f).freeCtr = s.freeCtr := rfl
@[simp] theorem State.updInst_sb (s : State) (q : Nat) (f : Inflight → Inflight) : (s.updInst q f).sb = s.sb := rfl
@[simp] theorem State.updInst_tq (s : State) (q : Nat) (f : Inflight → Inflight) : (s.updInst q f).tq = s.tq := rfl
@[simp] theorem State.updInst_fl (s : State) (q : Nat) (f : Inflight → Inflight) : (s.updInst q f).fl = s.fl.map (fun x => if x.q.seq = q then f x else x) := rfl
@[simp] theorem State.updInst_reqs (s : State) (q : Nat) (f : Inflight → Inflight) : (s.updInst q f).reqs = s.reqs := rfl
@[simp] theorem State.updInst_job (s : State) (q : Nat) (f : Inflight → Inflight) : (s.updInst q f).job = s.job := rfl
@[simp] theorem State.updInst_ar (s : State) (q : Nat) (f : Inflight → Inflight) : (s.updInst q f).ar = s.ar := rfl
@[simp] theorem State.updInst_xp (s : State) (q : Nat) (f : Inflight → Inflight) : (s.updInst q f).xp = s.xp := rfl
@[simp] theorem State.updInst_sp (s : State) (q : Nat) (f : Inflight → Inflight) : (s.updInst q f).sp = s.sp := rfl
@[simp] theorem State.updInst_xf (s : State) (q : Nat) (f : Inflight → Inflight) : (s.updInst q f).xf = s.xf := rfl
@[simp] theorem State.updInst_wins (s : State) (q : Nat) (f : Inflight → Inflight) : (s.updInst q f).wins = s.wins := rfl
@[simp] theorem State.updInst_yd (s : State) (q : Nat) (f : Inflight → Inflight) : (s.updInst q f).yd = s.yd := rfl
@[simp] theorem State.updInst_tb (s : State) (q : Nat) (f : Inflight → Inflight) : (s.updInst q f).tb = s.tb := rfl
@[simp] theorem State.updInst_tr (s : State) (q : Nat) (f : Inflight → Inflight) : (s.updInst q f).tr = s.tr := rfl
@[simp] theorem State.updInst_live (s : State) (q : Nat) (f : Inflight → Inflight) : (s.updInst q f).live = s.live := rfl
@[simp] theorem State.updInst_snap (s : State) (q : Nat) (f : Inflight → Inflight) : (s.updInst q f).snap = s.snap := rfl
@[simp] theorem State.updInst_ft (s : State) (q : Nat) (f : Inflight → Inflight) : (s.updInst q f).ft = s.ft := rfl
@[simp] theorem State.updInst_svc (s : State) (q : Nat) (f : Inflight → Inflight) : (s.updInst q f).svc = s.svc := rfl
@[simp] theorem State.updInst_boot (s : State) (q : Nat) (f : Inflight → Inflight) : (s.updInst q f).boot = s.boot := rfl
@[simp] theorem State.updInst_cfg (s : State) (q : Nat) (f : Inflight → Inflight) : (s.updInst q f).cfg = s.cfg := rfl
@[simp] theorem State.updInst_ports (s : State) (q : Nat) (f : Inflight → Inflight) : (s.updInst q f).ports = s.ports := rfl
@[simp] theorem State.updInst_hl (s : State) (q : Nat) (f : Inflight → Inflight) : (s.updInst q f).hl = s.hl := rfl
@[simp] theorem State.updInst_pw (s : State) (q : Nat) (f : Inflight → Inflight) : (s.updInst q f).pw = s.pw := rfl
@[simp] theorem State.updInst_cmd (s : State) (q : Nat) (f : Inflight → Inflight) : (s.updInst q f).cmd = s.cmd := rfl
@[simp] theorem State.updInst_bankJ (s : State) (q : Nat) (f : Inflight → Inflight) : (s.updInst q f).bankJ = s.bankJ := rfl
@[simp] theorem State.updInst_bankK (s : State) (q : Nat) (f : Inflight → Inflight) : (s.updInst q f).bankK = s.bankK := rfl

/-! ### setProg -/

@[simp] theorem State.setProg_pending (s : State) (q : Nat) (g : Prog) : (s.setProg q g).pending = s.pending := rfl
@[simp] theorem State.setProg_out (s : State) (q : Nat) (g : Prog) : (s.setProg q g).out = s.out := rfl
@[simp] theorem State.setProg_freeCtr (s : State) (q : Nat) (g : Prog) : (s.setProg q g).freeCtr = s.freeCtr := rfl
@[simp] theorem State.setProg_sb (s : State) (q : Nat) (g : Prog) : (s.setProg q g).sb = s.sb := rfl
@[simp] theorem State.setProg_tq (s : State) (q : Nat) (g : Prog) : (s.setProg q g).tq = s.tq := rfl
@[simp] theorem State.setProg_fl (s : State) (q : Nat) (g : Prog) : (s.setProg q g).fl = s.fl.map (fun x => if x.q.seq = q then { x with prog := g } else x) := rfl
@[simp] theorem State.setProg_reqs (s : State) (q : Nat) (g : Prog) : (s.setProg q g).reqs = s.reqs := rfl
@[simp] theorem State.setProg_job (s : State) (q : Nat) (g : Prog) : (s.setProg q g).job = s.job := rfl
@[simp] theorem State.setProg_ar (s : State) (q : Nat) (g : Prog) : (s.setProg q g).ar = s.ar := rfl
@[simp] theorem State.setProg_xp (s : State) (q : Nat) (g : Prog) : (s.setProg q g).xp = s.xp := rfl
@[simp] theorem State.setProg_sp (s : State) (q : Nat) (g : Prog) : (s.setProg q g).sp = s.sp := rfl
@[simp] theorem State.setProg_xf (s : State) (q : Nat) (g : Prog) : (s.setProg q g).xf = s.xf := rfl
@[simp] theorem State.setProg_wins (s : State) (q : Nat) (g : Prog) : (s.setProg q g).wins = s.wins := rfl
@[simp] theorem State.setProg_yd (s : State) (q : Nat) (g : Prog) : (s.setProg q g).yd = s.yd := rfl
@[simp] theorem State.setProg_tb (s : State) (q : Nat) (g : Prog) : (s.setProg q g).tb = s.tb := rfl
@[simp] theorem State.setProg_tr (s : State) (q : Nat) (g : Prog) : (s.setProg q g).tr = s.tr := rfl
@[simp] theorem State.setProg_live (s : State) (q : Nat) (g : Prog) : (s.setProg q g).live = s.live := rfl
@[simp] theorem State.setProg_snap (s : State) (q : Nat) (g : Prog) : (s.setProg q g).snap = s.snap := rfl
@[simp] theorem State.setProg_ft (s : State) (q : Nat) (g : Prog) : (s.setProg q g).ft = s.ft := rfl
@[simp] theorem State.setProg_svc (s : State) (q : Nat) (g : Prog) : (s.setProg q g).svc = s.svc := rfl
@[simp] theorem State.setProg_boot (s : State) (q : Nat) (g : Prog) : (s.setProg q g).boot = s.boot := rfl
@[simp] theorem State.setProg_cfg (s : State) (q : Nat) (g : Prog) : (s.setProg q g).cfg = s.cfg := rfl
@[simp] theorem State.setProg_ports (s : State) (q : Nat) (g : Prog) : (s.setProg q g).ports = s.ports := rfl
@[simp] theorem State.setProg_hl (s : State) (q : Nat) (g : Prog) : (s.setProg q g).hl = s.hl := rfl
@[simp] theorem State.setProg_pw (s : State) (q : Nat) (g : Prog) : (s.setProg q g).pw = s.pw := rfl
@[simp] theorem State.setProg_cmd (s : State) (q : Nat) (g : Prog) : (s.setProg q g).cmd = s.cmd := rfl
@[simp] theorem State.setProg_bankJ (s : State) (q : Nat) (g : Prog) : (s.setProg q g).bankJ = s.bankJ := rfl
@[simp] theorem State.setProg_bankK (s : State) (q : Nat) (g : Prog) : (s.setProg q g).bankK = s.bankK := rfl

/-! ### popFront -/

@[simp] theorem State.popFront_pending (s : State) : (s.popFront).pending = s.pending := rfl
@[simp] theorem State.popFront_out (s : State) : (s.popFront).out = s.out := rfl
@[simp] theorem State.popFront_freeCtr (s : State) : (s.popFront).freeCtr = s.freeCtr := rfl
@[simp] theorem State.popFront_sb (s : State) : (s.popFront).sb = s.sb := rfl
@[simp] theorem State.popFront_tq (s : State) : (s.popFront).tq = s.tq.tail := rfl
@[simp] theorem State.popFront_fl (s : State) : (s.popFront).fl = s.fl := rfl
@[simp] theorem State.popFront_reqs (s : State) : (s.popFront).reqs = s.reqs := rfl
@[simp] theorem State.popFront_job (s : State) : (s.popFront).job = s.job := rfl
@[simp] theorem State.popFront_ar (s : State) : (s.popFront).ar = s.ar := rfl
@[simp] theorem State.popFront_xp (s : State) : (s.popFront).xp = s.xp := rfl
@[simp] theorem State.popFront_sp (s : State) : (s.popFront).sp = s.sp := rfl
@[simp] theorem State.popFront_xf (s : State) : (s.popFront).xf = s.xf := rfl
@[simp] theorem State.popFront_wins (s : State) : (s.popFront).wins = s.wins := rfl
@[simp] theorem State.popFront_yd (s : State) : (s.popFront).yd = s.yd := rfl
@[simp] theorem State.popFront_tb (s : State) : (s.popFront).tb = s.tb := rfl
@[simp] theorem State.popFront_tr (s : State) : (s.popFront).tr = s.tr := rfl
@[simp] theorem State.popFront_live (s : State) : (s.popFront).live = s.live := rfl
@[simp] theorem State.popFront_snap (s : State) : (s.popFront).snap = s.snap := rfl
@[simp] theorem State.popFront_ft (s : State) : (s.popFront).ft = s.ft := rfl
@[simp] theorem State.popFront_svc (s : State) : (s.popFront).svc = s.svc := rfl
@[simp] theorem State.popFront_boot (s : State) : (s.popFront).boot = s.boot := rfl
@[simp] theorem State.popFront_cfg (s : State) : (s.popFront).cfg = s.cfg := rfl
@[simp] theorem State.popFront_ports (s : State) : (s.popFront).ports = s.ports := rfl
@[simp] theorem State.popFront_hl (s : State) : (s.popFront).hl = s.hl := rfl
@[simp] theorem State.popFront_pw (s : State) : (s.popFront).pw = s.pw := rfl
@[simp] theorem State.popFront_cmd (s : State) : (s.popFront).cmd = s.cmd := rfl
@[simp] theorem State.popFront_bankJ (s : State) : (s.popFront).bankJ = s.bankJ := rfl
@[simp] theorem State.popFront_bankK (s : State) : (s.popFront).bankK = s.bankK := rfl

/-! ### suppress -/

@[simp] theorem State.suppress_pending (s : State) : (s.suppress).pending = s.pending := rfl
@[simp] theorem State.suppress_out (s : State) : (s.suppress).out = s.out := rfl
@[simp] theorem State.suppress_freeCtr (s : State) : (s.suppress).freeCtr = s.freeCtr := rfl
@[simp] theorem State.suppress_sb (s : State) : (s.suppress).sb = s.sb := rfl
@[simp] theorem State.suppress_tq (s : State) : (s.suppress).tq = s.tq := rfl
@[simp] theorem State.suppress_fl (s : State) : (s.suppress).fl = s.fl := rfl
@[simp] theorem State.suppress_reqs (s : State) : (s.suppress).reqs = s.reqs := rfl
@[simp] theorem State.suppress_job (s : State) : (s.suppress).job = s.job := rfl
@[simp] theorem State.suppress_ar (s : State) : (s.suppress).ar = s.ar := rfl
@[simp] theorem State.suppress_xp (s : State) : (s.suppress).xp = s.xp := rfl
@[simp] theorem State.suppress_sp (s : State) : (s.suppress).sp = s.sp := rfl
@[simp] theorem State.suppress_xf (s : State) : (s.suppress).xf = s.xf := rfl
@[simp] theorem State.suppress_wins (s : State) : (s.suppress).wins = s.wins := rfl
@[simp] theorem State.suppress_yd (s : State) : (s.suppress).yd = s.yd := rfl
@[simp] theorem State.suppress_tb (s : State) : (s.suppress).tb = s.tb := rfl
@[simp] theorem State.suppress_tr (s : State) : (s.suppress).tr = s.tr := rfl
@[simp] theorem State.suppress_live (s : State) : (s.suppress).live = s.live := rfl
@[simp] theorem State.suppress_snap (s : State) : (s.suppress).snap = s.snap := rfl
@[simp] theorem State.suppress_ft (s : State) : (s.suppress).ft = { s.ft with suppressed := satAdd s.ft.suppressed 1 } := rfl
@[simp] theorem State.suppress_svc (s : State) : (s.suppress).svc = s.svc := rfl
@[simp] theorem State.suppress_boot (s : State) : (s.suppress).boot = s.boot := rfl
@[simp] theorem State.suppress_cfg (s : State) : (s.suppress).cfg = s.cfg := rfl
@[simp] theorem State.suppress_ports (s : State) : (s.suppress).ports = s.ports := rfl
@[simp] theorem State.suppress_hl (s : State) : (s.suppress).hl = s.hl := rfl
@[simp] theorem State.suppress_pw (s : State) : (s.suppress).pw = s.pw := rfl
@[simp] theorem State.suppress_cmd (s : State) : (s.suppress).cmd = s.cmd := rfl
@[simp] theorem State.suppress_bankJ (s : State) : (s.suppress).bankJ = s.bankJ := rfl
@[simp] theorem State.suppress_bankK (s : State) : (s.suppress).bankK = s.bankK := rfl

/-! ### taken -/

@[simp] theorem State.taken_pending (s : State) (c : Byte) : (s.taken c).pending = s.pending := rfl
@[simp] theorem State.taken_out (s : State) (c : Byte) : (s.taken c).out = s.out := rfl
@[simp] theorem State.taken_freeCtr (s : State) (c : Byte) : (s.taken c).freeCtr = s.freeCtr := rfl
@[simp] theorem State.taken_sb (s : State) (c : Byte) : (s.taken c).sb = s.sb := rfl
@[simp] theorem State.taken_tq (s : State) (c : Byte) : (s.taken c).tq = s.tq := rfl
@[simp] theorem State.taken_fl (s : State) (c : Byte) : (s.taken c).fl = s.fl := rfl
@[simp] theorem State.taken_reqs (s : State) (c : Byte) : (s.taken c).reqs = s.reqs := rfl
@[simp] theorem State.taken_job (s : State) (c : Byte) : (s.taken c).job = s.job := rfl
@[simp] theorem State.taken_ar (s : State) (c : Byte) : (s.taken c).ar = s.ar := rfl
@[simp] theorem State.taken_xp (s : State) (c : Byte) : (s.taken c).xp = s.xp := rfl
@[simp] theorem State.taken_sp (s : State) (c : Byte) : (s.taken c).sp = s.sp := rfl
@[simp] theorem State.taken_xf (s : State) (c : Byte) : (s.taken c).xf = s.xf := rfl
@[simp] theorem State.taken_wins (s : State) (c : Byte) : (s.taken c).wins = s.wins := rfl
@[simp] theorem State.taken_yd (s : State) (c : Byte) : (s.taken c).yd = s.yd := rfl
@[simp] theorem State.taken_tb (s : State) (c : Byte) : (s.taken c).tb = s.tb := rfl
@[simp] theorem State.taken_tr (s : State) (c : Byte) : (s.taken c).tr = s.tr := rfl
@[simp] theorem State.taken_live (s : State) (c : Byte) : (s.taken c).live = s.live := rfl
@[simp] theorem State.taken_snap (s : State) (c : Byte) : (s.taken c).snap = s.snap := rfl
@[simp] theorem State.taken_ft (s : State) (c : Byte) : (s.taken c).ft = s.ft := rfl
@[simp] theorem State.taken_svc (s : State) (c : Byte) : (s.taken c).svc = s.svc := rfl
@[simp] theorem State.taken_boot (s : State) (c : Byte) : (s.taken c).boot = s.boot := rfl
@[simp] theorem State.taken_cfg (s : State) (c : Byte) : (s.taken c).cfg = s.cfg := rfl
@[simp] theorem State.taken_ports (s : State) (c : Byte) : (s.taken c).ports = s.ports := rfl
@[simp] theorem State.taken_hl (s : State) (c : Byte) : (s.taken c).hl = s.hl := rfl
@[simp] theorem State.taken_pw (s : State) (c : Byte) : (s.taken c).pw = s.pw := rfl
@[simp] theorem State.taken_cmd (s : State) (c : Byte) : (s.taken c).cmd = { s.cmd with lastCode := c } := rfl
@[simp] theorem State.taken_bankJ (s : State) (c : Byte) : (s.taken c).bankJ = s.bankJ := rfl
@[simp] theorem State.taken_bankK (s : State) (c : Byte) : (s.taken c).bankK = s.bankK := rfl

/-! ### putRow -/

@[simp] theorem State.putRow_pending (s : State) (r : Nat) (e : RowEnt) : (s.putRow r e).pending = s.pending := rfl
@[simp] theorem State.putRow_out (s : State) (r : Nat) (e : RowEnt) : (s.putRow r e).out = s.out := rfl
@[simp] theorem State.putRow_freeCtr (s : State) (r : Nat) (e : RowEnt) : (s.putRow r e).freeCtr = s.freeCtr := rfl
@[simp] theorem State.putRow_sb (s : State) (r : Nat) (e : RowEnt) : (s.putRow r e).sb = s.sb := rfl
@[simp] theorem State.putRow_tq (s : State) (r : Nat) (e : RowEnt) : (s.putRow r e).tq = s.tq := rfl
@[simp] theorem State.putRow_fl (s : State) (r : Nat) (e : RowEnt) : (s.putRow r e).fl = s.fl := rfl
@[simp] theorem State.putRow_reqs (s : State) (r : Nat) (e : RowEnt) : (s.putRow r e).reqs = s.reqs := rfl
@[simp] theorem State.putRow_job (s : State) (r : Nat) (e : RowEnt) : (s.putRow r e).job = s.job := rfl
@[simp] theorem State.putRow_ar (s : State) (r : Nat) (e : RowEnt) : (s.putRow r e).ar = s.ar := rfl
@[simp] theorem State.putRow_xp (s : State) (r : Nat) (e : RowEnt) : (s.putRow r e).xp = { s.xp with rows := AL.put s.xp.rows r e } := rfl
@[simp] theorem State.putRow_sp (s : State) (r : Nat) (e : RowEnt) : (s.putRow r e).sp = s.sp := rfl
@[simp] theorem State.putRow_xf (s : State) (r : Nat) (e : RowEnt) : (s.putRow r e).xf = s.xf := rfl
@[simp] theorem State.putRow_wins (s : State) (r : Nat) (e : RowEnt) : (s.putRow r e).wins = s.wins := rfl
@[simp] theorem State.putRow_yd (s : State) (r : Nat) (e : RowEnt) : (s.putRow r e).yd = s.yd := rfl
@[simp] theorem State.putRow_tb (s : State) (r : Nat) (e : RowEnt) : (s.putRow r e).tb = s.tb := rfl
@[simp] theorem State.putRow_tr (s : State) (r : Nat) (e : RowEnt) : (s.putRow r e).tr = s.tr := rfl
@[simp] theorem State.putRow_live (s : State) (r : Nat) (e : RowEnt) : (s.putRow r e).live = s.live := rfl
@[simp] theorem State.putRow_snap (s : State) (r : Nat) (e : RowEnt) : (s.putRow r e).snap = s.snap := rfl
@[simp] theorem State.putRow_ft (s : State) (r : Nat) (e : RowEnt) : (s.putRow r e).ft = s.ft := rfl
@[simp] theorem State.putRow_svc (s : State) (r : Nat) (e : RowEnt) : (s.putRow r e).svc = s.svc := rfl
@[simp] theorem State.putRow_boot (s : State) (r : Nat) (e : RowEnt) : (s.putRow r e).boot = s.boot := rfl
@[simp] theorem State.putRow_cfg (s : State) (r : Nat) (e : RowEnt) : (s.putRow r e).cfg = s.cfg := rfl
@[simp] theorem State.putRow_ports (s : State) (r : Nat) (e : RowEnt) : (s.putRow r e).ports = s.ports := rfl
@[simp] theorem State.putRow_hl (s : State) (r : Nat) (e : RowEnt) : (s.putRow r e).hl = s.hl := rfl
@[simp] theorem State.putRow_pw (s : State) (r : Nat) (e : RowEnt) : (s.putRow r e).pw = s.pw := rfl
@[simp] theorem State.putRow_cmd (s : State) (r : Nat) (e : RowEnt) : (s.putRow r e).cmd = s.cmd := rfl
@[simp] theorem State.putRow_bankJ (s : State) (r : Nat) (e : RowEnt) : (s.putRow r e).bankJ = s.bankJ := rfl
@[simp] theorem State.putRow_bankK (s : State) (r : Nat) (e : RowEnt) : (s.putRow r e).bankK = s.bankK := rfl

/-! ### setS -/

@[simp] theorem State.setS_pending (s : State) (i : Nat) (v : W64) : (s.setS i v).pending = s.pending := by unfold State.setS; split <;> rfl
@[simp] theorem State.setS_out (s : State) (i : Nat) (v : W64) : (s.setS i v).out = s.out := by unfold State.setS; split <;> rfl
@[simp] theorem State.setS_freeCtr (s : State) (i : Nat) (v : W64) : (s.setS i v).freeCtr = s.freeCtr := by unfold State.setS; split <;> rfl
@[simp] theorem State.setS_sb (s : State) (i : Nat) (v : W64) : (s.setS i v).sb = if i = 0 then s.sb else { s.sb with s := AL.put s.sb.s i v } := by unfold State.setS; split <;> rfl
@[simp] theorem State.setS_tq (s : State) (i : Nat) (v : W64) : (s.setS i v).tq = s.tq := by unfold State.setS; split <;> rfl
@[simp] theorem State.setS_fl (s : State) (i : Nat) (v : W64) : (s.setS i v).fl = s.fl := by unfold State.setS; split <;> rfl
@[simp] theorem State.setS_reqs (s : State) (i : Nat) (v : W64) : (s.setS i v).reqs = s.reqs := by unfold State.setS; split <;> rfl
@[simp] theorem State.setS_job (s : State) (i : Nat) (v : W64) : (s.setS i v).job = s.job := by unfold State.setS; split <;> rfl
@[simp] theorem State.setS_ar (s : State) (i : Nat) (v : W64) : (s.setS i v).ar = s.ar := by unfold State.setS; split <;> rfl
@[simp] theorem State.setS_xp (s : State) (i : Nat) (v : W64) : (s.setS i v).xp = s.xp := by unfold State.setS; split <;> rfl
@[simp] theorem State.setS_sp (s : State) (i : Nat) (v : W64) : (s.setS i v).sp = s.sp := by unfold State.setS; split <;> rfl
@[simp] theorem State.setS_xf (s : State) (i : Nat) (v : W64) : (s.setS i v).xf = s.xf := by unfold State.setS; split <;> rfl
@[simp] theorem State.setS_wins (s : State) (i : Nat) (v : W64) : (s.setS i v).wins = s.wins := by unfold State.setS; split <;> rfl
@[simp] theorem State.setS_yd (s : State) (i : Nat) (v : W64) : (s.setS i v).yd = s.yd := by unfold State.setS; split <;> rfl
@[simp] theorem State.setS_tb (s : State) (i : Nat) (v : W64) : (s.setS i v).tb = s.tb := by unfold State.setS; split <;> rfl
@[simp] theorem State.setS_tr (s : State) (i : Nat) (v : W64) : (s.setS i v).tr = s.tr := by unfold State.setS; split <;> rfl
@[simp] theorem State.setS_live (s : State) (i : Nat) (v : W64) : (s.setS i v).live = s.live := by unfold State.setS; split <;> rfl
@[simp] theorem State.setS_snap (s : State) (i : Nat) (v : W64) : (s.setS i v).snap = s.snap := by unfold State.setS; split <;> rfl
@[simp] theorem State.setS_ft (s : State) (i : Nat) (v : W64) : (s.setS i v).ft = s.ft := by unfold State.setS; split <;> rfl
@[simp] theorem State.setS_svc (s : State) (i : Nat) (v : W64) : (s.setS i v).svc = s.svc := by unfold State.setS; split <;> rfl
@[simp] theorem State.setS_boot (s : State) (i : Nat) (v : W64) : (s.setS i v).boot = s.boot := by unfold State.setS; split <;> rfl
@[simp] theorem State.setS_cfg (s : State) (i : Nat) (v : W64) : (s.setS i v).cfg = s.cfg := by unfold State.setS; split <;> rfl
@[simp] theorem State.setS_ports (s : State) (i : Nat) (v : W64) : (s.setS i v).ports = s.ports := by unfold State.setS; split <;> rfl
@[simp] theorem State.setS_hl (s : State) (i : Nat) (v : W64) : (s.setS i v).hl = s.hl := by unfold State.setS; split <;> rfl
@[simp] theorem State.setS_pw (s : State) (i : Nat) (v : W64) : (s.setS i v).pw = s.pw := by unfold State.setS; split <;> rfl
@[simp] theorem State.setS_cmd (s : State) (i : Nat) (v : W64) : (s.setS i v).cmd = s.cmd := by unfold State.setS; split <;> rfl
@[simp] theorem State.setS_bankJ (s : State) (i : Nat) (v : W64) : (s.setS i v).bankJ = s.bankJ := by unfold State.setS; split <;> rfl
@[simp] theorem State.setS_bankK (s : State) (i : Nat) (v : W64) : (s.setS i v).bankK = s.bankK := by unfold State.setS; split <;> rfl

/-! ### traceAt -/

@[simp] theorem State.traceAt_pending (s : State) (k : W64) (n v : Nat) : (s.traceAt k n v).pending = s.pending := by unfold State.traceAt; split <;> rfl
@[simp] theorem State.traceAt_out (s : State) (k : W64) (n v : Nat) : (s.traceAt k n v).out = s.out := by unfold State.traceAt; split <;> rfl
@[simp] theorem State.traceAt_freeCtr (s : State) (k : W64) (n v : Nat) : (s.traceAt k n v).freeCtr = s.freeCtr := by unfold State.traceAt; split <;> rfl
@[simp] theorem State.traceAt_sb (s : State) (k : W64) (n v : Nat) : (s.traceAt k n v).sb = s.sb := by unfold State.traceAt; split <;> rfl
@[simp] theorem State.traceAt_tq (s : State) (k : W64) (n v : Nat) : (s.traceAt k n v).tq = s.tq := by unfold State.traceAt; split <;> rfl
@[simp] theorem State.traceAt_fl (s : State) (k : W64) (n v : Nat) : (s.traceAt k n v).fl = s.fl := by unfold State.traceAt; split <;> rfl
@[simp] theorem State.traceAt_reqs (s : State) (k : W64) (n v : Nat) : (s.traceAt k n v).reqs = s.reqs := by unfold State.traceAt; split <;> rfl
@[simp] theorem State.traceAt_job (s : State) (k : W64) (n v : Nat) : (s.traceAt k n v).job = s.job := by unfold State.traceAt; split <;> rfl
@[simp] theorem State.traceAt_ar (s : State) (k : W64) (n v : Nat) : (s.traceAt k n v).ar = s.ar := by unfold State.traceAt; split <;> rfl
@[simp] theorem State.traceAt_xp (s : State) (k : W64) (n v : Nat) : (s.traceAt k n v).xp = s.xp := by unfold State.traceAt; split <;> rfl
@[simp] theorem State.traceAt_sp (s : State) (k : W64) (n v : Nat) : (s.traceAt k n v).sp = s.sp := by unfold State.traceAt; split <;> rfl
@[simp] theorem State.traceAt_xf (s : State) (k : W64) (n v : Nat) : (s.traceAt k n v).xf = s.xf := by unfold State.traceAt; split <;> rfl
@[simp] theorem State.traceAt_wins (s : State) (k : W64) (n v : Nat) : (s.traceAt k n v).wins = s.wins := by unfold State.traceAt; split <;> rfl
@[simp] theorem State.traceAt_yd (s : State) (k : W64) (n v : Nat) : (s.traceAt k n v).yd = s.yd := by unfold State.traceAt; split <;> rfl
@[simp] theorem State.traceAt_tb (s : State) (k : W64) (n v : Nat) : (s.traceAt k n v).tb = s.tb := by unfold State.traceAt; split <;> rfl
@[simp] theorem State.traceAt_tr (s : State) (k : W64) (n v : Nat) : (s.traceAt k n v).tr = if s.tr.selects n k then { s.tr with pend := insRec ⟨k, BitVec.ofNat 4 n, BitVec.ofNat 60 v, 0, false⟩ s.tr.pend } else s.tr := by unfold State.traceAt; split <;> rfl
@[simp] theorem State.traceAt_live (s : State) (k : W64) (n v : Nat) : (s.traceAt k n v).live = s.live := by unfold State.traceAt; split <;> rfl
@[simp] theorem State.traceAt_snap (s : State) (k : W64) (n v : Nat) : (s.traceAt k n v).snap = s.snap := by unfold State.traceAt; split <;> rfl
@[simp] theorem State.traceAt_ft (s : State) (k : W64) (n v : Nat) : (s.traceAt k n v).ft = s.ft := by unfold State.traceAt; split <;> rfl
@[simp] theorem State.traceAt_svc (s : State) (k : W64) (n v : Nat) : (s.traceAt k n v).svc = s.svc := by unfold State.traceAt; split <;> rfl
@[simp] theorem State.traceAt_boot (s : State) (k : W64) (n v : Nat) : (s.traceAt k n v).boot = s.boot := by unfold State.traceAt; split <;> rfl
@[simp] theorem State.traceAt_cfg (s : State) (k : W64) (n v : Nat) : (s.traceAt k n v).cfg = s.cfg := by unfold State.traceAt; split <;> rfl
@[simp] theorem State.traceAt_ports (s : State) (k : W64) (n v : Nat) : (s.traceAt k n v).ports = s.ports := by unfold State.traceAt; split <;> rfl
@[simp] theorem State.traceAt_hl (s : State) (k : W64) (n v : Nat) : (s.traceAt k n v).hl = s.hl := by unfold State.traceAt; split <;> rfl
@[simp] theorem State.traceAt_pw (s : State) (k : W64) (n v : Nat) : (s.traceAt k n v).pw = s.pw := by unfold State.traceAt; split <;> rfl
@[simp] theorem State.traceAt_cmd (s : State) (k : W64) (n v : Nat) : (s.traceAt k n v).cmd = s.cmd := by unfold State.traceAt; split <;> rfl
@[simp] theorem State.traceAt_bankJ (s : State) (k : W64) (n v : Nat) : (s.traceAt k n v).bankJ = s.bankJ := by unfold State.traceAt; split <;> rfl
@[simp] theorem State.traceAt_bankK (s : State) (k : W64) (n v : Nat) : (s.traceAt k n v).bankK = s.bankK := by unfold State.traceAt; split <;> rfl

end Sys2Proof.Machine
end

