-- ==== Sys2Proof/Laws/Spad.lean ====
section
/-! SUPPORT. Reads through ECC and stores into the scratchpad: what they can change, and what the memory holds after them. -/

namespace Sys2Proof.Machine

/-- The fault registers without those that a point of entry of poison changes (R521). -/
def Faults.sansPoison (f : Faults) : Faults := { f with marked := 0, pfValid := false, pfSource := 0, pfAddr := 0 }

/-- The state without what a read through ECC or a store can change: the scratchpad, the poison registers, the units'
marks, the trace. -/
def State.sansSpad (s : State) : State :=
  { s with sp := Spad.reset, ft := s.ft.sansPoison, hl := Health.reset, tr := Trace.reset }

@[simp] theorem State.traceAt_sansSpad (s : State) (k : W64) (n v : Nat) : (s.traceAt k n v).sansSpad = s.sansSpad := by
  unfold State.traceAt; split <;> rfl
@[simp] theorem State.trace_sansSpad (s : State) (n v : Nat) : (s.trace n v).sansSpad = s.sansSpad :=
  State.traceAt_sansSpad s s.tickW n v
@[simp] theorem State.setUnit_sansSpad (s : State) (k i : Nat) (u : UnitRec) : (s.setUnit k i u).sansSpad = s.sansSpad := rfl

@[simp] theorem State.enterPoison_sansSpad (s : State) (c l : Nat) : (s.enterPoison c l).sansSpad = s.sansSpad := by
  unfold State.enterPoison
  split
  · rfl
  · dsimp only; split <;> rfl

@[simp] theorem State.badLine_sansSpad (s : State) (l : Nat) : (s.badLine l).sansSpad = s.sansSpad := by
  unfold State.badLine
  dsimp only
  split
  · rfl
  · split
    · exact State.trace_sansSpad _ _ _
    · rfl

@[simp] theorem State.uncorrectable_sansSpad (s : State) (l : Nat) : (s.uncorrectable l).sansSpad = s.sansSpad := by
  unfold State.uncorrectable
  dsimp only
  rw [State.badLine_sansSpad]
  exact State.enterPoison_sansSpad s 1 l

/-- A fold keeps what each of its steps keeps. -/
theorem foldl_keeps {α β γ : Type} (g : α → γ) (f : α → β → α) (h : ∀ a b, g (f a b) = g a) (l : List β) (a : α) :
    g (l.foldl f a) = g a := by
  induction l generalizing a with
  | nil => rfl
  | cons b r ih => rw [List.foldl_cons, ih, h]

@[simp] theorem State.readLine_sansSpad (s : State) (l : Nat) : (s.readLine l).sansSpad = s.sansSpad := by
  unfold State.readLine
  dsimp only
  split
  · rw [State.uncorrectable_sansSpad]
    split <;> split <;> rfl
  · split <;> split <;> rfl

@[simp] theorem State.readLines_sansSpad (s : State) (p : Nat → Bool) : (s.readLines p).sansSpad = s.sansSpad :=
  foldl_keeps State.sansSpad _ (fun a l => State.readLine_sansSpad a l) _ _

@[simp] theorem State.store_sansSpad (s : State) (ws : List BitW) (b o : Nat → Bool) :
    (s.store ws b o).sansSpad = s.sansSpad := by
  unfold State.store
  refine (foldl_keeps State.sansSpad (fun s (_ : Nat × Bool) => s.countCorrected) (fun _ _ => rfl) _ _).trans ?_
  exact foldl_keeps State.sansSpad _ (fun a l => State.uncorrectable_sansSpad a l) _ _

@[simp] theorem State.putLines_sansSpad (s : State) (d : Desc) (ws : List BitW) (b : Nat → Bool) (n : Nat → Nat) (p : Bool) :
    (s.putLines d ws b n p).sansSpad = s.sansSpad := State.store_sansSpad s _ _ _

@[simp] theorem State.putElems_sansSpad (s : State) (d : Desc) (ws : List (Ix × Nat)) (b : Tile → Bool) (p : Bool) : (s.putElems d ws b p).sansSpad = s.sansSpad := State.store_sansSpad s _ _ _

/-! ### Field by field -/

theorem State.pending_of_sansSpad {a b : State} (h : a.sansSpad = b.sansSpad) : a.pending = b.pending := by
  have e := congrArg State.pending h; exact e
theorem State.out_of_sansSpad {a b : State} (h : a.sansSpad = b.sansSpad) : a.out = b.out := by
  have e := congrArg State.out h; exact e
theorem State.freeCtr_of_sansSpad {a b : State} (h : a.sansSpad = b.sansSpad) : a.freeCtr = b.freeCtr := by
  have e := congrArg State.freeCtr h; exact e
theorem State.sb_of_sansSpad {a b : State} (h : a.sansSpad = b.sansSpad) : a.sb = b.sb := by
  have e := congrArg State.sb h; exact e
theorem State.tq_of_sansSpad {a b : State} (h : a.sansSpad = b.sansSpad) : a.tq = b.tq := by
  have e := congrArg State.tq h; exact e
theorem State.fl_of_sansSpad {a b : State} (h : a.sansSpad = b.sansSpad) : a.fl = b.fl := by
  have e := congrArg State.fl h; exact e
theorem State.reqs_of_sansSpad {a b : State} (h : a.sansSpad = b.sansSpad) : a.reqs = b.reqs := by
  have e := congrArg State.reqs h; exact e
theorem State.job_of_sansSpad {a b : State} (h : a.sansSpad = b.sansSpad) : a.job = b.job := by
  have e := congrArg State.job h; exact e
theorem State.ar_of_sansSpad {a b : State} (h : a.sansSpad = b.sansSpad) : a.ar = b.ar := by
  have e := congrArg State.ar h; exact e
theorem State.xp_of_sansSpad {a b : State} (h : a.sansSpad = b.sansSpad) : a.xp = b.xp := by
  have e := congrArg State.xp h; exact e
theorem State.xf_of_sansSpad {a b : State} (h : a.sansSpad = b.sansSpad) : a.xf = b.xf := by
  have e := congrArg State.xf h; exact e
theorem State.wins_of_sansSpad {a b : State} (h : a.sansSpad = b.sansSpad) : a.wins = b.wins := by
  have e := congrArg State.wins h; exact e
theorem State.yd_of_sansSpad {a b : State} (h : a.sansSpad = b.sansSpad) : a.yd = b.yd := by
  have e := congrArg State.yd h; exact e
theorem State.tb_of_sansSpad {a b : State} (h : a.sansSpad = b.sansSpad) : a.tb = b.tb := by
  have e := congrArg State.tb h; exact e
theorem State.live_of_sansSpad {a b : State} (h : a.sansSpad = b.sansSpad) : a.live = b.live := by
  have e := congrArg State.live h; exact e
theorem State.snap_of_sansSpad {a b : State} (h : a.sansSpad = b.sansSpad) : a.snap = b.snap := by
  have e := congrArg State.snap h; exact e
theorem State.svc_of_sansSpad {a b : State} (h : a.sansSpad = b.sansSpad) : a.svc = b.svc := by
  have e := congrArg State.svc h; exact e
theorem State.boot_of_sansSpad {a b : State} (h : a.sansSpad = b.sansSpad) : a.boot = b.boot := by
  have e := congrArg State.boot h; exact e
theorem State.cfg_of_sansSpad {a b : State} (h : a.sansSpad = b.sansSpad) : a.cfg = b.cfg := by
  have e := congrArg State.cfg h; exact e
theorem State.ports_of_sansSpad {a b : State} (h : a.sansSpad = b.sansSpad) : a.ports = b.ports := by
  have e := congrArg State.ports h; exact e
theorem State.pw_of_sansSpad {a b : State} (h : a.sansSpad = b.sansSpad) : a.pw = b.pw := by
  have e := congrArg State.pw h; exact e
theorem State.cmd_of_sansSpad {a b : State} (h : a.sansSpad = b.sansSpad) : a.cmd = b.cmd := by
  have e := congrArg State.cmd h; exact e
theorem State.bankJ_of_sansSpad {a b : State} (h : a.sansSpad = b.sansSpad) : a.bankJ = b.bankJ := by
  have e := congrArg State.bankJ h; exact e
theorem State.bankK_of_sansSpad {a b : State} (h : a.sansSpad = b.sansSpad) : a.bankK = b.bankK := by
  have e := congrArg State.bankK h; exact e

@[simp] theorem State.enterPoison_pending (s : State) (c l : Nat) :
    (s.enterPoison c l).pending = s.pending := State.pending_of_sansSpad (State.enterPoison_sansSpad s c l)
@[simp] theorem State.enterPoison_out (s : State) (c l : Nat) :
    (s.enterPoison c l).out = s.out := State.out_of_sansSpad (State.enterPoison_sansSpad s c l)
@[simp] theorem State.enterPoison_freeCtr (s : State) (c l : Nat) :
    (s.enterPoison c l).freeCtr = s.freeCtr := State.freeCtr_of_sansSpad (State.enterPoison_sansSpad s c l)
@[simp] theorem State.enterPoison_sb (s : State) (c l : Nat) :
    (s.enterPoison c l).sb = s.sb := State.sb_of_sansSpad (State.enterPoison_sansSpad s c l)
@[simp] theorem State.enterPoison_tq (s : State) (c l : Nat) :
    (s.enterPoison c l).tq = s.tq := State.tq_of_sansSpad (State.enterPoison_sansSpad s c l)
@[simp] theorem State.enterPoison_fl (s : State) (c l : Nat) :
    (s.enterPoison c l).fl = s.fl := State.fl_of_sansSpad (State.enterPoison_sansSpad s c l)
@[simp] theorem State.enterPoison_reqs (s : State) (c l : Nat) :
    (s.enterPoison c l).reqs = s.reqs := State.reqs_of_sansSpad (State.enterPoison_sansSpad s c l)
@[simp] theorem State.enterPoison_job (s : State) (c l : Nat) :
    (s.enterPoison c l).job = s.job := State.job_of_sansSpad (State.enterPoison_sansSpad s c l)
@[simp] theorem State.enterPoison_ar (s : State) (c l : Nat) :
    (s.enterPoison c l).ar = s.ar := State.ar_of_sansSpad (State.enterPoison_sansSpad s c l)
@[simp] theorem State.enterPoison_xp (s : State) (c l : Nat) :
    (s.enterPoison c l).xp = s.xp := State.xp_of_sansSpad (State.enterPoison_sansSpad s c l)
@[simp] theorem State.enterPoison_xf (s : State) (c l : Nat) :
    (s.enterPoison c l).xf = s.xf := State.xf_of_sansSpad (State.enterPoison_sansSpad s c l)
@[simp] theorem State.enterPoison_wins (s : State) (c l : Nat) :
    (s.enterPoison c l).wins = s.wins := State.wins_of_sansSpad (State.enterPoison_sansSpad s c l)
@[simp] theorem State.enterPoison_yd (s : State) (c l : Nat) :
    (s.enterPoison c l).yd = s.yd := State.yd_of_sansSpad (State.enterPoison_sansSpad s c l)
@[simp] theorem State.enterPoison_tb (s : State) (c l : Nat) :
    (s.enterPoison c l).tb = s.tb := State.tb_of_sansSpad (State.enterPoison_sansSpad s c l)
@[simp] theorem State.enterPoison_live (s : State) (c l : Nat) :
    (s.enterPoison c l).live = s.live := State.live_of_sansSpad (State.enterPoison_sansSpad s c l)
@[simp] theorem State.enterPoison_snap (s : State) (c l : Nat) :
    (s.enterPoison c l).snap = s.snap := State.snap_of_sansSpad (State.enterPoison_sansSpad s c l)
@[simp] theorem State.enterPoison_svc (s : State) (c l : Nat) :
    (s.enterPoison c l).svc = s.svc := State.svc_of_sansSpad (State.enterPoison_sansSpad s c l)
@[simp] theorem State.enterPoison_boot (s : State) (c l : Nat) :
    (s.enterPoison c l).boot = s.boot := State.boot_of_sansSpad (State.enterPoison_sansSpad s c l)
@[simp] theorem State.enterPoison_cfg (s : State) (c l : Nat) :
    (s.enterPoison c l).cfg = s.cfg := State.cfg_of_sansSpad (State.enterPoison_sansSpad s c l)
@[simp] theorem State.enterPoison_ports (s : State) (c l : Nat) :
    (s.enterPoison c l).ports = s.ports := State.ports_of_sansSpad (State.enterPoison_sansSpad s c l)
@[simp] theorem State.enterPoison_pw (s : State) (c l : Nat) :
    (s.enterPoison c l).pw = s.pw := State.pw_of_sansSpad (State.enterPoison_sansSpad s c l)
@[simp] theorem State.enterPoison_cmd (s : State) (c l : Nat) :
    (s.enterPoison c l).cmd = s.cmd := State.cmd_of_sansSpad (State.enterPoison_sansSpad s c l)
@[simp] theorem State.enterPoison_bankJ (s : State) (c l : Nat) :
    (s.enterPoison c l).bankJ = s.bankJ := State.bankJ_of_sansSpad (State.enterPoison_sansSpad s c l)
@[simp] theorem State.enterPoison_bankK (s : State) (c l : Nat) :
    (s.enterPoison c l).bankK = s.bankK := State.bankK_of_sansSpad (State.enterPoison_sansSpad s c l)

@[simp] theorem State.readLine_pending (s : State) (l : Nat) :
    (s.readLine l).pending = s.pending := State.pending_of_sansSpad (State.readLine_sansSpad s l)
@[simp] theorem State.readLine_out (s : State) (l : Nat) :
    (s.readLine l).out = s.out := State.out_of_sansSpad (State.readLine_sansSpad s l)
@[simp] theorem State.readLine_freeCtr (s : State) (l : Nat) :
    (s.readLine l).freeCtr = s.freeCtr := State.freeCtr_of_sansSpad (State.readLine_sansSpad s l)
@[simp] theorem State.readLine_sb (s : State) (l : Nat) :
    (s.readLine l).sb = s.sb := State.sb_of_sansSpad (State.readLine_sansSpad s l)
@[simp] theorem State.readLine_tq (s : State) (l : Nat) :
    (s.readLine l).tq = s.tq := State.tq_of_sansSpad (State.readLine_sansSpad s l)
@[simp] theorem State.readLine_fl (s : State) (l : Nat) :
    (s.readLine l).fl = s.fl := State.fl_of_sansSpad (State.readLine_sansSpad s l)
@[simp] theorem State.readLine_reqs (s : State) (l : Nat) :
    (s.readLine l).reqs = s.reqs := State.reqs_of_sansSpad (State.readLine_sansSpad s l)
@[simp] theorem State.readLine_job (s : State) (l : Nat) :
    (s.readLine l).job = s.job := State.job_of_sansSpad (State.readLine_sansSpad s l)
@[simp] theorem State.readLine_ar (s : State) (l : Nat) :
    (s.readLine l).ar = s.ar := State.ar_of_sansSpad (State.readLine_sansSpad s l)
@[simp] theorem State.readLine_xp (s : State) (l : Nat) :
    (s.readLine l).xp = s.xp := State.xp_of_sansSpad (State.readLine_sansSpad s l)
@[simp] theorem State.readLine_xf (s : State) (l : Nat) :
    (s.readLine l).xf = s.xf := State.xf_of_sansSpad (State.readLine_sansSpad s l)
@[simp] theorem State.readLine_wins (s : State) (l : Nat) :
    (s.readLine l).wins = s.wins := State.wins_of_sansSpad (State.readLine_sansSpad s l)
@[simp] theorem State.readLine_yd (s : State) (l : Nat) :
    (s.readLine l).yd = s.yd := State.yd_of_sansSpad (State.readLine_sansSpad s l)
@[simp] theorem State.readLine_tb (s : State) (l : Nat) :
    (s.readLine l).tb = s.tb := State.tb_of_sansSpad (State.readLine_sansSpad s l)
@[simp] theorem State.readLine_live (s : State) (l : Nat) :
    (s.readLine l).live = s.live := State.live_of_sansSpad (State.readLine_sansSpad s l)
@[simp] theorem State.readLine_snap (s : State) (l : Nat) :
    (s.readLine l).snap = s.snap := State.snap_of_sansSpad (State.readLine_sansSpad s l)
@[simp] theorem State.readLine_svc (s : State) (l : Nat) :
    (s.readLine l).svc = s.svc := State.svc_of_sansSpad (State.readLine_sansSpad s l)
@[simp] theorem State.readLine_boot (s : State) (l : Nat) :
    (s.readLine l).boot = s.boot := State.boot_of_sansSpad (State.readLine_sansSpad s l)
@[simp] theorem State.readLine_cfg (s : State) (l : Nat) :
    (s.readLine l).cfg = s.cfg := State.cfg_of_sansSpad (State.readLine_sansSpad s l)
@[simp] theorem State.readLine_ports (s : State) (l : Nat) :
    (s.readLine l).ports = s.ports := State.ports_of_sansSpad (State.readLine_sansSpad s l)
@[simp] theorem State.readLine_pw (s : State) (l : Nat) :
    (s.readLine l).pw = s.pw := State.pw_of_sansSpad (State.readLine_sansSpad s l)
@[simp] theorem State.readLine_cmd (s : State) (l : Nat) :
    (s.readLine l).cmd = s.cmd := State.cmd_of_sansSpad (State.readLine_sansSpad s l)
@[simp] theorem State.readLine_bankJ (s : State) (l : Nat) :
    (s.readLine l).bankJ = s.bankJ := State.bankJ_of_sansSpad (State.readLine_sansSpad s l)
@[simp] theorem State.readLine_bankK (s : State) (l : Nat) :
    (s.readLine l).bankK = s.bankK := State.bankK_of_sansSpad (State.readLine_sansSpad s l)

@[simp] theorem State.readLines_pending (s : State) (p : Nat → Bool) :
    (s.readLines p).pending = s.pending := State.pending_of_sansSpad (State.readLines_sansSpad s p)
@[simp] theorem State.readLines_out (s : State) (p : Nat → Bool) :
    (s.readLines p).out = s.out := State.out_of_sansSpad (State.readLines_sansSpad s p)
@[simp] theorem State.readLines_freeCtr (s : State) (p : Nat → Bool) :
    (s.readLines p).freeCtr = s.freeCtr := State.freeCtr_of_sansSpad (State.readLines_sansSpad s p)
@[simp] theorem State.readLines_sb (s : State) (p : Nat → Bool) :
    (s.readLines p).sb = s.sb := State.sb_of_sansSpad (State.readLines_sansSpad s p)
@[simp] theorem State.readLines_tq (s : State) (p : Nat → Bool) :
    (s.readLines p).tq = s.tq := State.tq_of_sansSpad (State.readLines_sansSpad s p)
@[simp] theorem State.readLines_fl (s : State) (p : Nat → Bool) :
    (s.readLines p).fl = s.fl := State.fl_of_sansSpad (State.readLines_sansSpad s p)
@[simp] theorem State.readLines_reqs (s : State) (p : Nat → Bool) :
    (s.readLines p).reqs = s.reqs := State.reqs_of_sansSpad (State.readLines_sansSpad s p)
@[simp] theorem State.readLines_job (s : State) (p : Nat → Bool) :
    (s.readLines p).job = s.job := State.job_of_sansSpad (State.readLines_sansSpad s p)
@[simp] theorem State.readLines_ar (s : State) (p : Nat → Bool) :
    (s.readLines p).ar = s.ar := State.ar_of_sansSpad (State.readLines_sansSpad s p)
@[simp] theorem State.readLines_xp (s : State) (p : Nat → Bool) :
    (s.readLines p).xp = s.xp := State.xp_of_sansSpad (State.readLines_sansSpad s p)
@[simp] theorem State.readLines_xf (s : State) (p : Nat → Bool) :
    (s.readLines p).xf = s.xf := State.xf_of_sansSpad (State.readLines_sansSpad s p)
@[simp] theorem State.readLines_wins (s : State) (p : Nat → Bool) :
    (s.readLines p).wins = s.wins := State.wins_of_sansSpad (State.readLines_sansSpad s p)
@[simp] theorem State.readLines_yd (s : State) (p : Nat → Bool) :
    (s.readLines p).yd = s.yd := State.yd_of_sansSpad (State.readLines_sansSpad s p)
@[simp] theorem State.readLines_tb (s : State) (p : Nat → Bool) :
    (s.readLines p).tb = s.tb := State.tb_of_sansSpad (State.readLines_sansSpad s p)
@[simp] theorem State.readLines_live (s : State) (p : Nat → Bool) :
    (s.readLines p).live = s.live := State.live_of_sansSpad (State.readLines_sansSpad s p)
@[simp] theorem State.readLines_snap (s : State) (p : Nat → Bool) :
    (s.readLines p).snap = s.snap := State.snap_of_sansSpad (State.readLines_sansSpad s p)
@[simp] theorem State.readLines_svc (s : State) (p : Nat → Bool) :
    (s.readLines p).svc = s.svc := State.svc_of_sansSpad (State.readLines_sansSpad s p)
@[simp] theorem State.readLines_boot (s : State) (p : Nat → Bool) :
    (s.readLines p).boot = s.boot := State.boot_of_sansSpad (State.readLines_sansSpad s p)
@[simp] theorem State.readLines_cfg (s : State) (p : Nat → Bool) :
    (s.readLines p).cfg = s.cfg := State.cfg_of_sansSpad (State.readLines_sansSpad s p)
@[simp] theorem State.readLines_ports (s : State) (p : Nat → Bool) :
    (s.readLines p).ports = s.ports := State.ports_of_sansSpad (State.readLines_sansSpad s p)
@[simp] theorem State.readLines_pw (s : State) (p : Nat → Bool) :
    (s.readLines p).pw = s.pw := State.pw_of_sansSpad (State.readLines_sansSpad s p)
@[simp] theorem State.readLines_cmd (s : State) (p : Nat → Bool) :
    (s.readLines p).cmd = s.cmd := State.cmd_of_sansSpad (State.readLines_sansSpad s p)
@[simp] theorem State.readLines_bankJ (s : State) (p : Nat → Bool) :
    (s.readLines p).bankJ = s.bankJ := State.bankJ_of_sansSpad (State.readLines_sansSpad s p)
@[simp] theorem State.readLines_bankK (s : State) (p : Nat → Bool) :
    (s.readLines p).bankK = s.bankK := State.bankK_of_sansSpad (State.readLines_sansSpad s p)

@[simp] theorem State.store_pending (s : State) (ws : List BitW) (b o : Nat → Bool) :
    (s.store ws b o).pending = s.pending := State.pending_of_sansSpad (State.store_sansSpad s ws b o)
@[simp] theorem State.store_out (s : State) (ws : List BitW) (b o : Nat → Bool) :
    (s.store ws b o).out = s.out := State.out_of_sansSpad (State.store_sansSpad s ws b o)
@[simp] theorem State.store_freeCtr (s : State) (ws : List BitW) (b o : Nat → Bool) :
    (s.store ws b o).freeCtr = s.freeCtr := State.freeCtr_of_sansSpad (State.store_sansSpad s ws b o)
@[simp] theorem State.store_sb (s : State) (ws : List BitW) (b o : Nat → Bool) :
    (s.store ws b o).sb = s.sb := State.sb_of_sansSpad (State.store_sansSpad s ws b o)
@[simp] theorem State.store_tq (s : State) (ws : List BitW) (b o : Nat → Bool) :
    (s.store ws b o).tq = s.tq := State.tq_of_sansSpad (State.store_sansSpad s ws b o)
@[simp] theorem State.store_fl (s : State) (ws : List BitW) (b o : Nat → Bool) :
    (s.store ws b o).fl = s.fl := State.fl_of_sansSpad (State.store_sansSpad s ws b o)
@[simp] theorem State.store_reqs (s : State) (ws : List BitW) (b o : Nat → Bool) :
    (s.store ws b o).reqs = s.reqs := State.reqs_of_sansSpad (State.store_sansSpad s ws b o)
@[simp] theorem State.store_job (s : State) (ws : List BitW) (b o : Nat → Bool) :
    (s.store ws b o).job = s.job := State.job_of_sansSpad (State.store_sansSpad s ws b o)
@[simp] theorem State.store_ar (s : State) (ws : List BitW) (b o : Nat → Bool) :
    (s.store ws b o).ar = s.ar := State.ar_of_sansSpad (State.store_sansSpad s ws b o)
@[simp] theorem State.store_xp (s : State) (ws : List BitW) (b o : Nat → Bool) :
    (s.store ws b o).xp = s.xp := State.xp_of_sansSpad (State.store_sansSpad s ws b o)
@[simp] theorem State.store_xf (s : State) (ws : List BitW) (b o : Nat → Bool) :
    (s.store ws b o).xf = s.xf := State.xf_of_sansSpad (State.store_sansSpad s ws b o)
@[simp] theorem State.store_wins (s : State) (ws : List BitW) (b o : Nat → Bool) :
    (s.store ws b o).wins = s.wins := State.wins_of_sansSpad (State.store_sansSpad s ws b o)
@[simp] theorem State.store_yd (s : State) (ws : List BitW) (b o : Nat → Bool) :
    (s.store ws b o).yd = s.yd := State.yd_of_sansSpad (State.store_sansSpad s ws b o)
@[simp] theorem State.store_tb (s : State) (ws : List BitW) (b o : Nat → Bool) :
    (s.store ws b o).tb = s.tb := State.tb_of_sansSpad (State.store_sansSpad s ws b o)
@[simp] theorem State.store_live (s : State) (ws : List BitW) (b o : Nat → Bool) :
    (s.store ws b o).live = s.live := State.live_of_sansSpad (State.store_sansSpad s ws b o)
@[simp] theorem State.store_snap (s : State) (ws : List BitW) (b o : Nat → Bool) :
    (s.store ws b o).snap = s.snap := State.snap_of_sansSpad (State.store_sansSpad s ws b o)
@[simp] theorem State.store_svc (s : State) (ws : List BitW) (b o : Nat → Bool) :
    (s.store ws b o).svc = s.svc := State.svc_of_sansSpad (State.store_sansSpad s ws b o)
@[simp] theorem State.store_boot (s : State) (ws : List BitW) (b o : Nat → Bool) :
    (s.store ws b o).boot = s.boot := State.boot_of_sansSpad (State.store_sansSpad s ws b o)
@[simp] theorem State.store_cfg (s : State) (ws : List BitW) (b o : Nat → Bool) :
    (s.store ws b o).cfg = s.cfg := State.cfg_of_sansSpad (State.store_sansSpad s ws b o)
@[simp] theorem State.store_ports (s : State) (ws : List BitW) (b o : Nat → Bool) :
    (s.store ws b o).ports = s.ports := State.ports_of_sansSpad (State.store_sansSpad s ws b o)
@[simp] theorem State.store_pw (s : State) (ws : List BitW) (b o : Nat → Bool) :
    (s.store ws b o).pw = s.pw := State.pw_of_sansSpad (State.store_sansSpad s ws b o)
@[simp] theorem State.store_cmd (s : State) (ws : List BitW) (b o : Nat → Bool) :
    (s.store ws b o).cmd = s.cmd := State.cmd_of_sansSpad (State.store_sansSpad s ws b o)
@[simp] theorem State.store_bankJ (s : State) (ws : List BitW) (b o : Nat → Bool) :
    (s.store ws b o).bankJ = s.bankJ := State.bankJ_of_sansSpad (State.store_sansSpad s ws b o)
@[simp] theorem State.store_bankK (s : State) (ws : List BitW) (b o : Nat → Bool) :
    (s.store ws b o).bankK = s.bankK := State.bankK_of_sansSpad (State.store_sansSpad s ws b o)

@[simp] theorem State.putElems_pending (s : State) (d : Desc) (ws : List (Ix × Nat)) (b : Tile → Bool) (p : Bool) :
    (s.putElems d ws b p).pending = s.pending := State.pending_of_sansSpad (State.putElems_sansSpad s d ws b p)
@[simp] theorem State.putElems_out (s : State) (d : Desc) (ws : List (Ix × Nat)) (b : Tile → Bool) (p : Bool) :
    (s.putElems d ws b p).out = s.out := State.out_of_sansSpad (State.putElems_sansSpad s d ws b p)
@[simp] theorem State.putElems_freeCtr (s : State) (d : Desc) (ws : List (Ix × Nat)) (b : Tile → Bool) (p : Bool) :
    (s.putElems d ws b p).freeCtr = s.freeCtr := State.freeCtr_of_sansSpad (State.putElems_sansSpad s d ws b p)
@[simp] theorem State.putElems_sb (s : State) (d : Desc) (ws : List (Ix × Nat)) (b : Tile → Bool) (p : Bool) :
    (s.putElems d ws b p).sb = s.sb := State.sb_of_sansSpad (State.putElems_sansSpad s d ws b p)
@[simp] theorem State.putElems_tq (s : State) (d : Desc) (ws : List (Ix × Nat)) (b : Tile → Bool) (p : Bool) :
    (s.putElems d ws b p).tq = s.tq := State.tq_of_sansSpad (State.putElems_sansSpad s d ws b p)
@[simp] theorem State.putElems_fl (s : State) (d : Desc) (ws : List (Ix × Nat)) (b : Tile → Bool) (p : Bool) :
    (s.putElems d ws b p).fl = s.fl := State.fl_of_sansSpad (State.putElems_sansSpad s d ws b p)
@[simp] theorem State.putElems_reqs (s : State) (d : Desc) (ws : List (Ix × Nat)) (b : Tile → Bool) (p : Bool) :
    (s.putElems d ws b p).reqs = s.reqs := State.reqs_of_sansSpad (State.putElems_sansSpad s d ws b p)
@[simp] theorem State.putElems_job (s : State) (d : Desc) (ws : List (Ix × Nat)) (b : Tile → Bool) (p : Bool) :
    (s.putElems d ws b p).job = s.job := State.job_of_sansSpad (State.putElems_sansSpad s d ws b p)
@[simp] theorem State.putElems_ar (s : State) (d : Desc) (ws : List (Ix × Nat)) (b : Tile → Bool) (p : Bool) :
    (s.putElems d ws b p).ar = s.ar := State.ar_of_sansSpad (State.putElems_sansSpad s d ws b p)
@[simp] theorem State.putElems_xp (s : State) (d : Desc) (ws : List (Ix × Nat)) (b : Tile → Bool) (p : Bool) :
    (s.putElems d ws b p).xp = s.xp := State.xp_of_sansSpad (State.putElems_sansSpad s d ws b p)
@[simp] theorem State.putElems_xf (s : State) (d : Desc) (ws : List (Ix × Nat)) (b : Tile → Bool) (p : Bool) :
    (s.putElems d ws b p).xf = s.xf := State.xf_of_sansSpad (State.putElems_sansSpad s d ws b p)
@[simp] theorem State.putElems_wins (s : State) (d : Desc) (ws : List (Ix × Nat)) (b : Tile → Bool) (p : Bool) :
    (s.putElems d ws b p).wins = s.wins := State.wins_of_sansSpad (State.putElems_sansSpad s d ws b p)
@[simp] theorem State.putElems_yd (s : State) (d : Desc) (ws : List (Ix × Nat)) (b : Tile → Bool) (p : Bool) :
    (s.putElems d ws b p).yd = s.yd := State.yd_of_sansSpad (State.putElems_sansSpad s d ws b p)
@[simp] theorem State.putElems_tb (s : State) (d : Desc) (ws : List (Ix × Nat)) (b : Tile → Bool) (p : Bool) :
    (s.putElems d ws b p).tb = s.tb := State.tb_of_sansSpad (State.putElems_sansSpad s d ws b p)
@[simp] theorem State.putElems_live (s : State) (d : Desc) (ws : List (Ix × Nat)) (b : Tile → Bool) (p : Bool) :
    (s.putElems d ws b p).live = s.live := State.live_of_sansSpad (State.putElems_sansSpad s d ws b p)
@[simp] theorem State.putElems_snap (s : State) (d : Desc) (ws : List (Ix × Nat)) (b : Tile → Bool) (p : Bool) :
    (s.putElems d ws b p).snap = s.snap := State.snap_of_sansSpad (State.putElems_sansSpad s d ws b p)
@[simp] theorem State.putElems_svc (s : State) (d : Desc) (ws : List (Ix × Nat)) (b : Tile → Bool) (p : Bool) :
    (s.putElems d ws b p).svc = s.svc := State.svc_of_sansSpad (State.putElems_sansSpad s d ws b p)
@[simp] theorem State.putElems_boot (s : State) (d : Desc) (ws : List (Ix × Nat)) (b : Tile → Bool) (p : Bool) :
    (s.putElems d ws b p).boot = s.boot := State.boot_of_sansSpad (State.putElems_sansSpad s d ws b p)
@[simp] theorem State.putElems_cfg (s : State) (d : Desc) (ws : List (Ix × Nat)) (b : Tile → Bool) (p : Bool) :
    (s.putElems d ws b p).cfg = s.cfg := State.cfg_of_sansSpad (State.putElems_sansSpad s d ws b p)
@[simp] theorem State.putElems_ports (s : State) (d : Desc) (ws : List (Ix × Nat)) (b : Tile → Bool) (p : Bool) :
    (s.putElems d ws b p).ports = s.ports := State.ports_of_sansSpad (State.putElems_sansSpad s d ws b p)
@[simp] theorem State.putElems_pw (s : State) (d : Desc) (ws : List (Ix × Nat)) (b : Tile → Bool) (p : Bool) :
    (s.putElems d ws b p).pw = s.pw := State.pw_of_sansSpad (State.putElems_sansSpad s d ws b p)
@[simp] theorem State.putElems_cmd (s : State) (d : Desc) (ws : List (Ix × Nat)) (b : Tile → Bool) (p : Bool) :
    (s.putElems d ws b p).cmd = s.cmd := State.cmd_of_sansSpad (State.putElems_sansSpad s d ws b p)
@[simp] theorem State.putElems_bankJ (s : State) (d : Desc) (ws : List (Ix × Nat)) (b : Tile → Bool) (p : Bool) :
    (s.putElems d ws b p).bankJ = s.bankJ := State.bankJ_of_sansSpad (State.putElems_sansSpad s d ws b p)
@[simp] theorem State.putElems_bankK (s : State) (d : Desc) (ws : List (Ix × Nat)) (b : Tile → Bool) (p : Bool) :
    (s.putElems d ws b p).bankK = s.bankK := State.bankK_of_sansSpad (State.putElems_sansSpad s d ws b p)

/-! ### The memory -/

@[simp] theorem Spad.setPsn_mem (sp : Spad) (l : Nat) (b : Bool) : (sp.setPsn l b).mem = sp.mem := rfl

@[simp] theorem State.enterPoison_mem (s : State) (c l : Nat) : (s.enterPoison c l).sp.mem = s.sp.mem := by
  unfold State.enterPoison
  split
  · rfl
  · dsimp only; split <;> rfl

@[simp] theorem State.badLine_mem (s : State) (l : Nat) : (s.badLine l).sp.mem = s.sp.mem := by
  unfold State.badLine State.trace
  dsimp only
  split
  · rfl
  · split <;> simp

@[simp] theorem State.uncorrectable_mem (s : State) (l : Nat) : (s.uncorrectable l).sp.mem = s.sp.mem := by
  unfold State.uncorrectable; simp

/-- A read through ECC leaves every data bit as it is. -/
@[simp] theorem State.readLine_mem (s : State) (l : Nat) : (s.readLine l).sp.mem = s.sp.mem := by
  unfold State.readLine
  dsimp only
  split
  · rw [State.uncorrectable_mem]
    split <;> split <;> rfl
  · split <;> split <;> rfl

@[simp] theorem State.readLines_mem (s : State) (p : Nat → Bool) : (s.readLines p).sp.mem = s.sp.mem :=
  foldl_keeps (fun s : State => s.sp.mem) _ (fun a l => State.readLine_mem a l) _ _

/-- The memory after a store: the bit writes in their order. -/
theorem State.store_mem (s : State) (ws : List BitW) (b o : Nat → Bool) :
    (s.store ws b o).sp.mem = ws.foldl (fun m w => m.writeBits w.at_ w.width w.val) s.sp.mem := by
  unfold State.store
  dsimp only
  congr 1
  refine (foldl_keeps (fun sp : Spad => sp.mem) _ (fun sp l => Spad.setPsn_mem sp l _) _ _).trans ?_
  refine (foldl_keeps (fun s : State => s.sp.mem) (fun s (_ : Nat × Bool) => s.countCorrected) (fun _ _ => rfl) _ _).trans ?_
  exact foldl_keeps (fun s : State => s.sp.mem) _ (fun a l => State.uncorrectable_mem a l) _ _

theorem State.putLines_mem (s : State) (d : Desc) (ws : List BitW) (b : Nat → Bool) (n : Nat → Nat) (p : Bool) :
    (s.putLines d ws b n p).sp.mem = ws.foldl (fun m w => m.writeBits w.at_ w.width w.val) s.sp.mem :=
  State.store_mem s _ _ _

theorem State.putElems_mem (s : State) (d : Desc) (ws : List (Ix × Nat)) (b : Tile → Bool) (p : Bool) :
    (s.putElems d ws b p).sp.mem =
      (ws.map (fun x => d.bitW x.1 x.2)).foldl (fun m w => m.writeBits w.at_ w.width w.val) s.sp.mem :=
  State.store_mem s _ _ _

/-- A store keeps the canonical form. -/
theorem State.store_wf {s : State} (h : Memory.wf s.sp.mem = true) (ws : List BitW) (b o : Nat → Bool) :
    Memory.wf (s.store ws b o).sp.mem = true := by
  rw [State.store_mem]; exact Memory.wf_foldl_writeBits h ws

/-- A store into a tensor changes no byte that holds no bit of an element written. -/
theorem State.read_putElems_other {s : State} (h : Memory.wf s.sp.mem = true) (d : Desc) (ws : List (Ix × Nat))
    (b : Tile → Bool) (p : Bool) {j : Nat}
    (out : ∀ x ∈ ws, 8 * j + 8 ≤ d.bitAddr x.1 ∨ d.bitAddr x.1 + d.w ≤ 8 * j) :
    (s.putElems d ws b p).sp.mem.read j = s.sp.mem.read j := by
  rw [State.putElems_mem]
  apply Mem.read_foldl_writeBits_other h
  intro w hw
  obtain ⟨x, hx, rfl⟩ := List.mem_map.mp hw
  exact out x hx

/-- A store into a tensor reads back, where no two of the elements written share a bit. -/
theorem State.raw_putElems {s : State} (h : Memory.wf s.sp.mem = true) (d : Desc) {ws : List (Ix × Nat)}
    (b : Tile → Bool) (p : Bool)
    (apart : (ws.map (fun x => d.bitW x.1 x.2)).Pairwise BitW.apart) {x : Ix × Nat} (hx : x ∈ ws) :
    (s.putElems d ws b p).raw d x.1 = x.2 % 2 ^ d.w := by
  unfold State.raw
  rw [State.putElems_mem]
  exact Mem.readBits_foldl_apart h apart (List.mem_map.mpr ⟨x, hx, rfl⟩)

end Sys2Proof.Machine
end

