-- ==== Sys2Proof/Laws/Commit.lean ====
section
/-! SUPPORT. What taking back unmade writes, and a patrol read, can change. -/

namespace Sys2Proof.Machine

@[simp] theorem State.takeBack_sansSpad (s old : State) (ls : List Nat) : (s.takeBack old ls).sansSpad = s.sansSpad := rfl

theorem State.takeBack_mem (s old : State) (ls : List Nat) :
    (s.takeBack old ls).sp.mem = ls.foldl (fun m l => m.writeBytes l (old.lineBytes l)) s.sp.mem := by
  unfold State.takeBack
  dsimp only
  generalize s.sp = sp
  induction ls generalizing sp with
  | nil => rfl
  | cons l ls ih => rw [List.foldl_cons, List.foldl_cons, ih]

/-- A run of writes keeps the canonical form, and the bytes outside its parts. -/
theorem Memory.foldl_writeBytes (f : Nat → List Byte) (ls : List Nat) {m : Mem} (w : Memory.wf m = true) :
    Memory.wf (ls.foldl (fun m l => m.writeBytes l (f l)) m) = true ∧
      ∀ a, (∀ l ∈ ls, a < l ∨ l + (f l).length ≤ a) → (ls.foldl (fun m l => m.writeBytes l (f l)) m).read a = m.read a := by
  induction ls generalizing m with
  | nil => exact ⟨w, fun _ _ => rfl⟩
  | cons l ls ih =>
    rw [List.foldl_cons]
    obtain ⟨c, r⟩ := ih (Memory.wf_writeBytes w l (f l))
    refine ⟨c, fun a h => ?_⟩
    rw [r a (fun x i => h x (.tail _ i)), Mem.read_writeBytes w, if_neg]
    have := h l (.head _)
    omega

/-- Taking writes back keeps the canonical form. -/
theorem State.takeBack_wf {s : State} (w : Memory.wf s.sp.mem = true) (old : State) (ls : List Nat) :
    Memory.wf (s.takeBack old ls).sp.mem = true := by
  rw [State.takeBack_mem]; exact (Memory.foldl_writeBytes _ ls w).1

/-- A byte outside the lines taken back reads as before. -/
theorem State.takeBack_read {s : State} (w : Memory.wf s.sp.mem = true) (old : State) {ls : List Nat} {a : Nat}
    (h : ∀ l ∈ ls, a < l ∨ l + (old.lineBytes l).length ≤ a) : (s.takeBack old ls).sp.mem.read a = s.sp.mem.read a := by
  rw [State.takeBack_mem]; exact (Memory.foldl_writeBytes _ ls w).2 a h

@[simp] theorem State.patrolLine_sansSpad (s : State) (l : Nat) (found : List EccFind) (copies : BitVec 3) :
    (s.patrolLine l found copies).sansSpad = s.sansSpad := by
  unfold State.patrolLine
  split
  · rfl
  · exact State.readLine_sansSpad _ _

/-- A patrol read takes effect at once, or waits whole for the scrub (R402). -/
theorem State.patrolRead_cases (s : State) (l : Nat) (found : List EccFind) (copies : BitVec 3) :
    s.patrolRead l found copies = s.patrolLine l found copies
      ∨ s.patrolRead l found copies = { s with xf := { s.xf with parked := s.xf.parked ++ [.patrol l found copies] } } := by
  unfold State.patrolRead
  split
  · exact .inr rfl
  · exact .inl rfl

/-! ### Waits for the scrub -/

/-- With no scrub under way no line waits. -/
@[simp] theorem State.scrubRange_idle {s : State} (h : s.sp.scrubRun = false) (lo hi : Nat) : s.scrubRange lo hi = false := by
  unfold State.scrubRange; simp [h]
@[simp] theorem State.scrubLines_idle {s : State} (h : s.sp.scrubRun = false) (ls : List Nat) : s.scrubLines ls = false := by
  unfold State.scrubLines; simp [h]
@[simp] theorem State.scrubWaits_idle {s : State} (h : s.sp.scrubRun = false) (op : TOp) (q : QEntry) : s.scrubWaits op q = false := by
  unfold State.scrubWaits; simp [h]

/-- An instruction that passes its start checks, and whose accesses wait for the scrub, is in flight from its start on and does nothing
more yet (R77, R402). -/
theorem State.startTensor_waits {s : State} {op : TOp} {q : QEntry}
    (hs : firstStart (s.commonStart (op.srcs q) (op.outs q) ++ op.startChk q s) = none) (hm : q.w.tmark = false)
    (ht : (q.w.commit && s.yd.taintAny) = false) (hw : s.scrubWaits op q = true) :
    s.startTensor op q = { s with fl := s.fl ++ [⟨q, s.tickW, none, false, false, [], .scrub⟩] } := by
  unfold State.startTensor; simp [hs, hm, ht, hw]

/-- One that does not wait makes its accesses and its effect as it starts. -/
theorem State.startTensor_works {s : State} {op : TOp} {q : QEntry}
    (hs : firstStart (s.commonStart (op.srcs q) (op.outs q) ++ op.startChk q s) = none) (hm : q.w.tmark = false)
    (ht : (q.w.commit && s.yd.taintAny) = false) (hw : s.scrubWaits op q = false) :
    s.startTensor op q = ({ s with fl := s.fl ++ [⟨q, s.tickW, none, false, false, [], .idle⟩] } : State).work op q := by
  unfold State.startTensor; simp [hs, hm, ht, hw]

/-- Nothing is taken up while the scrub has passed nothing of it. -/
theorem State.unpark_none {s : State} {sel : Parked → Bool} (h : ∀ x ∈ s.xf.parked, (sel x && s.freed x) = false) :
    s.unpark sel = s := by
  have h1 : s.xf.parked.filter (fun x => sel x && s.freed x) = [] := by
    rw [List.filter_eq_nil_iff]; intro x hx; simp [h x hx]
  have h2 : s.xf.parked.filter (fun x => !(sel x && s.freed x)) = s.xf.parked := by
    rw [List.filter_eq_self]; intro x hx; simp [h x hx]
  unfold State.unpark; simp only [h1, h2, List.foldl_nil]

end Sys2Proof.Machine
end

