-- ==== Sys2Proof/Laws/Link.lean ====
section
/-! SUPPORT. What sending a message can change: ports, messages sent, requests, transfer and trigger registers, the trace;
the result that CMD_STAT shows of a completion; every other field is as it was. -/

namespace Sys2Proof.Machine

/-- The command registers without the result that a completion message sets as it is sent (18 R633). -/
def Cmd.sansResult (c : Cmd) : Cmd := { c with lastFault := 0, lastResult := 0 }

/-- The state without the parts that sending a message can change. -/
def State.sansLink (s : State) : State :=
  { s with ports := [], out := [], reqs := [], xf := Xfer.reset, yd := Yard.reset, tr := Trace.reset, cmd := s.cmd.sansResult }

@[simp] theorem State.setPort_sansLink (s : State) (p : Nat) (q : Port) : (s.setPort p q).sansLink = s.sansLink := rfl
@[simp] theorem State.emit_sansLink (s : State) (p : Nat) (m : OutMsg) : (s.emit p m).sansLink = s.sansLink := rfl
@[simp] theorem State.traceAt_sansLink (s : State) (k : W64) (n v : Nat) : (s.traceAt k n v).sansLink = s.sansLink := by
  unfold State.traceAt; split <;> rfl
@[simp] theorem State.trace_sansLink (s : State) (n v : Nat) : (s.trace n v).sansLink = s.sansLink :=
  State.traceAt_sansLink s s.tickW n v
@[simp] theorem State.sendTrigger_sansLink (s : State) (p : Nat) (i : Byte) (v : W64) :
    (s.sendTrigger p i v).sansLink = s.sansLink := rfl

@[simp] theorem State.handOver_sansLink (s : State) (o : Option Nat) (i : Byte) (v : W64) :
    (s.handOver o i v).sansLink = s.sansLink := by
  unfold State.handOver
  dsimp only
  split
  · exact State.trace_sansLink s _ _
  · exact State.trace_sansLink s _ _

@[simp] theorem State.postTile_sansLink (s : State) (o : Option Nat) (i : Byte) : (s.postTile o i).sansLink = s.sansLink :=
  State.handOver_sansLink _ _ _ _

@[simp] theorem State.sendItem_sansLink (s : State) (p : Nat) (i : TxItem) : (s.sendItem p i).sansLink = s.sansLink := by
  unfold State.sendItem
  split <;> first
    | rfl
    | exact State.postTile_sansLink _ _ _
    | (dsimp only; split <;> rfl)
    | (unfold State.cmdResult; dsimp only; split <;> rfl)

@[simp] theorem State.flushN_sansLink (k : Nat) (s : State) (p : Nat) : (s.flushN k p).sansLink = s.sansLink := by
  induction k generalizing s with
  | zero => rfl
  | succ k ih =>
    simp only [State.flushN]
    split
    · rfl
    · split
      · rfl
      · split
        · rw [ih]; simp
        · split <;> simp

@[simp] theorem State.flush_sansLink (s : State) (p : Nat) : (s.flush p).sansLink = s.sansLink := State.flushN_sansLink _ s p

@[simp] theorem State.send_sansLink (s : State) (p : Nat) (o : Option Nat) (m : OutMsg) (r : ReadFor) :
    (s.send p o m r).sansLink = s.sansLink := by unfold State.send; simp

@[simp] theorem State.sendFree_sansLink (s : State) (p : Nat) (m : OutMsg) : (s.sendFree p m).sansLink = s.sansLink := by
  unfold State.sendFree; split <;> simp

@[simp] theorem State.sendCredits_sansLink (k : Nat) (s : State) (p n : Nat) : (s.sendCredits k p n).sansLink = s.sansLink := by
  induction k generalizing s n with
  | zero => rfl
  | succ k ih =>
    cases n with
    | zero => rfl
    | succ n =>
      simp only [State.sendCredits]
      split
      · rfl
      · rw [ih]; simp

@[simp] theorem State.credits_sansLink (s : State) (p n : Nat) : (s.credits p n).sansLink = s.sansLink :=
  State.sendCredits_sansLink _ s p n

@[simp] theorem State.giveBack_sansLink (s : State) (p n : Nat) : (s.giveBack p n).sansLink = s.sansLink := by
  unfold State.giveBack; dsimp only; split <;> simp

/-- A port that is not UP takes nothing back. -/
@[simp] theorem State.giveBack_down {s : State} {p : Nat} (h : (s.port p).up = false) (n : Nat) : s.giveBack p n = s := by
  simp [State.giveBack, h]

/-- The buffer of a waiting command is a matter of the port alone. -/
@[simp] theorem State.doneWaiting_sansLink (s : State) (n : Nat) : (s.doneWaiting n).sansLink = s.sansLink := by
  unfold State.doneWaiting State.doneCmd; split <;> simp

@[simp] theorem State.reportState_sansLink (s : State) (f : BitVec 16) (r : BitVec 4) (e : W32) :
    (s.reportState f r e).sansLink = s.sansLink := by unfold State.reportState; simp

@[simp] theorem State.doneLink_answerOn (s : State) (p c w : Nat) (st : BitVec 40) (k : Nat) :
    (s.answerOn p c w st k).sansLink = s.sansLink := by unfold State.answerOn; simp

/-! ### Field by field -/

theorem State.pending_of_sansLink {a b : State} (h : a.sansLink = b.sansLink) : a.pending = b.pending := by
  have e := congrArg State.pending h; exact e
theorem State.freeCtr_of_sansLink {a b : State} (h : a.sansLink = b.sansLink) : a.freeCtr = b.freeCtr := by
  have e := congrArg State.freeCtr h; exact e
theorem State.sb_of_sansLink {a b : State} (h : a.sansLink = b.sansLink) : a.sb = b.sb := by
  have e := congrArg State.sb h; exact e
theorem State.tq_of_sansLink {a b : State} (h : a.sansLink = b.sansLink) : a.tq = b.tq := by
  have e := congrArg State.tq h; exact e
theorem State.fl_of_sansLink {a b : State} (h : a.sansLink = b.sansLink) : a.fl = b.fl := by
  have e := congrArg State.fl h; exact e
theorem State.job_of_sansLink {a b : State} (h : a.sansLink = b.sansLink) : a.job = b.job := by
  have e := congrArg State.job h; exact e
theorem State.ar_of_sansLink {a b : State} (h : a.sansLink = b.sansLink) : a.ar = b.ar := by
  have e := congrArg State.ar h; exact e
theorem State.xp_of_sansLink {a b : State} (h : a.sansLink = b.sansLink) : a.xp = b.xp := by
  have e := congrArg State.xp h; exact e
theorem State.sp_of_sansLink {a b : State} (h : a.sansLink = b.sansLink) : a.sp = b.sp := by
  have e := congrArg State.sp h; exact e
theorem State.wins_of_sansLink {a b : State} (h : a.sansLink = b.sansLink) : a.wins = b.wins := by
  have e := congrArg State.wins h; exact e
theorem State.tb_of_sansLink {a b : State} (h : a.sansLink = b.sansLink) : a.tb = b.tb := by
  have e := congrArg State.tb h; exact e
theorem State.live_of_sansLink {a b : State} (h : a.sansLink = b.sansLink) : a.live = b.live := by
  have e := congrArg State.live h; exact e
theorem State.snap_of_sansLink {a b : State} (h : a.sansLink = b.sansLink) : a.snap = b.snap := by
  have e := congrArg State.snap h; exact e
theorem State.ft_of_sansLink {a b : State} (h : a.sansLink = b.sansLink) : a.ft = b.ft := by
  have e := congrArg State.ft h; exact e
theorem State.svc_of_sansLink {a b : State} (h : a.sansLink = b.sansLink) : a.svc = b.svc := by
  have e := congrArg State.svc h; exact e
theorem State.boot_of_sansLink {a b : State} (h : a.sansLink = b.sansLink) : a.boot = b.boot := by
  have e := congrArg State.boot h; exact e
theorem State.cfg_of_sansLink {a b : State} (h : a.sansLink = b.sansLink) : a.cfg = b.cfg := by
  have e := congrArg State.cfg h; exact e
theorem State.hl_of_sansLink {a b : State} (h : a.sansLink = b.sansLink) : a.hl = b.hl := by
  have e := congrArg State.hl h; exact e
theorem State.pw_of_sansLink {a b : State} (h : a.sansLink = b.sansLink) : a.pw = b.pw := by
  have e := congrArg State.pw h; exact e
theorem State.cmd_of_sansLink {a b : State} (h : a.sansLink = b.sansLink) : a.cmd.sansResult = b.cmd.sansResult := by
  have e := congrArg State.cmd h; exact e
theorem State.bankJ_of_sansLink {a b : State} (h : a.sansLink = b.sansLink) : a.bankJ = b.bankJ := by
  have e := congrArg State.bankJ h; exact e
theorem State.bankK_of_sansLink {a b : State} (h : a.sansLink = b.sansLink) : a.bankK = b.bankK := by
  have e := congrArg State.bankK h; exact e

@[simp] theorem State.trace_pending (s : State) (n v : Nat) : (s.trace n v).pending = s.pending :=
  State.pending_of_sansLink (State.trace_sansLink s n v)
@[simp] theorem State.trace_freeCtr (s : State) (n v : Nat) : (s.trace n v).freeCtr = s.freeCtr :=
  State.freeCtr_of_sansLink (State.trace_sansLink s n v)
@[simp] theorem State.trace_sb (s : State) (n v : Nat) : (s.trace n v).sb = s.sb :=
  State.sb_of_sansLink (State.trace_sansLink s n v)
@[simp] theorem State.trace_tq (s : State) (n v : Nat) : (s.trace n v).tq = s.tq :=
  State.tq_of_sansLink (State.trace_sansLink s n v)
@[simp] theorem State.trace_fl (s : State) (n v : Nat) : (s.trace n v).fl = s.fl :=
  State.fl_of_sansLink (State.trace_sansLink s n v)
@[simp] theorem State.trace_job (s : State) (n v : Nat) : (s.trace n v).job = s.job :=
  State.job_of_sansLink (State.trace_sansLink s n v)
@[simp] theorem State.trace_ar (s : State) (n v : Nat) : (s.trace n v).ar = s.ar :=
  State.ar_of_sansLink (State.trace_sansLink s n v)
@[simp] theorem State.trace_xp (s : State) (n v : Nat) : (s.trace n v).xp = s.xp :=
  State.xp_of_sansLink (State.trace_sansLink s n v)
@[simp] theorem State.trace_sp (s : State) (n v : Nat) : (s.trace n v).sp = s.sp :=
  State.sp_of_sansLink (State.trace_sansLink s n v)
@[simp] theorem State.trace_wins (s : State) (n v : Nat) : (s.trace n v).wins = s.wins :=
  State.wins_of_sansLink (State.trace_sansLink s n v)
@[simp] theorem State.trace_tb (s : State) (n v : Nat) : (s.trace n v).tb = s.tb :=
  State.tb_of_sansLink (State.trace_sansLink s n v)
@[simp] theorem State.trace_live (s : State) (n v : Nat) : (s.trace n v).live = s.live :=
  State.live_of_sansLink (State.trace_sansLink s n v)
@[simp] theorem State.trace_snap (s : State) (n v : Nat) : (s.trace n v).snap = s.snap :=
  State.snap_of_sansLink (State.trace_sansLink s n v)
@[simp] theorem State.trace_ft (s : State) (n v : Nat) : (s.trace n v).ft = s.ft :=
  State.ft_of_sansLink (State.trace_sansLink s n v)
@[simp] theorem State.trace_svc (s : State) (n v : Nat) : (s.trace n v).svc = s.svc :=
  State.svc_of_sansLink (State.trace_sansLink s n v)
@[simp] theorem State.trace_boot (s : State) (n v : Nat) : (s.trace n v).boot = s.boot :=
  State.boot_of_sansLink (State.trace_sansLink s n v)
@[simp] theorem State.trace_cfg (s : State) (n v : Nat) : (s.trace n v).cfg = s.cfg :=
  State.cfg_of_sansLink (State.trace_sansLink s n v)
@[simp] theorem State.trace_hl (s : State) (n v : Nat) : (s.trace n v).hl = s.hl :=
  State.hl_of_sansLink (State.trace_sansLink s n v)
@[simp] theorem State.trace_pw (s : State) (n v : Nat) : (s.trace n v).pw = s.pw :=
  State.pw_of_sansLink (State.trace_sansLink s n v)
@[simp] theorem State.trace_cmd (s : State) (n v : Nat) : (s.trace n v).cmd = s.cmd := State.traceAt_cmd s s.tickW n v
@[simp] theorem State.trace_bankJ (s : State) (n v : Nat) : (s.trace n v).bankJ = s.bankJ :=
  State.bankJ_of_sansLink (State.trace_sansLink s n v)
@[simp] theorem State.trace_bankK (s : State) (n v : Nat) : (s.trace n v).bankK = s.bankK :=
  State.bankK_of_sansLink (State.trace_sansLink s n v)

@[simp] theorem State.handOver_pending (s : State) (o : Option Nat) (i : Byte) (v : W64) : (s.handOver o i v).pending = s.pending :=
  State.pending_of_sansLink (State.handOver_sansLink s o i v)
@[simp] theorem State.handOver_freeCtr (s : State) (o : Option Nat) (i : Byte) (v : W64) : (s.handOver o i v).freeCtr = s.freeCtr :=
  State.freeCtr_of_sansLink (State.handOver_sansLink s o i v)
@[simp] theorem State.handOver_sb (s : State) (o : Option Nat) (i : Byte) (v : W64) : (s.handOver o i v).sb = s.sb :=
  State.sb_of_sansLink (State.handOver_sansLink s o i v)
@[simp] theorem State.handOver_tq (s : State) (o : Option Nat) (i : Byte) (v : W64) : (s.handOver o i v).tq = s.tq :=
  State.tq_of_sansLink (State.handOver_sansLink s o i v)
@[simp] theorem State.handOver_fl (s : State) (o : Option Nat) (i : Byte) (v : W64) : (s.handOver o i v).fl = s.fl :=
  State.fl_of_sansLink (State.handOver_sansLink s o i v)
@[simp] theorem State.handOver_job (s : State) (o : Option Nat) (i : Byte) (v : W64) : (s.handOver o i v).job = s.job :=
  State.job_of_sansLink (State.handOver_sansLink s o i v)
@[simp] theorem State.handOver_ar (s : State) (o : Option Nat) (i : Byte) (v : W64) : (s.handOver o i v).ar = s.ar :=
  State.ar_of_sansLink (State.handOver_sansLink s o i v)
@[simp] theorem State.handOver_xp (s : State) (o : Option Nat) (i : Byte) (v : W64) : (s.handOver o i v).xp = s.xp :=
  State.xp_of_sansLink (State.handOver_sansLink s o i v)
@[simp] theorem State.handOver_sp (s : State) (o : Option Nat) (i : Byte) (v : W64) : (s.handOver o i v).sp = s.sp :=
  State.sp_of_sansLink (State.handOver_sansLink s o i v)
@[simp] theorem State.handOver_wins (s : State) (o : Option Nat) (i : Byte) (v : W64) : (s.handOver o i v).wins = s.wins :=
  State.wins_of_sansLink (State.handOver_sansLink s o i v)
@[simp] theorem State.handOver_tb (s : State) (o : Option Nat) (i : Byte) (v : W64) : (s.handOver o i v).tb = s.tb :=
  State.tb_of_sansLink (State.handOver_sansLink s o i v)
@[simp] theorem State.handOver_live (s : State) (o : Option Nat) (i : Byte) (v : W64) : (s.handOver o i v).live = s.live :=
  State.live_of_sansLink (State.handOver_sansLink s o i v)
@[simp] theorem State.handOver_snap (s : State) (o : Option Nat) (i : Byte) (v : W64) : (s.handOver o i v).snap = s.snap :=
  State.snap_of_sansLink (State.handOver_sansLink s o i v)
@[simp] theorem State.handOver_ft (s : State) (o : Option Nat) (i : Byte) (v : W64) : (s.handOver o i v).ft = s.ft :=
  State.ft_of_sansLink (State.handOver_sansLink s o i v)
@[simp] theorem State.handOver_svc (s : State) (o : Option Nat) (i : Byte) (v : W64) : (s.handOver o i v).svc = s.svc :=
  State.svc_of_sansLink (State.handOver_sansLink s o i v)
@[simp] theorem State.handOver_boot (s : State) (o : Option Nat) (i : Byte) (v : W64) : (s.handOver o i v).boot = s.boot :=
  State.boot_of_sansLink (State.handOver_sansLink s o i v)
@[simp] theorem State.handOver_cfg (s : State) (o : Option Nat) (i : Byte) (v : W64) : (s.handOver o i v).cfg = s.cfg :=
  State.cfg_of_sansLink (State.handOver_sansLink s o i v)
@[simp] theorem State.handOver_hl (s : State) (o : Option Nat) (i : Byte) (v : W64) : (s.handOver o i v).hl = s.hl :=
  State.hl_of_sansLink (State.handOver_sansLink s o i v)
@[simp] theorem State.handOver_pw (s : State) (o : Option Nat) (i : Byte) (v : W64) : (s.handOver o i v).pw = s.pw :=
  State.pw_of_sansLink (State.handOver_sansLink s o i v)
@[simp] theorem State.handOver_cmd (s : State) (o : Option Nat) (i : Byte) (v : W64) : (s.handOver o i v).cmd = s.cmd := by
  unfold State.handOver; dsimp only; split
  · exact State.traceAt_cmd s s.tickW _ _
  · exact State.traceAt_cmd s s.tickW _ _
@[simp] theorem State.handOver_bankJ (s : State) (o : Option Nat) (i : Byte) (v : W64) : (s.handOver o i v).bankJ = s.bankJ :=
  State.bankJ_of_sansLink (State.handOver_sansLink s o i v)
@[simp] theorem State.handOver_bankK (s : State) (o : Option Nat) (i : Byte) (v : W64) : (s.handOver o i v).bankK = s.bankK :=
  State.bankK_of_sansLink (State.handOver_sansLink s o i v)

@[simp] theorem State.flush_pending (s : State) (p : Nat) : (s.flush p).pending = s.pending :=
  State.pending_of_sansLink (State.flush_sansLink s p)
@[simp] theorem State.flush_freeCtr (s : State) (p : Nat) : (s.flush p).freeCtr = s.freeCtr :=
  State.freeCtr_of_sansLink (State.flush_sansLink s p)
@[simp] theorem State.flush_sb (s : State) (p : Nat) : (s.flush p).sb = s.sb :=
  State.sb_of_sansLink (State.flush_sansLink s p)
@[simp] theorem State.flush_tq (s : State) (p : Nat) : (s.flush p).tq = s.tq :=
  State.tq_of_sansLink (State.flush_sansLink s p)
@[simp] theorem State.flush_fl (s : State) (p : Nat) : (s.flush p).fl = s.fl :=
  State.fl_of_sansLink (State.flush_sansLink s p)
@[simp] theorem State.flush_job (s : State) (p : Nat) : (s.flush p).job = s.job :=
  State.job_of_sansLink (State.flush_sansLink s p)
@[simp] theorem State.flush_ar (s : State) (p : Nat) : (s.flush p).ar = s.ar :=
  State.ar_of_sansLink (State.flush_sansLink s p)
@[simp] theorem State.flush_xp (s : State) (p : Nat) : (s.flush p).xp = s.xp :=
  State.xp_of_sansLink (State.flush_sansLink s p)
@[simp] theorem State.flush_sp (s : State) (p : Nat) : (s.flush p).sp = s.sp :=
  State.sp_of_sansLink (State.flush_sansLink s p)
@[simp] theorem State.flush_wins (s : State) (p : Nat) : (s.flush p).wins = s.wins :=
  State.wins_of_sansLink (State.flush_sansLink s p)
@[simp] theorem State.flush_tb (s : State) (p : Nat) : (s.flush p).tb = s.tb :=
  State.tb_of_sansLink (State.flush_sansLink s p)
@[simp] theorem State.flush_live (s : State) (p : Nat) : (s.flush p).live = s.live :=
  State.live_of_sansLink (State.flush_sansLink s p)
@[simp] theorem State.flush_snap (s : State) (p : Nat) : (s.flush p).snap = s.snap :=
  State.snap_of_sansLink (State.flush_sansLink s p)
@[simp] theorem State.flush_ft (s : State) (p : Nat) : (s.flush p).ft = s.ft :=
  State.ft_of_sansLink (State.flush_sansLink s p)
@[simp] theorem State.flush_svc (s : State) (p : Nat) : (s.flush p).svc = s.svc :=
  State.svc_of_sansLink (State.flush_sansLink s p)
@[simp] theorem State.flush_boot (s : State) (p : Nat) : (s.flush p).boot = s.boot :=
  State.boot_of_sansLink (State.flush_sansLink s p)
@[simp] theorem State.flush_cfg (s : State) (p : Nat) : (s.flush p).cfg = s.cfg :=
  State.cfg_of_sansLink (State.flush_sansLink s p)
@[simp] theorem State.flush_hl (s : State) (p : Nat) : (s.flush p).hl = s.hl :=
  State.hl_of_sansLink (State.flush_sansLink s p)
@[simp] theorem State.flush_pw (s : State) (p : Nat) : (s.flush p).pw = s.pw :=
  State.pw_of_sansLink (State.flush_sansLink s p)
@[simp] theorem State.flush_cmdRest (s : State) (p : Nat) : (s.flush p).cmd.sansResult = s.cmd.sansResult :=
  State.cmd_of_sansLink (State.flush_sansLink s p)
@[simp] theorem State.flush_lastCode (s : State) (p : Nat) : (s.flush p).cmd.lastCode = s.cmd.lastCode := by
  have e := congrArg Cmd.lastCode (State.cmd_of_sansLink (State.flush_sansLink s p)); exact e
@[simp] theorem State.flush_refused (s : State) (p : Nat) : (s.flush p).cmd.refused = s.cmd.refused := by
  have e := congrArg Cmd.refused (State.cmd_of_sansLink (State.flush_sansLink s p)); exact e
@[simp] theorem State.flush_accepted (s : State) (p : Nat) : (s.flush p).cmd.accepted = s.cmd.accepted := by
  have e := congrArg Cmd.accepted (State.cmd_of_sansLink (State.flush_sansLink s p)); exact e
@[simp] theorem State.flush_queue (s : State) (p : Nat) : (s.flush p).cmd.queue = s.cmd.queue := by
  have e := congrArg Cmd.queue (State.cmd_of_sansLink (State.flush_sansLink s p)); exact e
@[simp] theorem State.flush_heldLoad (s : State) (p : Nat) : (s.flush p).cmd.heldLoad = s.cmd.heldLoad := by
  have e := congrArg Cmd.heldLoad (State.cmd_of_sansLink (State.flush_sansLink s p)); exact e
@[simp] theorem State.flush_bankJ (s : State) (p : Nat) : (s.flush p).bankJ = s.bankJ :=
  State.bankJ_of_sansLink (State.flush_sansLink s p)
@[simp] theorem State.flush_bankK (s : State) (p : Nat) : (s.flush p).bankK = s.bankK :=
  State.bankK_of_sansLink (State.flush_sansLink s p)

@[simp] theorem State.send_pending (s : State) (p : Nat) (o : Option Nat) (m : OutMsg) (r : ReadFor) : (s.send p o m r).pending = s.pending :=
  State.pending_of_sansLink (State.send_sansLink s p o m r)
@[simp] theorem State.send_freeCtr (s : State) (p : Nat) (o : Option Nat) (m : OutMsg) (r : ReadFor) : (s.send p o m r).freeCtr = s.freeCtr :=
  State.freeCtr_of_sansLink (State.send_sansLink s p o m r)
@[simp] theorem State.send_sb (s : State) (p : Nat) (o : Option Nat) (m : OutMsg) (r : ReadFor) : (s.send p o m r).sb = s.sb :=
  State.sb_of_sansLink (State.send_sansLink s p o m r)
@[simp] theorem State.send_tq (s : State) (p : Nat) (o : Option Nat) (m : OutMsg) (r : ReadFor) : (s.send p o m r).tq = s.tq :=
  State.tq_of_sansLink (State.send_sansLink s p o m r)
@[simp] theorem State.send_fl (s : State) (p : Nat) (o : Option Nat) (m : OutMsg) (r : ReadFor) : (s.send p o m r).fl = s.fl :=
  State.fl_of_sansLink (State.send_sansLink s p o m r)
@[simp] theorem State.send_job (s : State) (p : Nat) (o : Option Nat) (m : OutMsg) (r : ReadFor) : (s.send p o m r).job = s.job :=
  State.job_of_sansLink (State.send_sansLink s p o m r)
@[simp] theorem State.send_ar (s : State) (p : Nat) (o : Option Nat) (m : OutMsg) (r : ReadFor) : (s.send p o m r).ar = s.ar :=
  State.ar_of_sansLink (State.send_sansLink s p o m r)
@[simp] theorem State.send_xp (s : State) (p : Nat) (o : Option Nat) (m : OutMsg) (r : ReadFor) : (s.send p o m r).xp = s.xp :=
  State.xp_of_sansLink (State.send_sansLink s p o m r)
@[simp] theorem State.send_sp (s : State) (p : Nat) (o : Option Nat) (m : OutMsg) (r : ReadFor) : (s.send p o m r).sp = s.sp :=
  State.sp_of_sansLink (State.send_sansLink s p o m r)
@[simp] theorem State.send_wins (s : State) (p : Nat) (o : Option Nat) (m : OutMsg) (r : ReadFor) : (s.send p o m r).wins = s.wins :=
  State.wins_of_sansLink (State.send_sansLink s p o m r)
@[simp] theorem State.send_tb (s : State) (p : Nat) (o : Option Nat) (m : OutMsg) (r : ReadFor) : (s.send p o m r).tb = s.tb :=
  State.tb_of_sansLink (State.send_sansLink s p o m r)
@[simp] theorem State.send_live (s : State) (p : Nat) (o : Option Nat) (m : OutMsg) (r : ReadFor) : (s.send p o m r).live = s.live :=
  State.live_of_sansLink (State.send_sansLink s p o m r)
@[simp] theorem State.send_snap (s : State) (p : Nat) (o : Option Nat) (m : OutMsg) (r : ReadFor) : (s.send p o m r).snap = s.snap :=
  State.snap_of_sansLink (State.send_sansLink s p o m r)
@[simp] theorem State.send_ft (s : State) (p : Nat) (o : Option Nat) (m : OutMsg) (r : ReadFor) : (s.send p o m r).ft = s.ft :=
  State.ft_of_sansLink (State.send_sansLink s p o m r)
@[simp] theorem State.send_svc (s : State) (p : Nat) (o : Option Nat) (m : OutMsg) (r : ReadFor) : (s.send p o m r).svc = s.svc :=
  State.svc_of_sansLink (State.send_sansLink s p o m r)
@[simp] theorem State.send_boot (s : State) (p : Nat) (o : Option Nat) (m : OutMsg) (r : ReadFor) : (s.send p o m r).boot = s.boot :=
  State.boot_of_sansLink (State.send_sansLink s p o m r)
@[simp] theorem State.send_cfg (s : State) (p : Nat) (o : Option Nat) (m : OutMsg) (r : ReadFor) : (s.send p o m r).cfg = s.cfg :=
  State.cfg_of_sansLink (State.send_sansLink s p o m r)
@[simp] theorem State.send_hl (s : State) (p : Nat) (o : Option Nat) (m : OutMsg) (r : ReadFor) : (s.send p o m r).hl = s.hl :=
  State.hl_of_sansLink (State.send_sansLink s p o m r)
@[simp] theorem State.send_pw (s : State) (p : Nat) (o : Option Nat) (m : OutMsg) (r : ReadFor) : (s.send p o m r).pw = s.pw :=
  State.pw_of_sansLink (State.send_sansLink s p o m r)
@[simp] theorem State.send_cmdRest (s : State) (p : Nat) (o : Option Nat) (m : OutMsg) (r : ReadFor) : (s.send p o m r).cmd.sansResult = s.cmd.sansResult :=
  State.cmd_of_sansLink (State.send_sansLink s p o m r)
@[simp] theorem State.send_lastCode (s : State) (p : Nat) (o : Option Nat) (m : OutMsg) (r : ReadFor) : (s.send p o m r).cmd.lastCode = s.cmd.lastCode := by
  have e := congrArg Cmd.lastCode (State.cmd_of_sansLink (State.send_sansLink s p o m r)); exact e
@[simp] theorem State.send_refused (s : State) (p : Nat) (o : Option Nat) (m : OutMsg) (r : ReadFor) : (s.send p o m r).cmd.refused = s.cmd.refused := by
  have e := congrArg Cmd.refused (State.cmd_of_sansLink (State.send_sansLink s p o m r)); exact e
@[simp] theorem State.send_accepted (s : State) (p : Nat) (o : Option Nat) (m : OutMsg) (r : ReadFor) : (s.send p o m r).cmd.accepted = s.cmd.accepted := by
  have e := congrArg Cmd.accepted (State.cmd_of_sansLink (State.send_sansLink s p o m r)); exact e
@[simp] theorem State.send_queue (s : State) (p : Nat) (o : Option Nat) (m : OutMsg) (r : ReadFor) : (s.send p o m r).cmd.queue = s.cmd.queue := by
  have e := congrArg Cmd.queue (State.cmd_of_sansLink (State.send_sansLink s p o m r)); exact e
@[simp] theorem State.send_heldLoad (s : State) (p : Nat) (o : Option Nat) (m : OutMsg) (r : ReadFor) : (s.send p o m r).cmd.heldLoad = s.cmd.heldLoad := by
  have e := congrArg Cmd.heldLoad (State.cmd_of_sansLink (State.send_sansLink s p o m r)); exact e
@[simp] theorem State.send_bankJ (s : State) (p : Nat) (o : Option Nat) (m : OutMsg) (r : ReadFor) : (s.send p o m r).bankJ = s.bankJ :=
  State.bankJ_of_sansLink (State.send_sansLink s p o m r)
@[simp] theorem State.send_bankK (s : State) (p : Nat) (o : Option Nat) (m : OutMsg) (r : ReadFor) : (s.send p o m r).bankK = s.bankK :=
  State.bankK_of_sansLink (State.send_sansLink s p o m r)

@[simp] theorem State.credits_pending (s : State) (p n : Nat) : (s.credits p n).pending = s.pending :=
  State.pending_of_sansLink (State.credits_sansLink s p n)
@[simp] theorem State.credits_freeCtr (s : State) (p n : Nat) : (s.credits p n).freeCtr = s.freeCtr :=
  State.freeCtr_of_sansLink (State.credits_sansLink s p n)
@[simp] theorem State.credits_sb (s : State) (p n : Nat) : (s.credits p n).sb = s.sb :=
  State.sb_of_sansLink (State.credits_sansLink s p n)
@[simp] theorem State.credits_tq (s : State) (p n : Nat) : (s.credits p n).tq = s.tq :=
  State.tq_of_sansLink (State.credits_sansLink s p n)
@[simp] theorem State.credits_fl (s : State) (p n : Nat) : (s.credits p n).fl = s.fl :=
  State.fl_of_sansLink (State.credits_sansLink s p n)
@[simp] theorem State.credits_job (s : State) (p n : Nat) : (s.credits p n).job = s.job :=
  State.job_of_sansLink (State.credits_sansLink s p n)
@[simp] theorem State.credits_ar (s : State) (p n : Nat) : (s.credits p n).ar = s.ar :=
  State.ar_of_sansLink (State.credits_sansLink s p n)
@[simp] theorem State.credits_xp (s : State) (p n : Nat) : (s.credits p n).xp = s.xp :=
  State.xp_of_sansLink (State.credits_sansLink s p n)
@[simp] theorem State.credits_sp (s : State) (p n : Nat) : (s.credits p n).sp = s.sp :=
  State.sp_of_sansLink (State.credits_sansLink s p n)
@[simp] theorem State.credits_wins (s : State) (p n : Nat) : (s.credits p n).wins = s.wins :=
  State.wins_of_sansLink (State.credits_sansLink s p n)
@[simp] theorem State.credits_tb (s : State) (p n : Nat) : (s.credits p n).tb = s.tb :=
  State.tb_of_sansLink (State.credits_sansLink s p n)
@[simp] theorem State.credits_live (s : State) (p n : Nat) : (s.credits p n).live = s.live :=
  State.live_of_sansLink (State.credits_sansLink s p n)
@[simp] theorem State.credits_snap (s : State) (p n : Nat) : (s.credits p n).snap = s.snap :=
  State.snap_of_sansLink (State.credits_sansLink s p n)
@[simp] theorem State.credits_ft (s : State) (p n : Nat) : (s.credits p n).ft = s.ft :=
  State.ft_of_sansLink (State.credits_sansLink s p n)
@[simp] theorem State.credits_svc (s : State) (p n : Nat) : (s.credits p n).svc = s.svc :=
  State.svc_of_sansLink (State.credits_sansLink s p n)
@[simp] theorem State.credits_boot (s : State) (p n : Nat) : (s.credits p n).boot = s.boot :=
  State.boot_of_sansLink (State.credits_sansLink s p n)
@[simp] theorem State.credits_cfg (s : State) (p n : Nat) : (s.credits p n).cfg = s.cfg :=
  State.cfg_of_sansLink (State.credits_sansLink s p n)
@[simp] theorem State.credits_hl (s : State) (p n : Nat) : (s.credits p n).hl = s.hl :=
  State.hl_of_sansLink (State.credits_sansLink s p n)
@[simp] theorem State.credits_pw (s : State) (p n : Nat) : (s.credits p n).pw = s.pw :=
  State.pw_of_sansLink (State.credits_sansLink s p n)
@[simp] theorem State.sendCredits_cmd (k : Nat) (s : State) (p n : Nat) : (s.sendCredits k p n).cmd = s.cmd := by
  induction k generalizing s n with
  | zero => rfl
  | succ k ih =>
    cases n with
    | zero => rfl
    | succ n =>
      simp only [State.sendCredits]
      split
      · rfl
      · rw [ih]; unfold State.sendFree; split <;> rfl
@[simp] theorem State.credits_cmd (s : State) (p n : Nat) : (s.credits p n).cmd = s.cmd := State.sendCredits_cmd _ s p n
@[simp] theorem State.credits_bankJ (s : State) (p n : Nat) : (s.credits p n).bankJ = s.bankJ :=
  State.bankJ_of_sansLink (State.credits_sansLink s p n)
@[simp] theorem State.credits_bankK (s : State) (p n : Nat) : (s.credits p n).bankK = s.bankK :=
  State.bankK_of_sansLink (State.credits_sansLink s p n)

@[simp] theorem State.giveBack_pending (s : State) (p n : Nat) : (s.giveBack p n).pending = s.pending :=
  State.pending_of_sansLink (State.giveBack_sansLink s p n)
@[simp] theorem State.giveBack_freeCtr (s : State) (p n : Nat) : (s.giveBack p n).freeCtr = s.freeCtr :=
  State.freeCtr_of_sansLink (State.giveBack_sansLink s p n)
@[simp] theorem State.giveBack_sb (s : State) (p n : Nat) : (s.giveBack p n).sb = s.sb :=
  State.sb_of_sansLink (State.giveBack_sansLink s p n)
@[simp] theorem State.giveBack_tq (s : State) (p n : Nat) : (s.giveBack p n).tq = s.tq :=
  State.tq_of_sansLink (State.giveBack_sansLink s p n)
@[simp] theorem State.giveBack_fl (s : State) (p n : Nat) : (s.giveBack p n).fl = s.fl :=
  State.fl_of_sansLink (State.giveBack_sansLink s p n)
@[simp] theorem State.giveBack_job (s : State) (p n : Nat) : (s.giveBack p n).job = s.job :=
  State.job_of_sansLink (State.giveBack_sansLink s p n)
@[simp] theorem State.giveBack_ar (s : State) (p n : Nat) : (s.giveBack p n).ar = s.ar :=
  State.ar_of_sansLink (State.giveBack_sansLink s p n)
@[simp] theorem State.giveBack_xp (s : State) (p n : Nat) : (s.giveBack p n).xp = s.xp :=
  State.xp_of_sansLink (State.giveBack_sansLink s p n)
@[simp] theorem State.giveBack_sp (s : State) (p n : Nat) : (s.giveBack p n).sp = s.sp :=
  State.sp_of_sansLink (State.giveBack_sansLink s p n)
@[simp] theorem State.giveBack_wins (s : State) (p n : Nat) : (s.giveBack p n).wins = s.wins :=
  State.wins_of_sansLink (State.giveBack_sansLink s p n)
@[simp] theorem State.giveBack_tb (s : State) (p n : Nat) : (s.giveBack p n).tb = s.tb :=
  State.tb_of_sansLink (State.giveBack_sansLink s p n)
@[simp] theorem State.giveBack_live (s : State) (p n : Nat) : (s.giveBack p n).live = s.live :=
  State.live_of_sansLink (State.giveBack_sansLink s p n)
@[simp] theorem State.giveBack_snap (s : State) (p n : Nat) : (s.giveBack p n).snap = s.snap :=
  State.snap_of_sansLink (State.giveBack_sansLink s p n)
@[simp] theorem State.giveBack_ft (s : State) (p n : Nat) : (s.giveBack p n).ft = s.ft :=
  State.ft_of_sansLink (State.giveBack_sansLink s p n)
@[simp] theorem State.giveBack_svc (s : State) (p n : Nat) : (s.giveBack p n).svc = s.svc :=
  State.svc_of_sansLink (State.giveBack_sansLink s p n)
@[simp] theorem State.giveBack_boot (s : State) (p n : Nat) : (s.giveBack p n).boot = s.boot :=
  State.boot_of_sansLink (State.giveBack_sansLink s p n)
@[simp] theorem State.giveBack_cfg (s : State) (p n : Nat) : (s.giveBack p n).cfg = s.cfg :=
  State.cfg_of_sansLink (State.giveBack_sansLink s p n)
@[simp] theorem State.giveBack_hl (s : State) (p n : Nat) : (s.giveBack p n).hl = s.hl :=
  State.hl_of_sansLink (State.giveBack_sansLink s p n)
@[simp] theorem State.giveBack_pw (s : State) (p n : Nat) : (s.giveBack p n).pw = s.pw :=
  State.pw_of_sansLink (State.giveBack_sansLink s p n)
@[simp] theorem State.giveBack_cmd (s : State) (p n : Nat) : (s.giveBack p n).cmd = s.cmd := by
  unfold State.giveBack; dsimp only; split <;> simp
@[simp] theorem State.giveBack_bankJ (s : State) (p n : Nat) : (s.giveBack p n).bankJ = s.bankJ :=
  State.bankJ_of_sansLink (State.giveBack_sansLink s p n)
@[simp] theorem State.giveBack_bankK (s : State) (p n : Nat) : (s.giveBack p n).bankK = s.bankK :=
  State.bankK_of_sansLink (State.giveBack_sansLink s p n)

@[simp] theorem State.reportState_pending (s : State) (f : BitVec 16) (r : BitVec 4) (e : W32) : (s.reportState f r e).pending = s.pending :=
  State.pending_of_sansLink (State.reportState_sansLink s f r e)
@[simp] theorem State.reportState_freeCtr (s : State) (f : BitVec 16) (r : BitVec 4) (e : W32) : (s.reportState f r e).freeCtr = s.freeCtr :=
  State.freeCtr_of_sansLink (State.reportState_sansLink s f r e)
@[simp] theorem State.reportState_sb (s : State) (f : BitVec 16) (r : BitVec 4) (e : W32) : (s.reportState f r e).sb = s.sb :=
  State.sb_of_sansLink (State.reportState_sansLink s f r e)
@[simp] theorem State.reportState_tq (s : State) (f : BitVec 16) (r : BitVec 4) (e : W32) : (s.reportState f r e).tq = s.tq :=
  State.tq_of_sansLink (State.reportState_sansLink s f r e)
@[simp] theorem State.reportState_fl (s : State) (f : BitVec 16) (r : BitVec 4) (e : W32) : (s.reportState f r e).fl = s.fl :=
  State.fl_of_sansLink (State.reportState_sansLink s f r e)
@[simp] theorem State.reportState_job (s : State) (f : BitVec 16) (r : BitVec 4) (e : W32) : (s.reportState f r e).job = s.job :=
  State.job_of_sansLink (State.reportState_sansLink s f r e)
@[simp] theorem State.reportState_ar (s : State) (f : BitVec 16) (r : BitVec 4) (e : W32) : (s.reportState f r e).ar = s.ar :=
  State.ar_of_sansLink (State.reportState_sansLink s f r e)
@[simp] theorem State.reportState_xp (s : State) (f : BitVec 16) (r : BitVec 4) (e : W32) : (s.reportState f r e).xp = s.xp :=
  State.xp_of_sansLink (State.reportState_sansLink s f r e)
@[simp] theorem State.reportState_sp (s : State) (f : BitVec 16) (r : BitVec 4) (e : W32) : (s.reportState f r e).sp = s.sp :=
  State.sp_of_sansLink (State.reportState_sansLink s f r e)
@[simp] theorem State.reportState_wins (s : State) (f : BitVec 16) (r : BitVec 4) (e : W32) : (s.reportState f r e).wins = s.wins :=
  State.wins_of_sansLink (State.reportState_sansLink s f r e)
@[simp] theorem State.reportState_tb (s : State) (f : BitVec 16) (r : BitVec 4) (e : W32) : (s.reportState f r e).tb = s.tb :=
  State.tb_of_sansLink (State.reportState_sansLink s f r e)
@[simp] theorem State.reportState_live (s : State) (f : BitVec 16) (r : BitVec 4) (e : W32) : (s.reportState f r e).live = s.live :=
  State.live_of_sansLink (State.reportState_sansLink s f r e)
@[simp] theorem State.reportState_snap (s : State) (f : BitVec 16) (r : BitVec 4) (e : W32) : (s.reportState f r e).snap = s.snap :=
  State.snap_of_sansLink (State.reportState_sansLink s f r e)
@[simp] theorem State.reportState_ft (s : State) (f : BitVec 16) (r : BitVec 4) (e : W32) : (s.reportState f r e).ft = s.ft :=
  State.ft_of_sansLink (State.reportState_sansLink s f r e)
@[simp] theorem State.reportState_svc (s : State) (f : BitVec 16) (r : BitVec 4) (e : W32) : (s.reportState f r e).svc = s.svc :=
  State.svc_of_sansLink (State.reportState_sansLink s f r e)
@[simp] theorem State.reportState_boot (s : State) (f : BitVec 16) (r : BitVec 4) (e : W32) : (s.reportState f r e).boot = s.boot :=
  State.boot_of_sansLink (State.reportState_sansLink s f r e)
@[simp] theorem State.reportState_cfg (s : State) (f : BitVec 16) (r : BitVec 4) (e : W32) : (s.reportState f r e).cfg = s.cfg :=
  State.cfg_of_sansLink (State.reportState_sansLink s f r e)
@[simp] theorem State.reportState_hl (s : State) (f : BitVec 16) (r : BitVec 4) (e : W32) : (s.reportState f r e).hl = s.hl :=
  State.hl_of_sansLink (State.reportState_sansLink s f r e)
@[simp] theorem State.reportState_pw (s : State) (f : BitVec 16) (r : BitVec 4) (e : W32) : (s.reportState f r e).pw = s.pw :=
  State.pw_of_sansLink (State.reportState_sansLink s f r e)
@[simp] theorem State.reportState_cmdRest (s : State) (f : BitVec 16) (r : BitVec 4) (e : W32) : (s.reportState f r e).cmd.sansResult = s.cmd.sansResult :=
  State.cmd_of_sansLink (State.reportState_sansLink s f r e)
@[simp] theorem State.reportState_lastCode (s : State) (f : BitVec 16) (r : BitVec 4) (e : W32) : (s.reportState f r e).cmd.lastCode = s.cmd.lastCode := by
  have e := congrArg Cmd.lastCode (State.cmd_of_sansLink (State.reportState_sansLink s f r e)); exact e
@[simp] theorem State.reportState_refused (s : State) (f : BitVec 16) (r : BitVec 4) (e : W32) : (s.reportState f r e).cmd.refused = s.cmd.refused := by
  have e := congrArg Cmd.refused (State.cmd_of_sansLink (State.reportState_sansLink s f r e)); exact e
@[simp] theorem State.reportState_accepted (s : State) (f : BitVec 16) (r : BitVec 4) (e : W32) : (s.reportState f r e).cmd.accepted = s.cmd.accepted := by
  have e := congrArg Cmd.accepted (State.cmd_of_sansLink (State.reportState_sansLink s f r e)); exact e
@[simp] theorem State.reportState_queue (s : State) (f : BitVec 16) (r : BitVec 4) (e : W32) : (s.reportState f r e).cmd.queue = s.cmd.queue := by
  have e := congrArg Cmd.queue (State.cmd_of_sansLink (State.reportState_sansLink s f r e)); exact e
@[simp] theorem State.reportState_heldLoad (s : State) (f : BitVec 16) (r : BitVec 4) (e : W32) : (s.reportState f r e).cmd.heldLoad = s.cmd.heldLoad := by
  have e := congrArg Cmd.heldLoad (State.cmd_of_sansLink (State.reportState_sansLink s f r e)); exact e
@[simp] theorem State.reportState_bankJ (s : State) (f : BitVec 16) (r : BitVec 4) (e : W32) : (s.reportState f r e).bankJ = s.bankJ :=
  State.bankJ_of_sansLink (State.reportState_sansLink s f r e)
@[simp] theorem State.reportState_bankK (s : State) (f : BitVec 16) (r : BitVec 4) (e : W32) : (s.reportState f r e).bankK = s.bankK :=
  State.bankK_of_sansLink (State.reportState_sansLink s f r e)

@[simp] theorem State.answerOn_pending (s : State) (p c w : Nat) (st : BitVec 40) (k : Nat) : (s.answerOn p c w st k).pending = s.pending :=
  State.pending_of_sansLink (State.doneLink_answerOn s p c w st k)
@[simp] theorem State.answerOn_freeCtr (s : State) (p c w : Nat) (st : BitVec 40) (k : Nat) : (s.answerOn p c w st k).freeCtr = s.freeCtr :=
  State.freeCtr_of_sansLink (State.doneLink_answerOn s p c w st k)
@[simp] theorem State.answerOn_sb (s : State) (p c w : Nat) (st : BitVec 40) (k : Nat) : (s.answerOn p c w st k).sb = s.sb :=
  State.sb_of_sansLink (State.doneLink_answerOn s p c w st k)
@[simp] theorem State.answerOn_tq (s : State) (p c w : Nat) (st : BitVec 40) (k : Nat) : (s.answerOn p c w st k).tq = s.tq :=
  State.tq_of_sansLink (State.doneLink_answerOn s p c w st k)
@[simp] theorem State.answerOn_fl (s : State) (p c w : Nat) (st : BitVec 40) (k : Nat) : (s.answerOn p c w st k).fl = s.fl :=
  State.fl_of_sansLink (State.doneLink_answerOn s p c w st k)
@[simp] theorem State.answerOn_job (s : State) (p c w : Nat) (st : BitVec 40) (k : Nat) : (s.answerOn p c w st k).job = s.job :=
  State.job_of_sansLink (State.doneLink_answerOn s p c w st k)
@[simp] theorem State.answerOn_ar (s : State) (p c w : Nat) (st : BitVec 40) (k : Nat) : (s.answerOn p c w st k).ar = s.ar :=
  State.ar_of_sansLink (State.doneLink_answerOn s p c w st k)
@[simp] theorem State.answerOn_xp (s : State) (p c w : Nat) (st : BitVec 40) (k : Nat) : (s.answerOn p c w st k).xp = s.xp :=
  State.xp_of_sansLink (State.doneLink_answerOn s p c w st k)
@[simp] theorem State.answerOn_sp (s : State) (p c w : Nat) (st : BitVec 40) (k : Nat) : (s.answerOn p c w st k).sp = s.sp :=
  State.sp_of_sansLink (State.doneLink_answerOn s p c w st k)
@[simp] theorem State.answerOn_wins (s : State) (p c w : Nat) (st : BitVec 40) (k : Nat) : (s.answerOn p c w st k).wins = s.wins :=
  State.wins_of_sansLink (State.doneLink_answerOn s p c w st k)
@[simp] theorem State.answerOn_tb (s : State) (p c w : Nat) (st : BitVec 40) (k : Nat) : (s.answerOn p c w st k).tb = s.tb :=
  State.tb_of_sansLink (State.doneLink_answerOn s p c w st k)
@[simp] theorem State.answerOn_live (s : State) (p c w : Nat) (st : BitVec 40) (k : Nat) : (s.answerOn p c w st k).live = s.live :=
  State.live_of_sansLink (State.doneLink_answerOn s p c w st k)
@[simp] theorem State.answerOn_snap (s : State) (p c w : Nat) (st : BitVec 40) (k : Nat) : (s.answerOn p c w st k).snap = s.snap :=
  State.snap_of_sansLink (State.doneLink_answerOn s p c w st k)
@[simp] theorem State.answerOn_ft (s : State) (p c w : Nat) (st : BitVec 40) (k : Nat) : (s.answerOn p c w st k).ft = s.ft :=
  State.ft_of_sansLink (State.doneLink_answerOn s p c w st k)
@[simp] theorem State.answerOn_svc (s : State) (p c w : Nat) (st : BitVec 40) (k : Nat) : (s.answerOn p c w st k).svc = s.svc :=
  State.svc_of_sansLink (State.doneLink_answerOn s p c w st k)
@[simp] theorem State.answerOn_boot (s : State) (p c w : Nat) (st : BitVec 40) (k : Nat) : (s.answerOn p c w st k).boot = s.boot :=
  State.boot_of_sansLink (State.doneLink_answerOn s p c w st k)
@[simp] theorem State.answerOn_cfg (s : State) (p c w : Nat) (st : BitVec 40) (k : Nat) : (s.answerOn p c w st k).cfg = s.cfg :=
  State.cfg_of_sansLink (State.doneLink_answerOn s p c w st k)
@[simp] theorem State.answerOn_hl (s : State) (p c w : Nat) (st : BitVec 40) (k : Nat) : (s.answerOn p c w st k).hl = s.hl :=
  State.hl_of_sansLink (State.doneLink_answerOn s p c w st k)
@[simp] theorem State.answerOn_pw (s : State) (p c w : Nat) (st : BitVec 40) (k : Nat) : (s.answerOn p c w st k).pw = s.pw :=
  State.pw_of_sansLink (State.doneLink_answerOn s p c w st k)
@[simp] theorem State.answerOn_cmd (s : State) (p c w : Nat) (st : BitVec 40) (k : Nat) : (s.answerOn p c w st k).cmd = s.cmd := by
  unfold State.answerOn State.sendFree; rw [State.giveBack_cmd]; split <;> rfl
@[simp] theorem State.answerOn_bankJ (s : State) (p c w : Nat) (st : BitVec 40) (k : Nat) : (s.answerOn p c w st k).bankJ = s.bankJ :=
  State.bankJ_of_sansLink (State.doneLink_answerOn s p c w st k)
@[simp] theorem State.answerOn_bankK (s : State) (p c w : Nat) (st : BitVec 40) (k : Nat) : (s.answerOn p c w st k).bankK = s.bankK :=
  State.bankK_of_sansLink (State.doneLink_answerOn s p c w st k)

/-! ### Recording a fault, a change of state, a completion -/

@[simp] theorem State.logFault_pending (s : State) (c r : Nat) (p : BitVec 19) (q : Nat) (i : W64) :
    (s.logFault c r p q i).pending = s.pending := by unfold State.logFault State.trace; simp
@[simp] theorem State.logOnly_pending (s : State) (c : Nat) (i : W64) : (s.logOnly c i).pending = s.pending := State.logFault_pending ..
@[simp] theorem State.logFault_out (s : State) (c r : Nat) (p : BitVec 19) (q : Nat) (i : W64) :
    (s.logFault c r p q i).out = s.out := by unfold State.logFault State.trace; simp
@[simp] theorem State.logOnly_out (s : State) (c : Nat) (i : W64) : (s.logOnly c i).out = s.out := State.logFault_out ..
@[simp] theorem State.logFault_freeCtr (s : State) (c r : Nat) (p : BitVec 19) (q : Nat) (i : W64) :
    (s.logFault c r p q i).freeCtr = s.freeCtr := by unfold State.logFault State.trace; simp
@[simp] theorem State.logOnly_freeCtr (s : State) (c : Nat) (i : W64) : (s.logOnly c i).freeCtr = s.freeCtr := State.logFault_freeCtr ..
@[simp] theorem State.logFault_sb (s : State) (c r : Nat) (p : BitVec 19) (q : Nat) (i : W64) :
    (s.logFault c r p q i).sb = s.sb := by unfold State.logFault State.trace; simp
@[simp] theorem State.logOnly_sb (s : State) (c : Nat) (i : W64) : (s.logOnly c i).sb = s.sb := State.logFault_sb ..
@[simp] theorem State.logFault_tq (s : State) (c r : Nat) (p : BitVec 19) (q : Nat) (i : W64) :
    (s.logFault c r p q i).tq = s.tq := by unfold State.logFault State.trace; simp
@[simp] theorem State.logOnly_tq (s : State) (c : Nat) (i : W64) : (s.logOnly c i).tq = s.tq := State.logFault_tq ..
@[simp] theorem State.logFault_fl (s : State) (c r : Nat) (p : BitVec 19) (q : Nat) (i : W64) :
    (s.logFault c r p q i).fl = s.fl := by unfold State.logFault State.trace; simp
@[simp] theorem State.logOnly_fl (s : State) (c : Nat) (i : W64) : (s.logOnly c i).fl = s.fl := State.logFault_fl ..
@[simp] theorem State.logFault_reqs (s : State) (c r : Nat) (p : BitVec 19) (q : Nat) (i : W64) :
    (s.logFault c r p q i).reqs = s.reqs := by unfold State.logFault State.trace; simp
@[simp] theorem State.logOnly_reqs (s : State) (c : Nat) (i : W64) : (s.logOnly c i).reqs = s.reqs := State.logFault_reqs ..
@[simp] theorem State.logFault_job (s : State) (c r : Nat) (p : BitVec 19) (q : Nat) (i : W64) :
    (s.logFault c r p q i).job = s.job := by unfold State.logFault State.trace; simp
@[simp] theorem State.logOnly_job (s : State) (c : Nat) (i : W64) : (s.logOnly c i).job = s.job := State.logFault_job ..
@[simp] theorem State.logFault_ar (s : State) (c r : Nat) (p : BitVec 19) (q : Nat) (i : W64) :
    (s.logFault c r p q i).ar = s.ar := by unfold State.logFault State.trace; simp
@[simp] theorem State.logOnly_ar (s : State) (c : Nat) (i : W64) : (s.logOnly c i).ar = s.ar := State.logFault_ar ..
@[simp] theorem State.logFault_xp (s : State) (c r : Nat) (p : BitVec 19) (q : Nat) (i : W64) :
    (s.logFault c r p q i).xp = s.xp := by unfold State.logFault State.trace; simp
@[simp] theorem State.logOnly_xp (s : State) (c : Nat) (i : W64) : (s.logOnly c i).xp = s.xp := State.logFault_xp ..
@[simp] theorem State.logFault_sp (s : State) (c r : Nat) (p : BitVec 19) (q : Nat) (i : W64) :
    (s.logFault c r p q i).sp = s.sp := by unfold State.logFault State.trace; simp
@[simp] theorem State.logOnly_sp (s : State) (c : Nat) (i : W64) : (s.logOnly c i).sp = s.sp := State.logFault_sp ..
@[simp] theorem State.logFault_xf (s : State) (c r : Nat) (p : BitVec 19) (q : Nat) (i : W64) :
    (s.logFault c r p q i).xf = s.xf := by unfold State.logFault State.trace; simp
@[simp] theorem State.logOnly_xf (s : State) (c : Nat) (i : W64) : (s.logOnly c i).xf = s.xf := State.logFault_xf ..
@[simp] theorem State.logFault_wins (s : State) (c r : Nat) (p : BitVec 19) (q : Nat) (i : W64) :
    (s.logFault c r p q i).wins = s.wins := by unfold State.logFault State.trace; simp
@[simp] theorem State.logOnly_wins (s : State) (c : Nat) (i : W64) : (s.logOnly c i).wins = s.wins := State.logFault_wins ..
@[simp] theorem State.logFault_yd (s : State) (c r : Nat) (p : BitVec 19) (q : Nat) (i : W64) :
    (s.logFault c r p q i).yd = s.yd := by unfold State.logFault State.trace; simp
@[simp] theorem State.logOnly_yd (s : State) (c : Nat) (i : W64) : (s.logOnly c i).yd = s.yd := State.logFault_yd ..
@[simp] theorem State.logFault_tb (s : State) (c r : Nat) (p : BitVec 19) (q : Nat) (i : W64) :
    (s.logFault c r p q i).tb = s.tb := by unfold State.logFault State.trace; simp
@[simp] theorem State.logOnly_tb (s : State) (c : Nat) (i : W64) : (s.logOnly c i).tb = s.tb := State.logFault_tb ..
@[simp] theorem State.logFault_live (s : State) (c r : Nat) (p : BitVec 19) (q : Nat) (i : W64) :
    (s.logFault c r p q i).live = s.live := by unfold State.logFault State.trace; simp
@[simp] theorem State.logOnly_live (s : State) (c : Nat) (i : W64) : (s.logOnly c i).live = s.live := State.logFault_live ..
@[simp] theorem State.logFault_snap (s : State) (c r : Nat) (p : BitVec 19) (q : Nat) (i : W64) :
    (s.logFault c r p q i).snap = s.snap := by unfold State.logFault State.trace; simp
@[simp] theorem State.logOnly_snap (s : State) (c : Nat) (i : W64) : (s.logOnly c i).snap = s.snap := State.logFault_snap ..
@[simp] theorem State.logFault_svc (s : State) (c r : Nat) (p : BitVec 19) (q : Nat) (i : W64) :
    (s.logFault c r p q i).svc = s.svc := by unfold State.logFault State.trace; simp
@[simp] theorem State.logOnly_svc (s : State) (c : Nat) (i : W64) : (s.logOnly c i).svc = s.svc := State.logFault_svc ..
@[simp] theorem State.logFault_boot (s : State) (c r : Nat) (p : BitVec 19) (q : Nat) (i : W64) :
    (s.logFault c r p q i).boot = s.boot := by unfold State.logFault State.trace; simp
@[simp] theorem State.logOnly_boot (s : State) (c : Nat) (i : W64) : (s.logOnly c i).boot = s.boot := State.logFault_boot ..
@[simp] theorem State.logFault_cfg (s : State) (c r : Nat) (p : BitVec 19) (q : Nat) (i : W64) :
    (s.logFault c r p q i).cfg = s.cfg := by unfold State.logFault State.trace; simp
@[simp] theorem State.logOnly_cfg (s : State) (c : Nat) (i : W64) : (s.logOnly c i).cfg = s.cfg := State.logFault_cfg ..
@[simp] theorem State.logFault_ports (s : State) (c r : Nat) (p : BitVec 19) (q : Nat) (i : W64) :
    (s.logFault c r p q i).ports = s.ports := by unfold State.logFault State.trace; simp
@[simp] theorem State.logOnly_ports (s : State) (c : Nat) (i : W64) : (s.logOnly c i).ports = s.ports := State.logFault_ports ..
@[simp] theorem State.logFault_hl (s : State) (c r : Nat) (p : BitVec 19) (q : Nat) (i : W64) :
    (s.logFault c r p q i).hl = s.hl := by unfold State.logFault State.trace; simp
@[simp] theorem State.logOnly_hl (s : State) (c : Nat) (i : W64) : (s.logOnly c i).hl = s.hl := State.logFault_hl ..
@[simp] theorem State.logFault_pw (s : State) (c r : Nat) (p : BitVec 19) (q : Nat) (i : W64) :
    (s.logFault c r p q i).pw = s.pw := by unfold State.logFault State.trace; simp
@[simp] theorem State.logOnly_pw (s : State) (c : Nat) (i : W64) : (s.logOnly c i).pw = s.pw := State.logFault_pw ..
@[simp] theorem State.logFault_cmd (s : State) (c r : Nat) (p : BitVec 19) (q : Nat) (i : W64) :
    (s.logFault c r p q i).cmd = s.cmd := by unfold State.logFault State.trace; simp
@[simp] theorem State.logOnly_cmd (s : State) (c : Nat) (i : W64) : (s.logOnly c i).cmd = s.cmd := State.logFault_cmd ..
@[simp] theorem State.logFault_bankJ (s : State) (c r : Nat) (p : BitVec 19) (q : Nat) (i : W64) :
    (s.logFault c r p q i).bankJ = s.bankJ := by unfold State.logFault State.trace; simp
@[simp] theorem State.logOnly_bankJ (s : State) (c : Nat) (i : W64) : (s.logOnly c i).bankJ = s.bankJ := State.logFault_bankJ ..
@[simp] theorem State.logFault_bankK (s : State) (c r : Nat) (p : BitVec 19) (q : Nat) (i : W64) :
    (s.logFault c r p q i).bankK = s.bankK := by unfold State.logFault State.trace; simp
@[simp] theorem State.logOnly_bankK (s : State) (c : Nat) (i : W64) : (s.logOnly c i).bankK = s.bankK := State.logFault_bankK ..

/-- The fault registers after a fault: the log's entry while there is room, and the count (R515). -/
theorem State.logFault_ft (s : State) (c r : Nat) (p : BitVec 19) (q : Nat) (i : W64) :
    (s.logFault c r p q i).ft = { s.ft with
      log := if Config.faultLogMax ≤ s.ft.log.length then s.ft.log
        else s.ft.log ++ [⟨BitVec.ofNat 16 c, BitVec.ofNat 2 r, p, s.tickW, i⟩]
      ovf := s.ft.ovf || decide (Config.faultLogMax ≤ s.ft.log.length)
      logged := satAdd s.ft.logged 1 } := by
  unfold State.logFault State.trace; simp

/-- A change of JOB_STATUS.state writes a trace record and nothing else. -/
theorem State.toState_sansLink (s : State) (st : BitVec 4) :
    (s.toState st).sansLink = ({ s with job := { s.job with state := st } } : State).sansLink := by
  unfold State.toState
  dsimp only
  split
  · rfl
  · exact State.trace_sansLink _ _ _

/-- The state that JOB_STATUS already holds changes nothing (12 Table 12.3). -/
theorem State.toState_same {s : State} {st : BitVec 4} (h : s.job.state = st) : s.toState st = s := by
  unfold State.toState; subst h; simp

@[simp] theorem State.toState_pending (s : State) (st : BitVec 4) : (s.toState st).pending = s.pending := by
  unfold State.toState State.trace; dsimp only; split <;> simp
@[simp] theorem State.toState_out (s : State) (st : BitVec 4) : (s.toState st).out = s.out := by
  unfold State.toState State.trace; dsimp only; split <;> simp
@[simp] theorem State.toState_freeCtr (s : State) (st : BitVec 4) : (s.toState st).freeCtr = s.freeCtr := by
  unfold State.toState State.trace; dsimp only; split <;> simp
@[simp] theorem State.toState_sb (s : State) (st : BitVec 4) : (s.toState st).sb = s.sb := by
  unfold State.toState State.trace; dsimp only; split <;> simp
@[simp] theorem State.toState_tq (s : State) (st : BitVec 4) : (s.toState st).tq = s.tq := by
  unfold State.toState State.trace; dsimp only; split <;> simp
@[simp] theorem State.toState_fl (s : State) (st : BitVec 4) : (s.toState st).fl = s.fl := by
  unfold State.toState State.trace; dsimp only; split <;> simp
@[simp] theorem State.toState_reqs (s : State) (st : BitVec 4) : (s.toState st).reqs = s.reqs := by
  unfold State.toState State.trace; dsimp only; split <;> simp
@[simp] theorem State.toState_ar (s : State) (st : BitVec 4) : (s.toState st).ar = s.ar := by
  unfold State.toState State.trace; dsimp only; split <;> simp
@[simp] theorem State.toState_xp (s : State) (st : BitVec 4) : (s.toState st).xp = s.xp := by
  unfold State.toState State.trace; dsimp only; split <;> simp
@[simp] theorem State.toState_sp (s : State) (st : BitVec 4) : (s.toState st).sp = s.sp := by
  unfold State.toState State.trace; dsimp only; split <;> simp
@[simp] theorem State.toState_xf (s : State) (st : BitVec 4) : (s.toState st).xf = s.xf := by
  unfold State.toState State.trace; dsimp only; split <;> simp
@[simp] theorem State.toState_wins (s : State) (st : BitVec 4) : (s.toState st).wins = s.wins := by
  unfold State.toState State.trace; dsimp only; split <;> simp
@[simp] theorem State.toState_yd (s : State) (st : BitVec 4) : (s.toState st).yd = s.yd := by
  unfold State.toState State.trace; dsimp only; split <;> simp
@[simp] theorem State.toState_tb (s : State) (st : BitVec 4) : (s.toState st).tb = s.tb := by
  unfold State.toState State.trace; dsimp only; split <;> simp
@[simp] theorem State.toState_live (s : State) (st : BitVec 4) : (s.toState st).live = s.live := by
  unfold State.toState State.trace; dsimp only; split <;> simp
@[simp] theorem State.toState_snap (s : State) (st : BitVec 4) : (s.toState st).snap = s.snap := by
  unfold State.toState State.trace; dsimp only; split <;> simp
@[simp] theorem State.toState_ft (s : State) (st : BitVec 4) : (s.toState st).ft = s.ft := by
  unfold State.toState State.trace; dsimp only; split <;> simp
@[simp] theorem State.toState_svc (s : State) (st : BitVec 4) : (s.toState st).svc = s.svc := by
  unfold State.toState State.trace; dsimp only; split <;> simp
@[simp] theorem State.toState_boot (s : State) (st : BitVec 4) : (s.toState st).boot = s.boot := by
  unfold State.toState State.trace; dsimp only; split <;> simp
@[simp] theorem State.toState_cfg (s : State) (st : BitVec 4) : (s.toState st).cfg = s.cfg := by
  unfold State.toState State.trace; dsimp only; split <;> simp
@[simp] theorem State.toState_ports (s : State) (st : BitVec 4) : (s.toState st).ports = s.ports := by
  unfold State.toState State.trace; dsimp only; split <;> simp
@[simp] theorem State.toState_hl (s : State) (st : BitVec 4) : (s.toState st).hl = s.hl := by
  unfold State.toState State.trace; dsimp only; split <;> simp
@[simp] theorem State.toState_pw (s : State) (st : BitVec 4) : (s.toState st).pw = s.pw := by
  unfold State.toState State.trace; dsimp only; split <;> simp
@[simp] theorem State.toState_cmd (s : State) (st : BitVec 4) : (s.toState st).cmd = s.cmd := by
  unfold State.toState State.trace; dsimp only; split <;> simp
@[simp] theorem State.toState_bankJ (s : State) (st : BitVec 4) : (s.toState st).bankJ = s.bankJ := by
  unfold State.toState State.trace; dsimp only; split <;> simp
@[simp] theorem State.toState_bankK (s : State) (st : BitVec 4) : (s.toState st).bankK = s.bankK := by
  unfold State.toState State.trace; dsimp only; split <;> simp
@[simp] theorem State.toState_job (s : State) (st : BitVec 4) : (s.toState st).job = { s.job with state := st } := by
  unfold State.toState State.trace; dsimp only; split <;> simp

@[simp] theorem State.complete_pending (s : State) (c : Byte) (r : BitVec 4) (f : BitVec 16) (v : List W64) :
    (s.complete c r f v).pending = s.pending := by unfold State.complete; simp
@[simp] theorem State.complete_freeCtr (s : State) (c : Byte) (r : BitVec 4) (f : BitVec 16) (v : List W64) :
    (s.complete c r f v).freeCtr = s.freeCtr := by unfold State.complete; simp
@[simp] theorem State.complete_sb (s : State) (c : Byte) (r : BitVec 4) (f : BitVec 16) (v : List W64) :
    (s.complete c r f v).sb = s.sb := by unfold State.complete; simp
@[simp] theorem State.complete_tq (s : State) (c : Byte) (r : BitVec 4) (f : BitVec 16) (v : List W64) :
    (s.complete c r f v).tq = s.tq := by unfold State.complete; simp
@[simp] theorem State.complete_fl (s : State) (c : Byte) (r : BitVec 4) (f : BitVec 16) (v : List W64) :
    (s.complete c r f v).fl = s.fl := by unfold State.complete; simp
@[simp] theorem State.complete_job (s : State) (c : Byte) (r : BitVec 4) (f : BitVec 16) (v : List W64) :
    (s.complete c r f v).job = s.job := by unfold State.complete; simp
@[simp] theorem State.complete_ar (s : State) (c : Byte) (r : BitVec 4) (f : BitVec 16) (v : List W64) :
    (s.complete c r f v).ar = s.ar := by unfold State.complete; simp
@[simp] theorem State.complete_xp (s : State) (c : Byte) (r : BitVec 4) (f : BitVec 16) (v : List W64) :
    (s.complete c r f v).xp = s.xp := by unfold State.complete; simp
@[simp] theorem State.complete_sp (s : State) (c : Byte) (r : BitVec 4) (f : BitVec 16) (v : List W64) :
    (s.complete c r f v).sp = s.sp := by unfold State.complete; simp
@[simp] theorem State.complete_wins (s : State) (c : Byte) (r : BitVec 4) (f : BitVec 16) (v : List W64) :
    (s.complete c r f v).wins = s.wins := by unfold State.complete; simp
@[simp] theorem State.complete_tb (s : State) (c : Byte) (r : BitVec 4) (f : BitVec 16) (v : List W64) :
    (s.complete c r f v).tb = s.tb := by unfold State.complete; simp
@[simp] theorem State.complete_live (s : State) (c : Byte) (r : BitVec 4) (f : BitVec 16) (v : List W64) :
    (s.complete c r f v).live = s.live := by unfold State.complete; simp
@[simp] theorem State.complete_snap (s : State) (c : Byte) (r : BitVec 4) (f : BitVec 16) (v : List W64) :
    (s.complete c r f v).snap = s.snap := by unfold State.complete; simp
@[simp] theorem State.complete_ft (s : State) (c : Byte) (r : BitVec 4) (f : BitVec 16) (v : List W64) :
    (s.complete c r f v).ft = s.ft := by unfold State.complete; simp
@[simp] theorem State.complete_svc (s : State) (c : Byte) (r : BitVec 4) (f : BitVec 16) (v : List W64) :
    (s.complete c r f v).svc = s.svc := by unfold State.complete; simp
@[simp] theorem State.complete_boot (s : State) (c : Byte) (r : BitVec 4) (f : BitVec 16) (v : List W64) :
    (s.complete c r f v).boot = s.boot := by unfold State.complete; simp
@[simp] theorem State.complete_cfg (s : State) (c : Byte) (r : BitVec 4) (f : BitVec 16) (v : List W64) :
    (s.complete c r f v).cfg = s.cfg := by unfold State.complete; simp
@[simp] theorem State.complete_hl (s : State) (c : Byte) (r : BitVec 4) (f : BitVec 16) (v : List W64) :
    (s.complete c r f v).hl = s.hl := by unfold State.complete; simp
@[simp] theorem State.complete_pw (s : State) (c : Byte) (r : BitVec 4) (f : BitVec 16) (v : List W64) :
    (s.complete c r f v).pw = s.pw := by unfold State.complete; simp
@[simp] theorem State.complete_bankJ (s : State) (c : Byte) (r : BitVec 4) (f : BitVec 16) (v : List W64) :
    (s.complete c r f v).bankJ = s.bankJ := by unfold State.complete; simp
@[simp] theorem State.complete_bankK (s : State) (c : Byte) (r : BitVec 4) (f : BitVec 16) (v : List W64) :
    (s.complete c r f v).bankK = s.bankK := by unfold State.complete; simp
/-- A completion is counted at once; its result shows in CMD_STAT when the message leaves (R633). -/
theorem State.complete_cmdRest (s : State) (c : Byte) (r : BitVec 4) (f : BitVec 16) (v : List W64) :
    (s.complete c r f v).cmd.sansResult = { s.cmd.sansResult with
      refused := if r = 0 then s.cmd.refused else satAdd s.cmd.refused 1
      accepted := if r = 0 then satAdd s.cmd.accepted 1 else s.cmd.accepted } := by
  unfold State.complete; rw [State.send_cmdRest]; rfl
@[simp] theorem State.complete_queue (s : State) (c : Byte) (r : BitVec 4) (f : BitVec 16) (v : List W64) :
    (s.complete c r f v).cmd.queue = s.cmd.queue := by unfold State.complete; simp
@[simp] theorem State.complete_heldLoad (s : State) (c : Byte) (r : BitVec 4) (f : BitVec 16) (v : List W64) :
    (s.complete c r f v).cmd.heldLoad = s.cmd.heldLoad := by unfold State.complete; simp

end Sys2Proof.Machine
end

