-- ==== Sys2Proof/Laws/Halt.lean ====
section
/-! SUPPORT. Raising a halt fault: what it records, what it leaves alone, and the halt itself where the array is empty. -/

namespace Sys2Proof.Machine

/-- The state without what abandoning instructions and halting can change. -/
def State.sansHalt (s : State) : State :=
  { s.sansLink with
    sp := Spad.reset, hl := Health.reset, freeCtr := 0, tq := [], fl := []
    sb := { s.sb with wait := none, waitReg := none, pc := 0 }, xp := { s.xp with discard := [] }, job := { s.job with state := 0 }
    ft := { s.ft.sansPoison with halting := none } }

theorem State.sansHalt_of_sansLink {a b : State} (h : a.sansLink = b.sansLink) : a.sansHalt = b.sansHalt := by
  have e : ∀ s : State, s.sansHalt = { s.sansLink with
    sp := Spad.reset, hl := Health.reset, freeCtr := 0, tq := [], fl := []
    sb := { s.sansLink.sb with wait := none, waitReg := none, pc := 0 }, xp := { s.sansLink.xp with discard := [] }
    job := { s.sansLink.job with state := 0 }
    ft := { s.sansLink.ft.sansPoison with halting := none } } := fun _ => rfl
  rw [e a, e b, h]

theorem State.sansHalt_of_sansSpad {a b : State} (h : a.sansSpad = b.sansSpad) : a.sansHalt = b.sansHalt := by
  have e : ∀ s : State, s.sansHalt = { s.sansSpad.sansLink with
    sp := Spad.reset, hl := Health.reset, freeCtr := 0, tq := [], fl := []
    sb := { s.sansSpad.sb with wait := none, waitReg := none, pc := 0 }, xp := { s.sansSpad.xp with discard := [] }
    job := { s.sansSpad.job with state := 0 }
    ft := { s.sansSpad.ft with halting := none } } := fun _ => rfl
  rw [e a, e b, h]

@[simp] theorem State.scrambleDesc_sansHalt (s : State) (d : Desc) : (s.scrambleDesc d).sansHalt = s.sansHalt := by
  unfold State.scrambleDesc
  dsimp only
  rw [State.sansHalt_of_sansSpad (State.store_sansSpad _ _ _ _)]
  rfl

@[simp] theorem State.dropMessages_sansHalt (s : State) (g : Nat → Bool) : (s.dropMessages g).sansHalt = s.sansHalt := rfl

@[simp] theorem State.abandonFrom_sansHalt (s : State) (k : Nat) (own : Option Nat) (r : Bool) :
    (s.abandonFrom k own r).sansHalt = s.sansHalt := by
  unfold State.abandonFrom
  dsimp only
  rw [State.dropMessages_sansHalt, foldl_keeps State.sansHalt]
  · rfl
  · intro a f
    have h : ∀ l : List Desc, (l.foldl State.scrambleDesc a).sansHalt = a.sansHalt := fun l =>
      foldl_keeps State.sansHalt _ (fun a d => State.scrambleDesc_sansHalt a d) l a
    split
    · exact h _
    · exact h _

@[simp] theorem State.settleHalt_sansHalt (s : State) : s.settleHalt.sansHalt = s.sansHalt := by
  unfold State.settleHalt
  split
  · rfl
  · split
    · rfl
    · dsimp only
      rw [State.sansHalt_of_sansLink (State.reportState_sansLink _ _ _ _)]
      rw [State.sansHalt_of_sansLink (State.toState_sansLink _ _)]
      rfl

/-- The record that a halt fault makes (R514, R515). -/
def State.recorded (s : State) (seqReg : W32) (pc : BitVec 19) (code : Nat) (info : W64) : Faults :=
  { s.ft with
    log := if Config.faultLogMax ≤ s.ft.log.length then s.ft.log
      else s.ft.log ++ [⟨BitVec.ofNat 16 code, 0, pc, s.tickW, info⟩]
    ovf := s.ft.ovf || decide (Config.faultLogMax ≤ s.ft.log.length)
    logged := satAdd s.ft.logged 1
    valid := true, pc := pc, code := BitVec.ofNat 16 code, tick := s.tickW, info := info, seq := seqReg }

/-- A halt fault of an active job with no halt or KILL under way: the record, and everything that it leaves alone. -/
theorem State.raiseHaltAs_sansHalt {s : State} (ha : s.active = true) (hk : s.job.kill = none) (hh : s.ft.halting = none)
    (seq : Nat) (sr : W32) (pc : BitVec 19) (code : Nat) (info : W64) :
    (s.raiseHaltAs seq sr pc code info).sansHalt = { s with ft := s.recorded sr pc code info }.sansHalt := by
  unfold State.raiseHaltAs
  simp only [ha, hk, hh, Bool.not_true, Bool.false_and, Bool.false_eq_true, if_false, Option.isSome_none]
  rw [State.settleHalt_sansHalt, State.abandonFrom_sansHalt]
  unfold State.sansHalt State.sansLink State.recorded Faults.sansPoison
  simp [State.logFault, State.tickW]

/-- The fault registers after a halt fault, but for what poisoning the abandoned destinations changes. -/
theorem State.raiseHaltAs_ft {s : State} (ha : s.active = true) (hk : s.job.kill = none) (hh : s.ft.halting = none)
    (seq : Nat) (sr : W32) (pc : BitVec 19) (code : Nat) (info : W64) :
    let t := s.raiseHaltAs seq sr pc code info
    t.ft.valid = true ∧ t.ft.pc = pc ∧ t.ft.code = BitVec.ofNat 16 code ∧ t.ft.info = info ∧ t.ft.tick = s.tickW
      ∧ t.ft.logged = satAdd s.ft.logged 1 := by
  have h := congrArg State.ft (State.raiseHaltAs_sansHalt ha hk hh seq sr pc code info)
  exact ⟨congrArg Faults.valid h, congrArg Faults.pc h, congrArg Faults.code h, congrArg Faults.info h,
    congrArg Faults.tick h, congrArg Faults.logged h⟩

/-- With an empty array the signal box halts at once: FAULTED, with the PC at the instruction (R44). -/
theorem State.raiseHaltAs_halts {s : State} (ha : s.active = true) (hk : s.job.kill = none) (hh : s.ft.halting = none)
    (hf : s.fl = []) (hq : s.tq = []) (seq : Nat) (sr : W32) (pc : BitVec 19) (code : Nat) (info : W64) :
    let t := s.raiseHaltAs seq sr pc code info
    t.job = { s.job with state := stFaulted } ∧ t.sb = { s.sb with pc := pc, wait := none, waitReg := none } ∧ t.sp = s.sp ∧ t.hl = s.hl
      ∧ t.tq = [] ∧ t.fl = [] ∧ t.xp = s.xp ∧ t.ft = { s.recorded sr pc code info with halting := none } := by
  unfold State.raiseHaltAs
  simp only [ha, hk, hh, Bool.not_true, Bool.false_and, Bool.false_eq_true, if_false, Option.isSome_none]
  unfold State.abandonFrom State.settleHalt State.dropMessages State.recorded
  simp [hf, hq, hk, State.logFault_ft, State.tickW]

/-! ### Fields that a halt fault leaves alone -/

theorem State.pending_of_sansHalt {a b : State} (h : a.sansHalt = b.sansHalt) : a.pending = b.pending := by
  have e := congrArg State.pending h; exact e
theorem State.ar_of_sansHalt {a b : State} (h : a.sansHalt = b.sansHalt) : a.ar = b.ar := by
  have e := congrArg State.ar h; exact e
theorem State.wins_of_sansHalt {a b : State} (h : a.sansHalt = b.sansHalt) : a.wins = b.wins := by
  have e := congrArg State.wins h; exact e
theorem State.tb_of_sansHalt {a b : State} (h : a.sansHalt = b.sansHalt) : a.tb = b.tb := by
  have e := congrArg State.tb h; exact e
theorem State.live_of_sansHalt {a b : State} (h : a.sansHalt = b.sansHalt) : a.live = b.live := by
  have e := congrArg State.live h; exact e
theorem State.snap_of_sansHalt {a b : State} (h : a.sansHalt = b.sansHalt) : a.snap = b.snap := by
  have e := congrArg State.snap h; exact e
theorem State.svc_of_sansHalt {a b : State} (h : a.sansHalt = b.sansHalt) : a.svc = b.svc := by
  have e := congrArg State.svc h; exact e
theorem State.boot_of_sansHalt {a b : State} (h : a.sansHalt = b.sansHalt) : a.boot = b.boot := by
  have e := congrArg State.boot h; exact e
theorem State.cfg_of_sansHalt {a b : State} (h : a.sansHalt = b.sansHalt) : a.cfg = b.cfg := by
  have e := congrArg State.cfg h; exact e
theorem State.pw_of_sansHalt {a b : State} (h : a.sansHalt = b.sansHalt) : a.pw = b.pw := by
  have e := congrArg State.pw h; exact e
theorem State.cmd_of_sansHalt {a b : State} (h : a.sansHalt = b.sansHalt) : a.cmd.sansResult = b.cmd.sansResult := by
  have e := congrArg State.cmd h; exact e
theorem State.bankJ_of_sansHalt {a b : State} (h : a.sansHalt = b.sansHalt) : a.bankJ = b.bankJ := by
  have e := congrArg State.bankJ h; exact e
theorem State.bankK_of_sansHalt {a b : State} (h : a.sansHalt = b.sansHalt) : a.bankK = b.bankK := by
  have e := congrArg State.bankK h; exact e

end Sys2Proof.Machine
end

