-- ==== Sys2Proof/Laws/Issue.lean ====
section
/-! SUPPORT. The head of issue: what the instruction rows share, case by case. -/

namespace Sys2Proof.Machine

theorem State.canIssue_iff (s : State) :
    s.canIssue = true ↔ s.job.state = stRunning ∧ s.sb.wait = none ∧ s.sb.waitReg = none ∧ s.ft.halting = none
      ∧ s.job.kill = none := by
  unfold State.canIssue
  simp only [Bool.and_eq_true, decide_eq_true_eq, Option.isNone_iff_eq_none, and_assoc]

theorem State.active_of_canIssue {s : State} (h : s.canIssue = true) : s.active = true := by
  rw [State.canIssue_iff] at h; unfold State.active; simp [h.1]

/-- A word of its row at a signal box that can issue: the row's effect. -/
theorem instrRow_next {i : Instr} {w : InsWord} {s : State} (hw : w.toInstr = i) (hs : s.canIssue = true) (k : State → State) :
    instrRow i w s k = .next (k s) := by
  unfold instrRow InsWord.ofRow; simp [hw, hs]

/-- A signal box that cannot issue takes no instruction. -/
theorem instrRow_idle {i : Instr} {w : InsWord} {s : State} (hw : w.toInstr = i) (hs : s.canIssue = false) (k : State → State) :
    instrRow i w s k = .next s := by
  unfold instrRow InsWord.ofRow; simp [hw, hs]

theorem firstFlt_nil : firstFlt [] = none := by decide

/-- An encoding check that nothing fails. -/
theorem scalarEnc_ok {w : InsWord} {fnOk : Bool} {rest : InsWord} {regs : List (BitVec 6)} (hf : fnOk = true)
    (hr : rest = InsWord.blank) (hg : ∀ r ∈ regs, r.toNat < 32) : scalarEnc w fnOk rest regs = [] := by
  unfold scalarEnc illegal unused
  have : regs.any badReg = false := by
    rw [List.any_eq_false]
    intro r h; unfold badReg; have := hg r h; simp; omega
  simp [hf, hr, this]

/-- An encoding check that fails raises 0x1001 with the word. -/
theorem firstFlt_illegal {w : InsWord} {rest : List Flt} : firstFlt (illegal w true ++ rest) = some (0x1001, w.low64) := by
  unfold firstFlt illegal hoiOrder; simp [lowestRole, formatA]

theorem scalarRun_ok {fs : List Flt} {s : State} (hf : fs = []) (hn : s.nextBad = false) (k : State → State) :
    scalarRun fs s k = k s := by
  unfold scalarRun; simp [hf, firstFlt_nil, hn]

theorem scalarRun_bad {fs : List Flt} {s : State} {f : Flt} (hf : firstFlt fs = some f) (k : State → State) :
    scalarRun fs s k = s.raiseScalar f.1 f.2 := by
  unfold scalarRun; simp [hf]

theorem branchRun_ok {fs : List Flt} {s : State} (hf : fs = []) (k : State → State) : branchRun fs s k = k s := by
  unfold branchRun; simp [hf, firstFlt_nil]

theorem State.whenDrained_now {s : State} (h : s.drained = true) (w : InsWord) (k : State → State) : s.whenDrained w k = k s := by
  unfold State.whenDrained; simp [h]

/-- An instruction that waits for the array keeps everything and waits. -/
theorem State.whenDrained_wait {s : State} (h : s.drained = false) (w : InsWord) (k : State → State) :
    s.whenDrained w k = { s with sb := { s.sb with wait := some w } } := by
  unfold State.whenDrained; simp [h]

/-- The fault record of a scalar instruction's fault. -/
theorem State.raiseScalar_ft {s : State} (hs : s.canIssue = true) (code : Nat) (info : W64) :
    let t := s.raiseScalar code info
    t.ft.valid = true ∧ t.ft.pc = s.sb.pc ∧ t.ft.code = BitVec.ofNat 16 code ∧ t.ft.info = info ∧ t.ft.tick = s.tickW
      ∧ t.ft.logged = satAdd s.ft.logged 1 := by
  have h := (State.canIssue_iff s).mp hs
  exact State.raiseHaltAs_ft (s := { s with freeCtr := s.freeCtr + 1 }) (State.active_of_canIssue hs) h.2.2.2.2 h.2.2.2.1 _ _ _ _ _

/-- With an empty array a scalar instruction's fault halts the job at it. -/
theorem State.raiseScalar_halts {s : State} (hs : s.canIssue = true) (hd : s.drained = true) (code : Nat) (info : W64) :
    let t := s.raiseScalar code info
    t.job = { s.job with state := stFaulted } ∧ t.sb = { s.sb with wait := none, waitReg := none } ∧ t.sp = s.sp ∧ t.hl = s.hl
      ∧ t.tq = [] ∧ t.fl = [] ∧ t.xp = s.xp := by
  have h := (State.canIssue_iff s).mp hs
  have hd' : s.fl = [] ∧ s.tq = [] := by simpa [State.drained] using hd
  have r := State.raiseHaltAs_halts (s := { s with freeCtr := s.freeCtr + 1 }) (State.active_of_canIssue hs) h.2.2.2.2 h.2.2.2.1
    hd'.1 hd'.2 s.sb.nextSeq (BitVec.setWidth 32 (Config.freeWord s.freeCtr)) s.sb.pc code info
  exact ⟨r.1, r.2.1, r.2.2.1, r.2.2.2.1, r.2.2.2.2.1, r.2.2.2.2.2.1, r.2.2.2.2.2.2.1⟩

/-! ### Tensor instructions -/

/-- A tensor instruction whose check fails at head of issue. -/
theorem tensorRow_bad {i : Instr} {w : InsWord} {s : State} {aux : List Nat} {chk : QEntry → State → List Flt} {op : TOp} {f : Flt}
    (hw : w.toInstr = i) (hs : s.canIssue = true) (hf : firstFlt (chk (s.entry w aux) s) = some f) :
    tensorRow i w s aux chk op = .next (s.raiseIssue f) := by
  unfold tensorRow; rw [instrRow_next hw hs]; simp [hf]

/-- A tensor instruction at a full queue waits (R61). -/
theorem tensorRow_full {i : Instr} {w : InsWord} {s : State} {aux : List Nat} {chk : QEntry → State → List Flt} {op : TOp}
    (hw : w.toInstr = i) (hs : s.canIssue = true) (hf : firstFlt (chk (s.entry w aux) s) = none) (hn : s.nextBad = false)
    (hq : Config.queueRoom ≤ s.tq.length) :
    tensorRow i w s aux chk op = .next { s with sb := { s.sb with wait := some w } } := by
  unfold tensorRow; rw [instrRow_next hw hs]; simp [hf, hn, hq]

/-- The state just after a tensor instruction has entered the queue. -/
def State.issued (s : State) (q : QEntry) : State :=
  { s with
    tq := s.tq ++ [q], live := { s.live with issued := s.live.issued + 1 }
    sb := { s.sb with pc := s.sb.pc + 32, nextSeq := s.sb.nextSeq + 1 } }

/-- A tensor instruction enters the queue, and is tried at once where the queue was empty. -/
theorem tensorRow_issued {i : Instr} {w : InsWord} {s : State} {aux : List Nat} {chk : QEntry → State → List Flt} {op : TOp}
    (hw : w.toInstr = i) (hs : s.canIssue = true) (hf : firstFlt (chk (s.entry w aux) s) = none) (hn : s.nextBad = false)
    (hq : s.tq.length < Config.queueRoom) :
    tensorRow i w s aux chk op =
      .next (if s.tq.isEmpty then (s.issued (s.entry w aux)).tryStart op else s.issued (s.entry w aux)) := by
  unfold tensorRow; rw [instrRow_next hw hs]
  have : ¬ Config.queueRoom ≤ s.tq.length := by omega
  simp [hf, hn, this]
  rfl

end Sys2Proof.Machine
end

