-- ==== Sys2Proof/Laws/Idle.lean ====
section
/-! SUPPORT. What falls due by itself: with nothing due nothing happens, and what each act keeps, all of them keep. -/

namespace Sys2Proof.Machine

theorem runDue_none {acts : List Act} {s : State} (h : firstDue acts s = none) (k : Nat) : runDue acts k s = s := by
  cases k with
  | zero => rfl
  | succ k => simp [runDue, h]

/-- No limit has come: an arrival finds the state as it is. -/
theorem State.expire_none {s : State} (h : firstDue limitActs s = none) : s.expire = s := runDue_none h _
/-- Nothing is due. -/
theorem State.settle_none {s : State} (h : firstDue dueActs s = none) : s.settle = s := runDue_none h _

/-- Nothing comes before an arrival of this tick: it finds the state as it is. -/
theorem State.beforeArrival_none {s : State} (h : firstDue limitActs s = none) (k : firstDue arriveActs s = none) :
    s.beforeArrival = s := by
  unfold State.beforeArrival
  rw [State.expire_none h, runDue_none k]

/-- One act that happens is one of the list whose condition holds. -/
theorem firstDue_cases {acts : List Act} {s t : State} (h : firstDue acts s = some t) :
    ∃ a ∈ acts, a.1 s = true ∧ t = a.2 s := by
  induction acts with
  | nil => simp [firstDue] at h
  | cons a r ih =>
    obtain ⟨c, f⟩ := a
    simp only [firstDue] at h
    split at h
    · next hc => exact ⟨(c, f), by simp, hc, (Option.some.inj h).symm⟩
    · obtain ⟨a, ha, hh⟩ := ih h
      exact ⟨a, List.mem_cons_of_mem _ ha, hh⟩

/-- What every act of a list keeps while its condition holds, running them keeps. -/
theorem runDue_keeps {acts : List Act} (P : State → Prop) (hk : ∀ a ∈ acts, ∀ s, a.1 s = true → P s → P (a.2 s))
    (k : Nat) {s : State} (h : P s) : P (runDue acts k s) := by
  induction k generalizing s with
  | zero => exact h
  | succ k ih =>
    simp only [runDue]
    split
    · exact h
    · next t e =>
      obtain ⟨a, ha, hc, rfl⟩ := firstDue_cases e
      exact ih (hk a ha s hc h)

/-! ### What a change of the tick and a write of TT_CTL do to queue entries -/

/-- A step of the tick changes of an entry only the tick at which it became ready, and that only to the new tick. -/
theorem QEntry.skipTo_cases (q : QEntry) (old t : W64) : q.skipTo old t = q ∨ q.skipTo old t = { q with readyAt := some t } := by
  unfold QEntry.skipTo
  split
  · exact .inr rfl
  · exact .inl rfl
@[simp] theorem QEntry.skipTo_w (q : QEntry) (old t : W64) : (q.skipTo old t).w = q.w := by
  rcases q.skipTo_cases old t with h | h <;> rw [h]
@[simp] theorem QEntry.skipTo_seq (q : QEntry) (old t : W64) : (q.skipTo old t).seq = q.seq := by
  rcases q.skipTo_cases old t with h | h <;> rw [h]
@[simp] theorem QEntry.skipTo_startAt (q : QEntry) (old t : W64) : (q.skipTo old t).startAt = q.startAt := by
  rcases q.skipTo_cases old t with h | h <;> rw [h]

/-- A write of TT_CTL changes of an entry only the two limits that it keeps, and neither of those that it keeps already (R528). -/
theorem QEntry.keepLimit_lateLim {q : QEntry} {n : Nat} (h : q.lateLim = some n) (now limit : Nat) :
    (q.keepLimit now limit).lateLim = some n := by
  simp [QEntry.keepLimit, h]
theorem QEntry.keepLimit_barLim {q : QEntry} {n : Nat} (h : q.barLim = some n) (now limit : Nat) :
    (q.keepLimit now limit).barLim = some n := by
  simp [QEntry.keepLimit, h]
@[simp] theorem QEntry.keepLimit_w (q : QEntry) (now limit : Nat) : (q.keepLimit now limit).w = q.w := rfl
@[simp] theorem QEntry.keepLimit_seq (q : QEntry) (now limit : Nat) : (q.keepLimit now limit).seq = q.seq := rfl
@[simp] theorem QEntry.keepLimit_readyAt (q : QEntry) (now limit : Nat) : (q.keepLimit now limit).readyAt = q.readyAt := rfl

/-! ### Poisoned lines read under POISON_OK -/

@[simp] theorem State.noteOkReads_zero (s : State) (q : QEntry) : s.noteOkReads q 0 = s := by
  simp [State.noteOkReads]
@[simp] theorem State.noteOkReads_sp (s : State) (q : QEntry) (n : Nat) : (s.noteOkReads q n).sp = s.sp := by
  unfold State.noteOkReads
  split
  · rfl
  · dsimp only
    split <;> simp [State.updInst]
@[simp] theorem State.noteOkReads_okReads (s : State) (q : QEntry) (n : Nat) :
    (s.noteOkReads q n).ft.okReads = if n = 0 then s.ft.okReads else satAdd s.ft.okReads n := by
  unfold State.noteOkReads
  split
  · rfl
  · dsimp only
    split <;> simp [State.updInst]

end Sys2Proof.Machine
end

