-- ==== Sys2Proof/Tests/Slice0.lean ====
section
/-! SUPPORT. The model's own tests: what the well-formedness checks refuse, words written out from the spec's encoding, small checks
against the spec's tables, and for every statement states and operands that meet its hypotheses. -/

open Sys2Proof Sys2Proof.Machine Sys2Proof.Claims

namespace Sys2Proof.Tests

set_option Elab.async false

/-! ### States to test on -/

/-- A port that is UP at version 3 with the formats `fmt`, credits both ways and a depth of 64. -/
def upPort (p : Nat) : Port :=
  { Port.down with state := 2, mode := jointMode p (ownCap p), cap := ownCap p, txDepth := 64, txCred := 64, rxFree := 16, rxOut := 16 }

/-- The whole-part profile: 4.8 GHz, 400 W, a yard of 16 MiB, commands may switch, every group and port. -/
def profile0 : Profile := ⟨4800, 400, 16, 0, 0, 2, 0x7FFFFFFFF, 0, BitVec.allOnes 256, 0⟩

/-- READY and RUNNING as chip 8, every port UP, tick 4,096. -/
def base : State := { State.reset with
  boot := { Boot.reset with phase := .ready, negTries := 2, negUs := 10, profiles := [profile0, profile0, profile0, profile0] }
  svc := ⟨true, false, false, 2048, 128, 8, 0xFF, true⟩
  cfg := { Cfg.reset with step := 7, active := profile0 }
  job := { Job.reset with chipValid := true, chipId := 8, state := 4 }
  pw := { Power.reset with capW := 400, capEff := 400, rootMhz := 4800, sclkRoot := true, pllLock := true }
  tb := { Timebase.reset with acc := (4096 : BitVec 88) <<< 24, on := true }
  ports := (List.range 35).map (fun p => (p, upPort p)) }

/-- The same with descriptors d1, d2, … and bytes in the scratchpad. -/
def withD (s : State) (ds : List (BitVec 256)) : State :=
  { s with sb := { s.sb with d := ds.zipIdx.map (fun p => (p.2 + 1, p.1)) } }
def withB (s : State) (at_ : Nat) (bytes : List Byte) : State :=
  { s with sp := { s.sp with mem := s.sp.mem.writeBytes at_ bytes } }

/-- A PLAIN descriptor word (02 Table 2.4): base, format code, the dimensions and the pitches. -/
def desc (base fmt : Nat) (dims : List Nat) (pitches : List Nat := []) : BitVec 256 :=
  let n := fun k => dims.getD k 1 - 1
  BitVec.ofNat 256 (base + fmt * 2 ^ 48 + (dims.length - 1) * 2 ^ 55 + n 0 * 2 ^ 57 + n 1 * 2 ^ 77 + n 2 * 2 ^ 97 + n 3 * 2 ^ 117
    + pitches.getD 0 0 * 2 ^ 137 + pitches.getD 1 0 * 2 ^ 169 + pitches.getD 2 0 * 2 ^ 201)
/-- The same with a layout. -/
def laid (layout : Nat) (d : BitVec 256) : BitVec 256 := d + BitVec.ofNat 256 (layout * 2 ^ 52)

/-- A tensor word: d1 the destination, d2, d3 and d4 the sources, formats of DST and SA. -/
def tw (opc fn : Byte) (dfmt sfmt : BitVec 4) : InsWord := { word opc fn with dst := 1, sa := 2, sb := 3, sc := 4, dfmt := dfmt, sfmt := sfmt }

/-- `startsAny`, `startsClean` and `startsBut` as tests that can be run. -/
def mayStart (s : State) (w : InsWord) (op : TOp) : Bool :=
  let q := readyEntry s w
  let u := counted s
  let v := { u with tq := [q] }
  decide (s.job.state = 4) && s.sb.wait.isNone && s.sb.waitReg.isNone && s.ft.halting.isNone && s.job.kill.isNone && s.fl.isEmpty
    && s.tq.isEmpty
    && decide (s.sb.pc.toNat + 32 ≤ 0x7FFE0) && (failing s w).isNone && decide (w.start40 = 0) && !op.hold q v
    && !s.scrubWaits op q
    && (op.present q v).all (fun p => decide (p.2 ≤ (s.window p.1).received.toNat))
    && (firstStart (u.commonStart (op.srcs q) (op.outs q) ++ op.startChk q u)).isNone
    && (s.sp.suspects.filter (readsLine s w op)).isEmpty

def apartB (s : State) (w : InsWord) (op : TOp) : Bool := !(readyEntry s w).misread (op.srcs (readyEntry s w)) (op.outs (readyEntry s w))
def butB (s : State) (w : InsWord) (op : TOp) : Bool := mayStart s w op && apartB s w op
def anyB (s : State) (w : InsWord) (op : TOp) : Bool :=
  mayStart s w op && (s.sp.psnLines.filter (readsLine s w op)).isEmpty && ((begun s w).spoiltLine (readsOf s w op)).isNone
    && (!w.commit || !s.yd.taintAny)
def cleanB (s : State) (w : InsWord) (op : TOp) : Bool := anyB s w op && apartB s w op

theorem keepsApart_of {s : State} {w : InsWord} {op : TOp} (c : apartB s w op = true) : keepsApart s w op := by
  unfold apartB at c; simpa [keepsApart] using c

theorem startsBut_of {s : State} {w : InsWord} {op : TOp} (h : opOf w.toInstr = some op) (c : butB s w op = true) :
    startsBut s w op := by
  simp only [butB, mayStart, Bool.and_eq_true, decide_eq_true_eq, Option.isNone_iff_eq_none, List.isEmpty_iff, List.all_eq_true,
    Bool.not_eq_true'] at c
  obtain ⟨⟨⟨⟨⟨⟨⟨⟨⟨⟨⟨⟨⟨⟨⟨c1, c2⟩, c2'⟩, c3⟩, c4⟩, c5⟩, c6⟩, c7⟩, c8⟩, c9⟩, c10⟩, c11⟩, c12⟩, c13⟩, c14⟩, c15⟩ := c
  exact ⟨⟨c1, c2, c2', c3, c4⟩, ⟨c5, c6⟩, c7, h, c8, c9, c10, c11, c12, c13, c14, keepsApart_of c15⟩

theorem startsAny_of {s : State} {w : InsWord} {op : TOp} (h : opOf w.toInstr = some op) (c : anyB s w op = true) :
    startsAny s w op := by
  simp only [anyB, mayStart, Bool.and_eq_true, decide_eq_true_eq, Option.isNone_iff_eq_none, List.isEmpty_iff, List.all_eq_true,
    Bool.not_eq_true', Bool.or_eq_true] at c
  obtain ⟨⟨⟨⟨⟨⟨⟨⟨⟨⟨⟨⟨⟨⟨⟨⟨⟨c1, c2⟩, c2'⟩, c3⟩, c4⟩, c5⟩, c6⟩, c7⟩, c8⟩, c9⟩, c10⟩, c11⟩, c12⟩, c13⟩, c14⟩, c15⟩, c16⟩, c17⟩ := c
  refine ⟨⟨c1, c2, c2', c3, c4⟩, ⟨c5, c6⟩, c7, h, c8, c9, c10, c11, c12, c13, ⟨c14, c15, c16⟩, fun k => ?_⟩
  rcases c17 with c17 | c17
  · rw [k] at c17; cases c17
  · exact c17

theorem startsClean_of {s : State} {w : InsWord} {op : TOp} (h : opOf w.toInstr = some op) (c : cleanB s w op = true) :
    startsClean s w op := by
  rw [cleanB, Bool.and_eq_true] at c
  exact ⟨startsAny_of h c.1, keepsApart_of c.2⟩

/-! ### A word of each tensor row, and a state in which it starts -/

/-- Vectors of four elements of one format: d1 at 0x1000, d2 at 0x2000, d3 at 0x3000, d4 at 0x4000. -/
def vecs (fmt : Nat) : State := withD base (([0x1000, 0x2000, 0x3000, 0x4000] : List Nat).map (fun a => desc a fmt [4]))
/-- Matrices of 2 rows of 4 elements. -/
def mats (fmt : Nat) : State := withD base (([0x1000, 0x2000, 0x3000, 0x4000] : List Nat).map (fun a => desc a fmt [4, 2] [4]))

def wAdd : InsWord := { word 0x10 0 with dst := 1, sa := 2, sb := 3 }
def wNeg : InsWord := { word 0x11 1 with dst := 1, sa := 2 }
def wFma : InsWord := { word 0x12 0 with dst := 1, sa := 2, sb := 3, sc := 4 }
def wEq : InsWord := { word 0x13 0 with dst := 1, sa := 2, sb := 3 }
def wExp : InsWord := { word 0x18 0 with dst := 1, sa := 2 }
def wCvt : InsWord := { word 0x28 0 with dst := 1, sa := 2, dfmt := 1 }
def wRed : InsWord := { word 0x20 0 with dst := 1, sa := 2, imm32 := 1 }
def wNorm : InsWord := { word 0x21 0 with dst := 1, sa := 2, imm32 := 0x3727C5AC }
def wTopk : InsWord := { word 0x22 0 with dst := 1, sa := 2, dfmt := 11, imm32 := 2 }
def wHist : InsWord := { word 0x22 1 with dst := 1, sa := 2, dfmt := 11, sfmt := 11 }
def wDisp : InsWord := { word 0x22 2 with dst := 1, sa := 2, dfmt := 11, sfmt := 11, imm32 := 2 }
def wSmax : InsWord := { word 0x23 0 with dst := 1, sa := 2, imm32 := 1 }
def wLse : InsWord := { word 0x23 1 with dst := 1, sa := 2, imm32 := 1 }
def wDot : InsWord := { word 0x30 0 with dst := 1, sa := 2, sb := 3 }
def wStream : InsWord := { word 0x38 0 with dst := 1, xs := 1 }
def wMerge : InsWord := { word 0x38 1 with dst := 1, sa := 2, sb := 3 }
def wCopy : InsWord := { word 0x40 0 with dst := 1, sa := 2 }
def wGath : InsWord := { word 0x41 0 with dst := 1, sa := 2, sb := 3, aux64 := 1 }
def wScat : InsWord := { word 0x42 0 with dst := 1, sa := 2, sb := 3, aux64 := 1 }
def wScatAdd : InsWord := { word 0x42 1 with dst := 1, sa := 2, sb := 3, dfmt := 11, sfmt := 11, aux64 := 1 }
def wXfer : InsWord := { word 0x48 0 with dst := 1, sa := 2 }
def wOffl : InsWord := { word 0x49 0 with dst := 1, sa := 2 }
def wReld : InsWord := { word 0x49 1 with dst := 1, sa := 2 }
def wOpen : InsWord := { word 0x50 0 with dst := 1, dfmt := 11, imm32 := 3 }
def wClose : InsWord := { word 0x50 1 with imm32 := 3 }
def wExpect : InsWord := { word 0x50 2 with imm32 := 3, aux64 := 128 }
def wWaitcl : InsWord := { word 0x50 3 with imm32 := 3 }
def wClaim : InsWord := { word 0x58 0 with sa := 2, sfmt := 11, ys := 5, imm32 := 0x70000 }
def wContrib : InsWord := { word 0x58 1 with sa := 2, ys := 5, imm32 := 0x70009 }
def wCollect : InsWord := { word 0x58 2 with dst := 1, ys := 5 }
def wRelease : InsWord := { word 0x58 3 with ys := 5 }
def wFwd : InsWord := { word 0x58 4 with ys := 5, imm32 := 0x70009, aux64 := 0x0620000000000000 }
def wPost : InsWord := { word 0x59 0 with imm32 := 7, aux64 := 99 }
def wWait : InsWord := { word 0x59 1 with imm32 := 2, aux64 := 0 }
def wBarrier : InsWord := { word 0x60 1 with aux64 := 5000 }
def wCheckWin : InsWord := { word 0x60 2 with imm32 := 3, aux64 := 0 }
def wMark : InsWord := { word 0x60 0 with imm32 := 77 }
def wDown : InsWord := { word 0x68 0 with imm32 := 0x102 }
def wUp : InsWord := { word 0x68 1 with imm32 := 0x102 }
def wZero : InsWord := { word 0x68 2 with imm32 := 0x102 }
def wRecord : InsWord := { word 0x70 0 with sa := 2, sb := 3, aux64 := 1 }
def wCheck : InsWord := { word 0x70 1 with sa := 2, sb := 3, aux64 := 1 }

def sCvt : State := withD base [desc 0x1000 1 [4], desc 0x2000 0 [4]]
def sRed : State := withD base [desc 0x1000 0 [1, 2] [1], desc 0x2000 0 [4, 2] [4]]
def sTopk : State := withD base [desc 0x1000 11 [2, 2] [2], desc 0x2000 0 [4, 2] [4]]
/-- Two slots for each of three tokens; two experts of two places. -/
def sDisp : State := withD base [desc 0x1000 11 [2, 2] [2], desc 0x2000 11 [2, 3] [2]]
/-- A: 2 rows of K = 4; B: 3 rows of K = 4. -/
def sDot : State := withD base [desc 0x1000 0 [3, 2] [3], desc 0x2000 0 [4, 2] [4], desc 0x3000 0 [4, 3] [4]]
/-- Chain 1 is one ST of c0. -/
def sStream : State :=
  let s := withD base [desc 0x1000 0 [4, 2] [4]]
  { s with xp := { s.xp with chains := [(16, 0x8400000000000000)] } }
def sMerge : State := withD base [desc 0x1000 0 [4, 2] [4], desc 0x2000 0 [4, 2] [4], desc 0x3000 0 [96, 1] [96]]
def sGath : State := withD base [desc 0x1000 0 [4], desc 0x2000 0 [4], desc 0x3000 11 [4]]
def sScatAdd : State := withD base [desc 0x1000 11 [4], desc 0x2000 11 [4], desc 0x3000 11 [4]]
/-- A transfer to package memory, and one from it. -/
def sOut : State := withD base [desc 0x100000000000 0 [64], desc 0x2000 0 [64]]
def sIn : State := withD base [desc 0x2000 0 [64], desc 0x100000000000 0 [64]]
def sOpen : State := withD base [desc 0x4000 11 [32, 4] [32]]
/-- The member table 8, 9; chip 8 is position 0. -/
def sClaim : State := withB (withD base [0, desc 0x2000 11 [2]]) 0x2000 [8, 0, 0, 0, 9, 0, 0, 0]
def slot5 : Slot := { Slot.free with claimed := true, coll := 7, n := 2, table := [8, 9], frames := [Frame.fresh 0] }
def sYard : State :=
  let s := withD base [desc 0x1000 0 [4], desc 0x2000 0 [4]]
  { s with yd := { s.yd with slots := [(5, slot5)] } }
def sSpad : State := { base with job := { base.job with manifest := { base.job.manifest with groups := BitVec.allOnes 256 } } }
def sGen : State := withD base [0, desc 0x2000 0 [4, 2] [4], desc 0x3000 11 [4, 2] [4]]

/-! ### Each of the 42 tensor rows starts (hypotheses of TensorInstructionsStart and of the statements by class) -/

theorem test_starts_Add : startsClean (vecs 0) wAdd ewOp := startsClean_of rfl (by decide +kernel)
theorem test_starts_Neg : startsClean (vecs 0) wNeg ewOp := startsClean_of rfl (by decide +kernel)
theorem test_starts_Fma : startsClean (vecs 0) wFma ewOp := startsClean_of rfl (by decide +kernel)
theorem test_starts_Eq : startsClean (vecs 0) wEq ewOp := startsClean_of rfl (by decide +kernel)
theorem test_starts_Exp : startsClean (vecs 0) wExp ewOp := startsClean_of rfl (by decide +kernel)
theorem test_starts_Cvt : startsClean sCvt wCvt cvtOp := startsClean_of rfl (by decide +kernel)
theorem test_starts_Red : startsClean sRed wRed tRedOp := startsClean_of rfl (by decide +kernel)
theorem test_starts_Norm : startsClean (mats 0) wNorm normOp := startsClean_of rfl (by decide +kernel)
theorem test_starts_Topk : startsClean sTopk wTopk topkOp := startsClean_of rfl (by decide +kernel)
theorem test_starts_Hist : startsClean (vecs 11) wHist histOp := startsClean_of rfl (by decide +kernel)
theorem test_starts_Disp : startsClean sDisp wDisp dispOp := startsClean_of rfl (by decide +kernel)
theorem test_starts_Smax : startsClean (mats 0) wSmax smaxOp := startsClean_of rfl (by decide +kernel)
theorem test_starts_Lse : startsClean sRed wLse lseOp := startsClean_of rfl (by decide +kernel)
theorem test_starts_Dot : startsClean sDot wDot dotOp := startsClean_of rfl (by decide +kernel)
theorem test_starts_Stream : startsClean sStream wStream streamOp := startsClean_of rfl (by decide +kernel)
theorem test_starts_Merge : startsClean sMerge wMerge mergeOp := startsClean_of rfl (by decide +kernel)
theorem test_starts_Copy : startsClean (vecs 0) wCopy copyOp := startsClean_of rfl (by decide +kernel)
theorem test_starts_Gath : startsClean sGath wGath (gsOp gathRun) := startsClean_of rfl (by decide +kernel)
theorem test_starts_Scat : startsClean sGath wScat (gsOp scatterRun) := startsClean_of rfl (by decide +kernel)
theorem test_starts_ScatAdd : startsClean sScatAdd wScatAdd (gsOp scatterAddRun) := startsClean_of rfl (by decide +kernel)
theorem test_starts_Xfer : startsClean sOut wXfer moveOp := startsClean_of rfl (by decide +kernel)
theorem test_starts_Offl : startsClean sOut wOffl moveOp := startsClean_of rfl (by decide +kernel)
theorem test_starts_Reld : startsClean sIn wReld moveOp := startsClean_of rfl (by decide +kernel)
theorem test_starts_Open : startsClean sOpen wOpen openOp := startsClean_of rfl (by decide +kernel)
theorem test_starts_Close : startsClean base wClose closeOp := startsClean_of rfl (by decide +kernel)
theorem test_starts_Expect : startsClean base wExpect expectOp := startsClean_of rfl (by decide +kernel)
theorem test_starts_Waitcl : startsClean base wWaitcl waitclOp := startsClean_of rfl (by decide +kernel)
theorem test_starts_Claim : startsClean sClaim wClaim claimOp := startsClean_of rfl (by decide +kernel)
theorem test_starts_Contrib : startsClean sYard wContrib contribOp := startsClean_of rfl (by decide +kernel)
theorem test_starts_Collect : startsClean sYard wCollect collectOp := startsClean_of rfl (by decide +kernel)
theorem test_starts_Release : startsClean sYard wRelease releaseOp := startsClean_of rfl (by decide +kernel)
theorem test_starts_Fwd : startsClean sYard wFwd fwdOp := startsClean_of rfl (by decide +kernel)
theorem test_starts_Post : startsClean base wPost postOp := startsClean_of rfl (by decide +kernel)
theorem test_starts_Wait : startsClean base wWait waitOp := startsClean_of rfl (by decide +kernel)
theorem test_starts_Barrier : startsClean base wBarrier barrierOp := startsClean_of rfl (by decide +kernel)
theorem test_starts_CheckWin : startsClean base wCheckWin windowOp := startsClean_of rfl (by decide +kernel)
theorem test_starts_Mark : startsClean base wMark markOp := startsClean_of rfl (by decide +kernel)
theorem test_starts_Down : startsClean sSpad wDown downOp := startsClean_of rfl (by decide +kernel)
theorem test_starts_Up : startsClean sSpad wUp upOp := startsClean_of rfl (by decide +kernel)
theorem test_starts_Zero : startsClean sSpad wZero zeroOp := startsClean_of rfl (by decide +kernel)
theorem test_starts_Record : startsClean sGen wRecord (plainOp (fun q => [q.oSa]) (fun q => [q.oSb]) recordRun) := startsClean_of rfl (by decide +kernel)
theorem test_starts_Check : startsClean sGen wCheck (plainOp (fun q => [q.oSa, q.oSb]) (fun _ => []) checkRun) := startsClean_of rfl (by decide +kernel)
/-- d1 at 0x1000 and d2 four bytes on: three elements of each share their bytes. -/
def meetS : State := withD base (([0x1000, 0x1004, 0x3000, 0x4000] : List Nat).map (fun a => desc a 0 [4]))
theorem test_wit_meeting : startsAny meetS wAdd ewOp ∧ ¬ keepsApart meetS wAdd ewOp ∧ keepsApart (vecs 0) { wAdd with sa := 1 } ewOp
    ∧ keepsApart (withD base [desc 0x1000 0 [4, 2] [16], desc 0x1010 0 [4, 2] [16], desc 0x1020 0 [4, 2] [16]]) wAdd ewOp :=
  ⟨startsAny_of rfl (by decide +kernel), by unfold keepsApart; decide +kernel, by unfold keepsApart; decide +kernel, by unfold keepsApart; decide +kernel⟩

/-! ### Witnesses: states and operands that meet the statements' hypotheses -/

def withS (s : State) (k : Nat) (v : W64) : State := { s with sb := { s.sb with s := AL.put s.sb.s k v } }
/-- An instruction in flight, alone in the array. -/
def inFlight (w : InsWord) (p : Prog) : Inflight := ⟨{ base.entry w [] with readyAt := some 4096 }, 4096, none, false, false, [], p⟩
def busy : State := { base with fl := [inFlight wMark .idle], sb := { base.sb with nextSeq := 1 } }
/-- What clears a tensor register's Option. -/
theorem none_of {α : Type} {o : Option α} (h : o.isNone = true) : o = none := Option.isNone_iff_eq_none.mp h

theorem test_wit_stepRunsFrontCommand : ({ base with pending := [.reset, .pllLock] } : State).pending = .reset :: [.pllLock] := rfl
theorem test_wit_emptyQueue_inReset :
    let s := { base with boot := { base.boot with phase := .inReset } }
    s.pending = [] ∧ s.boot.phase = .inReset := ⟨rfl, rfl⟩
def idleS : State := { base with job := { base.job with state := 0 } }
theorem test_wit_emptyQueue_idle : idleS.pending = [] ∧ idleS.boot.phase ≠ .inReset ∧ firstDue dueActs (idleS.elapse 1) = none
    ∧ ¬ issues idleS ∧ ¬ issues ((idleS.elapse 1).settle) :=
  ⟨rfl, by decide, none_of (by decide +kernel), by unfold issues; decide +kernel, by unfold issues; decide +kernel⟩
/-- The word at the PC has an uncorrectable error. -/
theorem test_wit_emptyQueue_fetch : let s := { base with sb := { base.sb with ecc := [(0, true)] } }
    s.pending = [] ∧ s.boot.phase ≠ .inReset ∧ issues ((s.elapse 1).settle) ∧ (s.elapse 1).settle.sb.pc.toNat % 8 = 0
      ∧ (s.elapse 1).settle.sb.ecc.find? (fun e => e.1 = (s.elapse 1).settle.sb.pc.toNat) = some (0, true)
      ∧ (s.elapse 1).settle.sb.pc.toNat = 0 := by unfold issues; decide +kernel
theorem test_wit_emptyQueue_due :
    let s := { base with job := { base.job with wdog := 1 } }
    s.pending = [] ∧ s.boot.phase ≠ .inReset ∧ ∃ t, firstDue dueActs (s.elapse 1) = some t :=
  ⟨rfl, by decide, Option.isSome_iff_exists.mp (by decide +kernel)⟩
theorem test_wit_emptyQueue_issues : base.pending = [] ∧ base.boot.phase ≠ .inReset ∧ firstDue dueActs (base.elapse 1) = none
    ∧ issues ((base.elapse 1).settle) ∧ ∀ e ∈ (base.elapse 1).settle.sb.ecc, e.1 < (base.elapse 1).settle.sb.pc.toNat / 8 * 8
      ∨ (base.elapse 1).settle.sb.pc.toNat / 8 * 8 + 32 ≤ e.1 :=
  ⟨rfl, by decide, none_of (by decide +kernel), by unfold issues; decide +kernel, by decide +kernel⟩
/-- A signal box that waits. -/
def stallS (q : List QEntry) (f : List Inflight) : State := { vecs 0 with tq := q, fl := f, sb := { (vecs 0).sb with wait := some (word 0 1), nextSeq := 9 } }
/-- T.UN NEG at the front of the queue, ready at tick 4,096. -/
def negQ (start : Option W64) (short : List Nat) (grace : Nat) : QEntry :=
  { (vecs 0).entry wNeg [] with startAt := start, short := short, readyAt := some 4096, grace := grace }
/-- Window 3 takes its source in, with 128 bytes expected and `got` there; a scrub that has not reached group 0. -/
def expects (got : W64) (s : State) : State :=
  { s with wins := [(3, { Window.init with base := 0x2000, expected := 128, received := got })] }
def scrubbing (s : State) : State := { s with sp := { s.sp with scrubRun := true, scrubWm := 0, scrubOn := [0] } }
/-- What the statement assumes of a state, but for what its clauses name. -/
def booksB (s : State) : Bool :=
  s.pending.isEmpty && decide (s.boot.phase ≠ .inReset) && (firstDue dueActs (s.elapse 1)).isNone && !decide (s.job.state = 4 ∧ s.sb.wait = none)
theorem books_of {s : State} (c : booksB s = true) : s.pending = [] ∧ s.boot.phase ≠ .inReset ∧ ¬ issues s ∧ firstDue dueActs (s.elapse 1) = none := by
  simp only [booksB, Bool.and_eq_true, List.isEmpty_iff, decide_eq_true_eq, Option.isNone_iff_eq_none, Bool.not_eq_true', decide_eq_false_iff_not] at c
  exact ⟨c.1.1.1, c.1.1.2, fun h => c.2 ⟨h.1, h.2.1⟩, c.1.2⟩
def streamP : Prog := .xpr ⟨⟨[], 0, 127, none, [], [], [], []⟩, ⟨[], 0, 127, none, [], [], [], []⟩, [0, 0, 0, 1], [0, 0, 0, 1], [], [], [], 4096, 400000⟩
def barrierF : Inflight := inFlight wBarrier (.untilTick 5000)
/-- Not RUNNING; nothing incomplete; work beside a wait; a wait alone; a start tick; a short window; a scrub; a T.XPR behind another. -/
theorem test_wit_runCycles : [idleS, stallS [] [], stallS [] [barrierF, { inFlight wAdd .idle with q := { (inFlight wAdd .idle).q with seq := 1 } }],
      stallS [] [barrierF], stallS [negQ (some 5000) [] 0] [], expects 127 (stallS [negQ none [3] 1600] []),
      scrubbing (stallS [] [{ inFlight wNeg .scrub with q := { negQ none [] 0 with dst := Desc.ofBits (desc 0x100000 0 [4]) } }]), stallS [{ (sStream.entry wStream []) with seq := 1 }] [inFlight wStream streamP]].map booksB =
        [true, true, true, true, true, true, true, true]
    ∧ base.executes (inFlight wAdd .idle) = true ∧ (stallS [] [barrierF]).idleMoving 1 = none
    ∧ waitsOn barrierF.prog = some 6 ∧ waitsOn .scrub = some 5 ∧ base.now < 5000 ∧ streamP ≠ .idle := by decide +kernel
/-- Fronts that R68 and R138 hold: an OVL entry behind four in flight, and one with the tensor id of an instruction in flight. -/
theorem test_wit_runCycles_held : let f := inFlight wStream streamP
    let q := { (vecs 0).entry { wNeg with ovl := true } [] with seq := 4 }
    [stallS [q] [barrierF, barrierF, barrierF, barrierF], stallS [{ q with dst := f.q.dst }] [f]].map booksB = [true, true] ∧ q.w.ovl = true ∧ q.readyAt = none
      ∧ barrierF.prog ≠ .idle ∧ f.q.dst.tensorId ∈ f.q.destTids ∧ f.q.dst.tensorId ∈ ({ q with dst := f.q.dst } : QEntry).destTids := by decide +kernel
theorem test_wit_stepKeepsCanonicalMemory : ∃ t, sClaim.memOk = true ∧ step { sClaim with pending := [.reset] } = .next t :=
  ⟨_, by decide +kernel, rfl⟩
theorem test_wit_stepKeepsBounds : ∃ t, bounded busy ∧ step { busy with pending := [.reset] } = .next t :=
  ⟨_, by unfold bounded groupsOnce; decide +kernel, rfl⟩
theorem test_wit_systemFences : issues base ∧ room base ∧ empty base ∧ issues busy ∧ room busy ∧ ¬ empty busy := by
  unfold issues room empty; decide +kernel
theorem test_wit_lastRoom :
    let s := { base with sb := { base.sb with pc := 0x7FFC0 } }
    issues s ∧ room s := by unfold issues room; decide +kernel
theorem test_wit_alu : issues base ∧ room base ∧ (15 : Byte).toNat ≤ 15 ∧ (3 : Byte).toNat ≤ 3 ∧ reg 31 ∧ reg 0 := by
  unfold issues room reg; decide +kernel

/-! Signal-box memory: s1 holds the address. -/

def atS1 (a : W64) (ecc : List (Nat × Bool)) : State := { base with sb := { base.sb with s := [(1, a)], ecc := ecc } }
def ldW (fn : Byte) : InsWord := { word 4 fn with dst := 31, sa := 1, imm32 := 0 }
theorem test_wit_load : let s := atS1 0x7FFF8 []
    issues s ∧ room s ∧ (7 : Byte).toNat ≤ 7 ∧ reg 31 ∧ reg 1 ∧ addrOf s (ldW 3) < 0x80000 ∧ addrOf s (ldW 3) % 2 ^ 3 = 0
      ∧ sbClean s (addrOf s (ldW 3)) := by unfold issues room reg sbClean; decide +kernel
theorem test_wit_load_outside : 0x80000 ≤ addrOf (atS1 0x80000 []) (ldW 3) ∧ addrOf (atS1 0x7FFFF []) (ldW 1) % 2 ≠ 0 := by decide +kernel
theorem test_wit_load_corrected : let s := atS1 0x40 [(0x40, false)]
    s.sb.ecc.find? (fun e => e.1 = addrOf s (ldW 3) / 8 * 8) = some (addrOf s (ldW 3) / 8 * 8, false) := by decide +kernel
theorem test_wit_load_uncorrectable : let s := atS1 0x40 [(0x40, true)]
    s.sb.ecc.find? (fun e => e.1 = addrOf s (ldW 3) / 8 * 8) = some (addrOf s (ldW 3) / 8 * 8, true) := by decide +kernel
theorem test_wit_store : let s := atS1 0x7FFFF [(0x40, true)]
    issues s ∧ room s ∧ s.memOk = true ∧ addrOf s { word 5 0 with sa := 1, sb := 2 } < 0x80000
      ∧ sbClean s (addrOf s { word 5 0 with sa := 1, sb := 2 }) := by unfold issues room sbClean; decide +kernel

/-! SPLD: s1 holds the scratchpad address; the yard begins at 496 MiB. -/

def spldW : InsWord := { word 4 0x10 with dst := 5, sa := 1 }
/-- The conditions of ScratchpadLoadCompletes, but for the array. -/
def spldAt (s : State) : Bool × Bool × Bool × Bool :=
  let a := addrOf s spldW
  (decide (a % 8 = 0), decide (a + s.cfg.active.yardMib.toNat * 2 ^ 20 < 2 ^ 29), s.groupOn (a / 2 ^ 21),
    s.sp.scrubRun && s.sp.scrubOn.contains (a / 2 ^ 21) && decide (s.sp.scrubWm ≤ a / 128 % 32768))
def scrubS : State := let s := withS base 1 0x80; { s with sp := { s.sp with scrubRun := true, scrubWm := 1, scrubOn := [0] } }
def offS : State := let s := withS base 1 0x80; { s with sp := { s.sp with groups := [(0, ⟨.off, false⟩)] } }
def psnS : State := let s := withS base 1 0x80; { s with sp := { s.sp with poison := [(0x80, 7)] } }
theorem test_wit_spld : issues base ∧ room base ∧ reg 5 ∧ empty base ∧ spldAt (withS base 1 0x1EFFFFF8) = (true, true, true, false)
    ∧ spldAt (withS base 1 0x1F000000) = (true, false, true, false) ∧ spldAt (withS base 1 0x84) = (false, true, true, false) := by
  unfold issues room reg empty; decide +kernel
/-- LIMP; a bank of district 0 has left service. -/
def limpS : State := let s := withS base 1 0x80
  { s with svc := { s.svc with limp := true }, hl := { s.hl with units := [(32768, { UnitRec.factory 1 0 with state := 2 })] } }
theorem test_wit_spld_limp : spldAt limpS = (true, true, true, false) ∧ limpS.svc.limp = true ∧ limpS.districtOk 0 = false
    ∧ limpS.districtOk 1 = true := by decide +kernel
/-- The same with an instruction in the array: the load is judged at head of issue, before it waits. -/
def limpBusy : State := { limpS with fl := [inFlight wMark .idle], sb := { limpS.sb with nextSeq := 1 } }
theorem test_wit_spld_limp_busy : issues limpBusy ∧ room limpBusy ∧ ¬ empty limpBusy ∧ spldAt limpBusy = (true, true, true, false)
    ∧ limpBusy.districtOk (addrOf limpBusy spldW / 2 ^ 22) = false ∧ (busy.svc.limp = false ∧ ¬ empty busy) := by
  unfold issues room empty; decide +kernel
theorem test_wit_spld_waits : spldAt scrubS = (true, true, true, true) ∧ spldAt offS = (true, true, false, false) := by decide +kernel
theorem test_wit_spld_poison : spldAt psnS = (true, true, true, false) ∧ (psnS.readLine 0x80).psn 0x80 = true
    ∧ ((withS base 1 0x80).readLine 0x80).psn 0x80 = false := by decide +kernel

/-! Transfers, descriptors, registers, HALT. -/

theorem test_wit_transfers : issues base ∧ reg 1 ∧ reg 2 ∧ brTakes 5 (base.getS 1) (base.getS 2) ∧ ¬ brTakes 1 (base.getS 1) (base.getS 2) := by
  refine ⟨by unfold issues; decide +kernel, by unfold reg; decide, by unfold reg; decide, ?_, ?_⟩
  · show BitVec.toNat _ ≤ BitVec.toNat _; decide +kernel
  · show ¬ (_ ≠ _); decide +kernel
theorem test_wit_transfers_far : let pc : W64 := (0x7FFC0 : BitVec 19).setWidth 64
    (pc + 32 * (1 : W32).signExtend 64).toNat = 0x7FFE0 ∧ 0x7FFE0 < (pc + 32 * (2 : W32).signExtend 64).toNat
      ∧ 0x7FFE0 < ((0 : W64) + 32 * (0xFFFFFFFF : W32).signExtend 64).toNat := by decide +kernel
theorem test_wit_descriptors : let s := atS1 0x7FFE0 [(0x7FFF8, true)]
    issues s ∧ room s ∧ s.memOk = true ∧ reg 1 ∧ (s.getS 1).toNat < 0x80000 ∧ (s.getS 1).toNat % 32 = 0
      ∧ s.sb.ecc.find? (fun e => e.1 = (s.getS 1).toNat + 8 * 3) = some ((s.getS 1).toNat + 8 * 3, true)
      ∧ ((∀ e ∈ s.sb.ecc, e.1 < (s.getS 1).toNat ∨ (s.getS 1).toNat + 8 * 3 ≤ e.1)) := by unfold issues room reg; decide +kernel
theorem test_wit_descriptors_edges : 0x80000 ≤ ((atS1 0x80000 []).getS 1).toNat ∧ ((atS1 0x7FFE1 []).getS 1).toNat % 32 ≠ 0
    ∧ (12 : W32).toNat ≤ 12 ∧ (∀ e ∈ (atS1 0 []).sb.ecc, e.1 < 0 ∨ 32 ≤ e.1) := by decide +kernel
theorem test_wit_predicates : issues base ∧ room base ∧ reg 31 ∧ 1 ≤ (15 : BitVec 6).toNat ∧ (15 : BitVec 6).toNat ≤ 15 := by
  unfold issues room reg; decide +kernel
theorem test_wit_jobRegisters : issues base ∧ empty base ∧ waitsForArray 0x210 ∧ ¬ empty busy ∧ issues busy
    ∧ (0x17FFF8 : W32).toNat % 8 = 0 ∧ (0x17FFF8 : W32).toNat < 0x180000 ∧ 0x180000 ≤ (0x180000 : W32).toNat
    ∧ jobWritable 0x1FF8 = true ∧ jobWritable 0x560 = false ∧ (0x4821 : W32).toNat % 8 ≠ 0 := by
  unfold issues empty waitsForArray; decide +kernel
theorem test_wit_halt : issues base ∧ empty base ∧ ¬ empty busy ∧ base.job.preserve = false
    ∧ ({ base.job with preserve := true } : Job).preserve = true := by unfold issues empty; decide +kernel
theorem test_wit_scalarFaults : issues base ∧ scalarOpc (word 0x0D 0).opc.toNat = true ∧ fnListed 0x0D 0 = false
    ∧ dirty { word 1 0 with sc := 1 } ∧ (∃ r ∈ scalarRegs { word 1 0 with dst := 32 }, 32 ≤ r.toNat)
    ∧ 12 < ({ word 8 2 with imm32 := 13 } : InsWord).imm32.toNat ∧ 15 < ({ word 9 0 with dst := 16 } : InsWord).dst.toNat := by
  unfold issues dirty; decide +kernel
theorem test_wit_scalarFaults_lastAddress : let s := { base with sb := { base.sb with pc := 0x7FFE0 } }
    let w := word 1 0
    issues s ∧ ¬ room s ∧ w.opc ≠ 6 ∧ w.opc ≠ 7 ∧ w.opc ≠ 0x7F ∧ scalarOpc w.opc.toNat = true ∧ fnListed w.opc.toNat w.fn.toNat = true
      ∧ ¬ dirty w ∧ (∀ r ∈ scalarRegs w, r.toNat < 32) ∧ w.opc ≠ 8 ∧ w.opc ≠ 9 := by unfold issues room dirty; decide +kernel
theorem test_wit_reservedBits : ({ word 0x10 0 with res2 := 1 } : InsWord).res2 ≠ 0 := by decide
theorem test_wit_formed : Instr.wf (.status 0) = true ∧ ¬ issues idleS := by unfold issues; decide +kernel

/-! Issue. -/

def entriesTo (n : Nat) : List QEntry := (List.range n).map (fun k => { base.entry wMark [] with seq := k })
def queueOf (n : Nat) : State := { vecs 0 with tq := entriesTo n, sb := { (vecs 0).sb with nextSeq := n } }
theorem test_wit_enterQueue_full : (checksOf wAdd.toInstr).isSome = true ∧ issues (queueOf 8) ∧ room (queueOf 8) ∧ 8 ≤ (queueOf 8).tq.length
    ∧ failing (queueOf 8) wAdd = none := by
  refine ⟨by decide, by unfold issues; decide +kernel, by unfold room; decide +kernel, by decide +kernel, none_of (by decide +kernel)⟩
theorem test_wit_enterQueue_behind : issues (queueOf 7) ∧ room (queueOf 7) ∧ (queueOf 7).tq ≠ [] ∧ (queueOf 7).tq.length < 8
    ∧ failing (queueOf 7) wAdd = none := by
  refine ⟨by unfold issues; decide +kernel, by unfold room; decide +kernel, by decide +kernel, by decide +kernel, none_of (by decide +kernel)⟩
theorem test_wit_enterQueue_room :
    let s := { queueOf 7 with sb := { (queueOf 7).sb with wait := some wAdd } }
    s.sb.wait = some wAdd ∧ s.tq ≠ [] ∧ s.tq.length < 8 ∧ s.ft.halting = none ∧ s.job.kill = none := by decide +kernel
theorem test_wit_issueChecksStop : issues (queueOf 7) ∧ (checksOf wAdd.toInstr).isSome = true ∧ failing (queueOf 7) { wAdd with aux64 := 2 } ≠ none
    ∧ (∀ e ∈ (queueOf 7).tq, e.seq < (queueOf 7).sb.nextSeq) ∧ (∀ e ∈ (queueOf 7).fl, e.q.seq < (queueOf 7).sb.nextSeq) ∧ ¬ empty (queueOf 7) := by
  refine ⟨by unfold issues; decide +kernel, by decide, by decide +kernel, by decide +kernel, by decide +kernel, by unfold empty; decide +kernel⟩
theorem test_wit_issueChecksStop_lastAddress :
    let s := { vecs 0 with sb := { (vecs 0).sb with pc := 0x7FFE0 } }
    issues s ∧ failing s wAdd = none ∧ ¬ room s := by
  refine ⟨by unfold issues; decide +kernel, none_of (by decide +kernel), by unfold room; decide +kernel⟩

/-! Start: poison, taint, lateness and presence. -/

/-- The line of d2 is poisoned. -/
def psnVecs : State := { vecs 0 with sp := { (vecs 0).sp with poison := [(0x2000, 7)] } }
def taintVecs : State := { vecs 0 with yd := { (vecs 0).yd with taintAny := true } }
theorem test_wit_commit_taint : startsBut taintVecs { wAdd with commit := true } ewOp ∧ taintVecs.yd.taintAny = true :=
  ⟨startsBut_of rfl (by decide +kernel), rfl⟩
theorem test_wit_commit_poison : startsBut psnVecs { wAdd with commit := true } ewOp ∧ psnVecs.yd.taintAny = false ∧ ewOp.ownCommit = false
    ∧ poisonedLines psnVecs { wAdd with commit := true } ewOp ≠ [] := ⟨startsBut_of rfl (by decide +kernel), rfl, rfl, by decide +kernel⟩
theorem test_wit_poisonOk : startsBut psnVecs { wAdd with poisonOk := true } ewOp
    ∧ poisonedLines psnVecs { wAdd with poisonOk := true } ewOp ≠ [] := ⟨startsBut_of rfl (by decide +kernel), by decide +kernel⟩
theorem test_wit_poison : startsBut psnVecs wAdd ewOp ∧ poisonedLines psnVecs wAdd ewOp ≠ [] ∧ psnVecs.sp.decay = []
    ∧ (readyEntry psnVecs wAdd).dst.valid = true ∧ holds (readyEntry psnVecs wAdd).dst ⟨3, 0, 0, 0⟩ 0x1000
    ∧ (psnVecs.getP wAdd.pred.toNat).getLsbD ((readyEntry psnVecs wAdd).dst.lane ⟨3, 0, 0, 0⟩) = true :=
  ⟨startsBut_of rfl (by decide +kernel), by decide +kernel, rfl, by decide +kernel, by unfold holds; decide +kernel, by decide +kernel⟩

/-- The line of the destination is poisoned, and p1 lets only lane 0 of it be written. -/
def dstPsnVecs : State := { vecs 0 with sp := { (vecs 0).sp with poison := [(0x1000, 7)] }, sb := { (vecs 0).sb with p := [(1, 1)] } }
theorem test_wit_poison_partial : startsBut dstPsnVecs { wAdd with pred := 1 } ewOp ∧ dstPsnVecs.psn 0x1000 = true
    ∧ (dstPsnVecs.getP 1).getLsbD ((readyEntry dstPsnVecs wAdd).dst.lane ⟨0, 0, 0, 0⟩) = true
    ∧ (dstPsnVecs.getP 1).getLsbD ((readyEntry dstPsnVecs wAdd).dst.lane ⟨1, 0, 0, 0⟩) = false
    ∧ holds (readyEntry dstPsnVecs wAdd).dst ⟨1, 0, 0, 0⟩ 0x1000 :=
  ⟨startsBut_of rfl (by decide +kernel), by decide +kernel, by decide +kernel, by decide +kernel, by unfold holds; decide +kernel⟩
/-- Whether the destination's line is poisoned after an ADD. -/
def psnAfter (w : InsWord) : Option Bool := match exec w.toInstr dstPsnVecs with | .next t => some (t.psn 0x1000) | _ => none
theorem test_poison_full_write_clears : psnAfter { wAdd with pred := 1 } = some true ∧ psnAfter wAdd = some false
    ∧ psnAfter { wAdd with pred := 1, poisonOk := true } = some false := by decide +kernel

/-- An error that reaches d2's first word between the two passes of a COMMIT. -/
def spoilVecs : State := { vecs 0 with sp := { (vecs 0).sp with spoil := [0x2000] } }
theorem test_wit_commit_dataPass : startsBut spoilVecs { wAdd with commit := true } ewOp ∧ spoilVecs.yd.taintAny = false ∧ (0x10 : Nat) < 0x38
    ∧ poisonedLines spoilVecs { wAdd with commit := true } ewOp = []
    ∧ ((begun spoilVecs { wAdd with commit := true }).spoiltLine (readsOf spoilVecs { wAdd with commit := true } ewOp)).map (fun p => (p.1.role, p.2)) =
      some (1, 0x2000) := ⟨startsBut_of rfl (by decide +kernel), rfl, by decide, by decide +kernel, by decide +kernel⟩

/-- A front of the queue, with the late limit and the grace of the registers. -/
def frontS (q : QEntry) (limit grace : BitVec 24) : State :=
  { vecs 0 with tq := [q], sb := { (vecs 0).sb with nextSeq := 1 }, job := { base.job with lateLimit := limit, grace := grace } }
theorem front_ready (s : State) (q : QEntry) (h : opOf q.w.toInstr = some ewOp)
    (c : (s.tq.head? = some q && q.readyAt.isSome && s.allowed ewOp q && decide ((q.startAt.getD 0).toNat ≤ s.now)) = true) :
    frontReady s q ewOp := by
  simp only [Bool.and_eq_true, decide_eq_true_eq] at c
  exact ⟨c.1.1.1, h, c.1.1.2, c.1.2, c.2⟩
theorem test_wit_start_onTime : let q := negQ (some 4096) [] 0
    frontReady (frontS q 0 0) q ewOp ∧ q.short = [] ∧ (∀ p ∈ ewOp.present q (frontS q 0 0), p.2 ≤ ((frontS q 0 0).window p.1).received.toNat)
      ∧ lateness q = 0 ∧ (frontS q 0 0).scrubWaits ewOp q = false :=
  ⟨front_ready _ _ rfl (by decide +kernel), rfl, by decide +kernel, by decide +kernel, by decide +kernel⟩
theorem test_wit_start_scrub : let q := negQ (some 4096) [] 0
    frontReady (scrubbing (frontS q 0 0)) q ewOp ∧ (scrubbing (frontS q 0 0)).scrubWaits ewOp q = true ∧ lateness q = 0 ∧ (scrubbing (frontS q 0 0)).tq = [q]
      ∧ firstStart ((scrubbing (frontS q 0 0)).commonStart (ewOp.srcs q) (ewOp.outs q) ++ ewOp.startChk q (scrubbing (frontS q 0 0))) = none
      ∧ q.w.tmark = false ∧ q.w.commit = false :=
  ⟨front_ready _ _ rfl (by decide +kernel), by decide +kernel, by decide +kernel, rfl, by decide +kernel, rfl, rfl⟩
theorem test_wit_start_late : let q := negQ (some 4000) [] 0
    frontReady (frontS q 96 0) q ewOp ∧ q.lateLim = none ∧ 0 < lateness q ∧ lateness q ≤ (frontS q 96 0).job.lateLimit.toNat
      ∧ (frontS q 96 0).scrubWaits ewOp q = false :=
  ⟨front_ready _ _ rfl (by decide +kernel), rfl, by decide +kernel, by decide +kernel, by decide +kernel⟩
/-- The limit as it stood when the entry began to wait, 95, whatever the register holds now. -/
theorem test_wit_start_tooLate : let q := { negQ (some 4000) [] 0 with lateLim := some 95 }
    frontReady (frontS q 0 0) q ewOp ∧ 95 < lateness q ∧ mayHalt (frontS q 0 0) :=
  ⟨front_ready _ _ rfl (by decide +kernel), by decide +kernel, by unfold mayHalt; decide +kernel⟩
/-- The windows that are short at `s`. -/
def shortOf (s : State) (q : QEntry) : List (Nat × Nat) := (ewOp.present q s).filter (fun p => (s.window p.1).received.toNat < p.2)
theorem test_wit_presence_short : let q := negQ none [] 0
    frontReady (expects 127 (frontS q 0 1600)) q ewOp ∧ lateness q = 0 ∧ q.short = [] ∧ shortOf (expects 127 (frontS q 0 1600)) q = [(3, 128)]
      ∧ (frontS q 0 1600).job.grace ≠ 0 ∧ frontReady (expects 0 (frontS q 0 0)) q ewOp ∧ mayHalt (expects 0 (frontS q 0 0))
      ∧ shortOf (expects 0 (frontS q 0 0)) q = [(3, 128)] :=
  ⟨front_ready _ _ rfl (by decide +kernel), by decide +kernel, rfl, by decide +kernel, by decide +kernel, front_ready _ _ rfl (by decide +kernel),
    by unfold mayHalt; decide +kernel, by decide +kernel⟩
theorem test_wit_presence_graceRuns : let q := negQ none [3] 1600
    let s := expects 127 (frontS q 0 1600)
    frontReady s q ewOp ∧ q.short ≠ [] ∧ s.now < q.readyTick + q.grace ∧ shortOf s q ≠ []
      ∧ s.graceWaits = [(q.readyTick + q.grace, none)] ∧ mayHalt s ∧ ticking s ∧ q.readyTick + q.grace < 2 ^ 64 - 256
      ∧ (shortOf (s.elapseTo (q.readyTick + q.grace)) q).head? = some (3, 128) :=
  ⟨front_ready _ _ rfl (by decide +kernel), by decide +kernel, by decide +kernel, by decide +kernel, by decide +kernel,
    by unfold mayHalt; decide +kernel, by unfold ticking; decide +kernel, by decide +kernel, by decide +kernel⟩
theorem test_wit_presence_graceMet : let q := negQ none [3] 1600
    let s := expects 128 (frontS q 0 1600)
    frontReady s q ewOp ∧ q.short ≠ [] ∧ s.now < q.readyTick + q.grace ∧ shortOf s q = []
      ∧ s.scrubWaits ewOp { q with short := [] } = false :=
  ⟨front_ready _ _ rfl (by decide +kernel), by decide +kernel, by decide +kernel, by decide +kernel, by decide +kernel⟩

/-! Instructions that compute on the scratchpad. -/

/-- A descriptor of each layout. -/
def layouts : List Desc := [desc 0x1000 0 [5, 3] [8], laid 1 (desc 0x1000 1 [5, 3] [8192]), laid 2 (desc 0x1000 0 [5, 3] [1024]),
  laid 3 (desc 0x1000 1 [5, 3] [1024])].map Desc.ofBits
theorem test_wit_layouts : layouts.map (·.valid) = [true, true, true, true] ∧ layouts.map (·.layout.toNat) = [0, 1, 2, 3] := by decide +kernel
theorem test_wit_elementwise : (vecs 0).memOk = true ∧ apart (readyEntry (vecs 0) wAdd).dst
    ∧ [wAdd, wNeg, wFma, wEq, wExp].map (fun w => w.opc.toNat) = [0x10, 0x11, 0x12, 0x13, 0x18] := by unfold apart; decide +kernel
def wAddI : InsWord := { wAdd with dfmt := 11, sfmt := 11 }
theorem test_wit_integers : startsClean (vecs 11) wAddI ewOp ∧ (vecs 11).memOk = true ∧ apart (readyEntry (vecs 11) wAddI).dst
    ∧ isInt wAddI.sfmt.toNat = true ∧ isInt wAddI.dfmt.toNat = true ∧ intExact 0x10 0 32 5 (-7) 0 = some (-2) :=
  ⟨startsClean_of rfl (by decide +kernel), by decide +kernel, by unfold apart; decide +kernel, by decide, by decide, by decide +kernel⟩
/-- a = 1.0, −0 at the first two elements; b = 2.0, +0. -/
def sumS : State := withB (withB (vecs 0) 0x2000 [0, 0, 0x80, 0x3F, 0, 0, 0, 0x80]) 0x3000 [0, 0, 0, 0x40]
theorem test_wit_floats : startsClean sumS wAdd ewOp ∧ sumS.memOk = true ∧ apart (readyEntry sumS wAdd).dst ∧ wAdd.rnd.toNat ≤ 3
    ∧ sumS.elem (readyEntry sumS wAdd).sa false false ⟨0, 0, 0, 0⟩ = .fin ⟨false, 8388608, -23, false⟩
    ∧ ewOperand sumS (readyEntry sumS wAdd) (ewSb wAdd) (readyEntry sumS wAdd).sb wAdd.imm32 ⟨0, 0, 0, 0⟩ = .fin ⟨false, 8388608, -22, false⟩ :=
  ⟨startsClean_of rfl (by decide +kernel), by decide +kernel, by unfold apart; decide +kernel, by decide, by decide +kernel, by decide +kernel⟩
/-- One FP32 element a and one b, for a result of format `fmt`. -/
def flS (fmt : Nat) (a b : W32) : State :=
  withB (withB (withD base [desc 0x1000 fmt [1], desc 0x2000 0 [1], desc 0x3000 0 [1]]) 0x2000 (leBytes 4 a.toNat)) 0x3000 (leBytes 4 b.toNat)
def flW (fn : Byte) (rnd : BitVec 3) (dfmt : BitVec 4) : InsWord := { wAdd with fn := fn, rnd := rnd, dfmt := dfmt }
/-- The clauses at their edges: an RNE overflow, SR, 3 − 3 under RDN and RNE, −0 − 0, −0 × 2, a product that rounds to −0. -/
theorem test_wit_floats_edges : startsClean (flS 0 0x7F7FFFFF 0x7F7FFFFF) (flW 0 0 0) ewOp ∧ startsClean (flS 1 0x3F800000 0x3B000000) (flW 0 4 1) ewOp
    ∧ startsClean (flS 0 0x40400000 0x40400000) (flW 1 2 0) ewOp ∧ startsClean (flS 0 0x80000000 0) (flW 1 0 0) ewOp
    ∧ startsClean (flS 0 0x80000000 0x40000000) (flW 2 0 0) ewOp ∧ startsClean (flS 2 0x8D800000 0x2B800000) (flW 2 0 2) ewOp :=
  ⟨startsClean_of rfl (by decide +kernel), startsClean_of rfl (by decide +kernel), startsClean_of rfl (by decide +kernel),
    startsClean_of rfl (by decide +kernel), startsClean_of rfl (by decide +kernel), startsClean_of rfl (by decide +kernel)⟩
def isFin : Val → Bool | .fin _ => true | _ => false
theorem test_wit_floats_finite : [flS 0 0x7F7FFFFF 0x7F7FFFFF, flS 1 0x3F800000 0x3B000000, flS 0 0x40400000 0x40400000, flS 0 0x80000000 0,
      flS 0 0x80000000 0x40000000, flS 2 0x8D800000 0x2B800000].map (fun s => let q := readyEntry s wAdd
      isFin (s.elem q.sa false false ⟨0, 0, 0, 0⟩) && isFin (ewOperand s q (ewSb wAdd) q.sb wAdd.imm32 ⟨0, 0, 0, 0⟩)
        && (s.getP wAdd.pred.toNat).getLsbD (q.dst.lane ⟨0, 0, 0, 0⟩) && s.memOk && q.dst.ixs.length = 1) =
      [true, true, true, true, true, true] := by decide +kernel

/-- An MXINT8-like destination of one block with its scale plane d4, and an E4M3 one with its scale byte d4 (03 R111, R113). -/
def sMx : State := withD base [desc 0x1000 5 [32], desc 0x2000 0 [32], 0, desc 0x4000 13 [1]]
def sScl : State := withD base [desc 0x1000 3 [4], desc 0x2000 0 [4], 0, desc 0x4000 13 [1]]
def wCvtMx : InsWord := { word 0x28 0 with dst := 1, sa := 2, sc := 4, dfmt := 5, sat := true }
def wCvtS (pol : Byte) (imm : W32) : InsWord :=
  { word 0x28 (8 + 16 * pol) with dst := 1, sa := 2, sc := 4, dfmt := 3, sat := true, imm32 := imm }
/-- The premises of ConversionWritesElementsAndScales about places. -/
def cvtPlaces (s : State) (w : InsWord) : Bool :=
  let q := readyEntry s w
  s.memOk && q.dst.ixs.all (fun x => q.dst.ixs.all (fun y => decide (x ≠ y → q.dst.bitAddr x + q.dst.w ≤ q.dst.bitAddr y ∨ q.dst.bitAddr y + q.dst.w ≤ q.dst.bitAddr x)))
    && q.dst.ixs.all (fun x => q.sc.ixs.all (fun y => decide (q.sc.bitAddr y + q.sc.w ≤ q.dst.bitAddr x ∨ q.dst.bitAddr x + q.dst.w ≤ q.sc.bitAddr y)))
theorem test_wit_convert_mx : startsClean sMx wCvtMx cvtOp ∧ cvtPlaces sMx wCvtMx = true ∧ isMX (readyEntry sMx wCvtMx).dst.fmt = true
    ∧ apart (readyEntry sMx wCvtMx).sc :=
  ⟨startsClean_of rfl (by decide +kernel), by decide +kernel, by decide +kernel, by unfold apart; decide +kernel⟩
theorem test_wit_convert_scaled : startsClean sScl (wCvtS 0 0) cvtOp ∧ cvtPlaces sScl (wCvtS 0 0) = true ∧ cvtDscl (wCvtS 0 0) = true
    ∧ startsClean sScl (wCvtS 1 0) cvtOp ∧ startsClean sScl (wCvtS 2 0) cvtOp ∧ startsClean sScl (wCvtS 3 254) cvtOp
    ∧ [cvtPol (wCvtS 0 0), cvtPol (wCvtS 1 0), cvtPol (wCvtS 2 0), cvtPol (wCvtS 3 254)] = [0, 1, 2, 3] :=
  ⟨startsClean_of rfl (by decide +kernel), by decide +kernel, by decide, startsClean_of rfl (by decide +kernel),
    startsClean_of rfl (by decide +kernel), startsClean_of rfl (by decide +kernel), by decide⟩
theorem test_wit_convert_plain : sCvt.memOk = true ∧ apart (readyEntry sCvt wCvt).dst ∧ isMX (readyEntry sCvt wCvt).dst.fmt = false
    ∧ cvtDscl wCvt = false := by unfold apart; decide +kernel

/-- T.NORM with the statistics tensor d5, of two columns. -/
def sStats : State := withD base [desc 0x1000 0 [4, 2] [4], desc 0x2000 0 [4, 2] [4], 0, 0, desc 0x5000 0 [2, 2] [2]]
def wStats : InsWord := { wNorm with aux64 := 0x504 }
theorem test_wit_norm_stats : startsClean sStats wStats normOp ∧ normStats wStats = true ∧ normStats wNorm = false
    ∧ apart ((readyEntry sStats wStats).oAux 8 0).d :=
  ⟨startsClean_of rfl (by decide +kernel), by decide, by decide, by unfold apart; decide +kernel⟩
theorem test_wit_reductions : sRed.memOk = true ∧ apart (readyEntry sRed wRed).dst ∧ redKeys (readyEntry sRed wRed).sa (redAxes wRed) ≠ []
    ∧ (∀ k ∈ redKeys (readyEntry sRed wRed).sa (redAxes wRed), (sRed.getP wRed.pred.toNat).getLsbD ((readyEntry sRed wRed).dst.lane k) = true
        ∧ k ∈ (readyEntry sRed wRed).dst.ixs)
    ∧ sDot.memOk = true ∧ apart (readyEntry sDot wDot).dst ∧ (mats 0).memOk = true ∧ apart (readyEntry (mats 0) wSmax).dst := by
  unfold apart; decide +kernel
theorem test_wit_tree : ([1, 2, 3, 4, 5] : List W32) ≠ [] := by decide
theorem test_wit_routing : sTopk.memOk = true ∧ apart (readyEntry sTopk wTopk).dst ∧ topkVal wTopk = false ∧ (vecs 11).memOk = true
    ∧ apart (readyEntry (vecs 11) wHist).dst ∧ histAcc wHist = false ∧ sDisp.memOk = true ∧ apart (readyEntry sDisp wDisp).dst
    ∧ dispCnt wDisp = false ∧ dispPos wDisp = false := by unfold apart; decide +kernel
theorem test_wit_moves : (vecs 0).memOk = true ∧ apart (readyEntry (vecs 0) wCopy).dst ∧ copyDk wCopy = 0
    ∧ copyInPlace (readyEntry (vecs 0) wCopy) = false ∧ sGath.memOk = true ∧ apart (readyEntry sGath wGath).dst
    ∧ sScatAdd.memOk = true ∧ apart (readyEntry sScatAdd wScatAdd).dst ∧ isInt (readyEntry sScatAdd wScatAdd).dst.fmt = true := by
  unfold apart; decide +kernel
/-- TOPK with its values output d5; DISPATCH with its counts d5 and its positions d6. -/
def sTopkV : State := withD base [desc 0x1000 11 [2, 2] [2], desc 0x2000 0 [4, 2] [4], 0, 0, desc 0x5000 0 [2, 2] [2]]
def wTopkV : InsWord := { wTopk with aux64 := 0x45 }
def sDispV : State := withD base [desc 0x1000 11 [2, 2] [2], desc 0x2000 11 [2, 3] [2], 0, 0, desc 0x5000 11 [2, 2] [2], desc 0x6000 11 [2, 3] [2]]
def wDispV : InsWord := { wDisp with aux64 := 0x4645 }
theorem test_wit_routing_outputs : startsClean sTopkV wTopkV topkOp ∧ topkVal wTopkV = true ∧ apart ((readyEntry sTopkV wTopkV).oAux 0 0).d
    ∧ startsClean sDispV wDispV dispOp ∧ dispCnt wDispV = true ∧ dispPos wDispV = true ∧ apart ((readyEntry sDispV wDispV).oAux 0 0).d
    ∧ apart ((readyEntry sDispV wDispV).oAux 8 (dispPosK wDispV)).d :=
  ⟨startsClean_of rfl (by decide +kernel), by decide, by unfold apart; decide +kernel, startsClean_of rfl (by decide +kernel), by decide, by decide,
    by unfold apart; decide +kernel, by unfold apart; decide +kernel⟩
/-- A copy to the A matrix port, and one in place. -/
def sCopyA : State := withD base [laid 2 (desc 0 0 [32, 32] [256]), desc 0x2000 0 [32, 32] [32]]
def wCopyA : InsWord := { wCopy with fn := 0x10 }
def sCopyIn : State := withD base [desc 0x1000 0 [4], desc 0x1000 0 [4]]
def sScatAddF : State := withD base [desc 0x1000 0 [4], desc 0x2000 0 [4], desc 0x3000 11 [4]]
def wScatAddF : InsWord := { wScatAdd with dfmt := 0, sfmt := 0 }
theorem test_wit_moves_more : startsClean sCopyA wCopyA copyOp ∧ copyDk wCopyA ≠ 0 ∧ sCopyA.sp.psnLines = []
    ∧ (sCopyA.port (copyDk wCopyA - 1)).txq = [] ∧ startsClean sCopyIn wCopy copyOp ∧ copyInPlace (readyEntry sCopyIn wCopy) = true
    ∧ startsClean sScatAddF wScatAddF (gsOp scatterAddRun) ∧ isInt (readyEntry sScatAddF wScatAddF).dst.fmt = false
    ∧ apart (readyEntry sScatAddF wScatAddF).dst ∧ apart (readyEntry sCopyIn wCopy).dst :=
  ⟨startsClean_of rfl (by decide +kernel), by decide, rfl, by decide +kernel, startsClean_of rfl (by decide +kernel), by decide +kernel,
    startsClean_of rfl (by decide +kernel), by decide +kernel, by unfold apart; decide +kernel, by unfold apart; decide +kernel⟩
/-- An entry past the end of the table: its index is clamped (T.GATH), or it drops nothing (T.SCAT). -/
theorem test_wit_gather_entries :
    let s := withB sGath 0x3000 [9]
    (s.gsEntries (readyEntry s wGath)).length = 4 ∧ (gsBlock (readyEntry s wGath) ⟨0, [⟨0, 0, 0, 0⟩], [9]⟩) ≠ [] := by decide +kernel

/-- The two shards of d2 are zero; the records hold generation 1 and the CRC-32C of 16 zero bytes; the second record's differs in `bad`. -/
def recS (bad : Byte) : State := withB sGen 0x3000 ([1, 0, 0, 0, 0, 0, 0, 0] ++ leBytes 4 (crc32c (List.replicate 16 0)).toNat ++ [0, 0, 0, 0]
  ++ [1, 0, 0, 0, 0, 0, 0, 0] ++ leBytes 4 (crc32c (List.replicate 16 0)).toNat ++ [bad, 0, 0, 0])
/-- The shards of the records that differ in a field: generation, CRC, poison. -/
def genFails (s : State) (w : InsWord) : List Nat :=
  let q := readyEntry s w
  (List.range (q.sb.n 1)).filter (fun i => s.raw q.sb ⟨3, i, 0, 0⟩ % 2 = 1
    || s.raw q.sb ⟨2, i, 0, 0⟩ ≠ (crc32c (payloadOf q.sa s.sp.mem (shardRows q.sa i))).toNat
    || s.raw q.sb ⟨0, i, 0, 0⟩ + 2 ^ 32 * s.raw q.sb ⟨1, i, 0, 0⟩ ≠ w.aux64.toNat)
theorem test_wit_gen : (recS 0).memOk = true ∧ genFails (recS 0) wCheck = [] ∧ genFails (recS 1) wCheck = [1] := by decide +kernel
theorem test_wit_gen_starts : startsClean (recS 1) wCheck (plainOp (fun q => [q.oSa, q.oSb]) (fun _ => []) checkRun)
    ∧ startsClean (recS 0) wCheck (plainOp (fun q => [q.oSa, q.oSb]) (fun _ => []) checkRun) :=
  ⟨startsClean_of rfl (by decide +kernel), startsClean_of rfl (by decide +kernel)⟩

/-! Express. -/

/-- No element of one shares a bit with an element of the other, as a test. -/
def separateB (a b : Desc) : Bool :=
  a.ixs.all (fun x => b.ixs.all (fun y => decide (a.bitAddr x + a.w ≤ b.bitAddr y ∨ b.bitAddr y + b.w ≤ a.bitAddr x)))
theorem test_wit_merge : sMerge.memOk = true ∧ apart (readyEntry sMerge wMerge).dst
    ∧ separateB (readyEntry sMerge wMerge).dst (readyEntry sMerge wMerge).sa = true
    ∧ separateB (readyEntry sMerge wMerge).dst (readyEntry sMerge wMerge).sb = true ∧ xpSpl wMerge = false ∧ xpFin wMerge = false := by
  unfold apart; decide +kernel
/-- A stream in flight that has one credit out on P2 for its only tile. -/
def inStream : Inflight := { inFlight wStream (.xpr ⟨⟨[0, 0, 0, 0], 0, 127, none, [], [], [], []⟩, ⟨[0, 0, 0, 0], 0, 127, none, [], [], [], []⟩,
  [1, 0, 0, 0], [1, 0, 0, 0], [], [], [], 4096, 400000⟩) with q := { sStream.entry wStream [] with readyAt := some 4096 } }
def tileS : State := { sStream with fl := [inStream] }
theorem test_wit_accTile_discarded :
    let s := { base with xp := { base.xp with discard := [(2, 1)] } }
    (s.port 2).up = true ∧ (List.replicate 1024 (0 : W32)).length = 1024 ∧ 0 < AL.getD s.xp.discard 2 0 ∧ (s.port 5).up = true := by decide +kernel
theorem test_wit_accTile_none : AL.getD base.xp.discard 2 0 = 0 ∧ base.xprInFlight = none := ⟨by decide, none_of (by decide +kernel)⟩
/-- The next tile of P2 is tile 0 of stream 0: header 0 names it; header 2^48 has another tag. -/
theorem test_wit_accTile_refused : tileS.xprInFlight.isSome = true ∧ mayHalt tileS ∧ tileNumber inStream.q (2 ^ 48) = none := by
  unfold mayHalt; decide +kernel
theorem test_wit_accTile_taken : tileNumber inStream.q 0 = some (false, 0) ∧ inStream.q.streams.map (fun x => (x.one, x.kind, chainSmx x.chain)) = [(false, 0, false)]
    ∧ tileS.memOk = true ∧ (∀ x ∈ inStream.q.streams, x.d.ixs.length = 8 ∧ isMX x.d.fmt = false) ∧ xpSpl wStream = false ∧ xpFin wStream = false := by
  decide +kernel

/-- STREAM of kind `kind` to a descriptor, with a chain; its first tile of P2 is granted. -/
def streamF (kind : Byte) (d : BitVec 256) (chain : List W64) : Inflight :=
  { inStream with q := { inStream.q with w := { wStream with fn := 4 * kind, imm32 := 7, aux64 := 0x0100000000000000 }, dst := Desc.ofBits d, chain0 := chain } }
def streamX (f : Inflight) : XStream :=
  ⟨false, bitsOf f.q.w.fn.toNat 2 2, f.q.oDst, f.q.oSa, f.q.oAux 18 4, f.q.w.xs.toNat, f.q.chain0⟩
def streamAt (f : Inflight) : State := { sStream with fl := [f] }
/-- What `expected` and the clauses of AccumulatorTilesArrive ask besides the kind: SMX or not, places, the port's queue. -/
def streamMeets (f : Inflight) : Bool :=
  let s := streamAt f
  decide (AL.getD s.xp.discard 2 0 = 0) && decide (s.xprInFlight = some f) && decide (tileNumber f.q 0 = some (false, 0))
    && s.sp.psnLines.isEmpty && s.xp.rowPsn.isEmpty && s.memOk && (s.port 0).txq.isEmpty && (s.port 1).txq.isEmpty
def stC0 : W64 := 0x8400000000000000
def smxC0 : W64 := 0x8000000000000000
def netD : BitVec 256 := desc 0x300B00000000 0 [4, 2] [4]
theorem stream_only (f : Inflight) (a : xpMerge f.q.w = false) (b : xpS1 f.q.w = false) : f.q.streams = [streamX f] := by
  unfold QEntry.streams
  simp [a, b, streamX, QEntry.oDst, QEntry.oSa]
theorem test_wit_accTile_expected : [streamF 0 (desc 0x1000 0 [4, 2] [4]) [stC0], streamF 1 (laid 2 (desc 0 0 [4, 2] [1024])) [stC0], streamF 3 netD [stC0],
      streamF 0 (desc 0x1000 0 [4, 2] [4]) [smxC0, stC0], streamF 0 (desc 0x1000 0 [64, 2] [64]) [smxC0, stC0]].map streamMeets =
        [true, true, true, true, true]
    ∧ (streamF 0 netD []).prog = .xpr ⟨⟨[0, 0, 0, 0], 0, 127, none, [], [], [], []⟩, ⟨[0, 0, 0, 0], 0, 127, none, [], [], [], []⟩, [1, 0, 0, 0], [1, 0, 0, 0], [], [], [], 4096, 400000⟩
    ∧ [(0 : Byte), 1, 2, 3].map (fun k => (streamX (streamF k netD [])).kind) = [0, 1, 2, 3]
    ∧ [(0 : Byte), 1, 2, 3].map (fun k => (xpMerge (streamF k netD []).q.w, xpS1 (streamF k netD []).q.w)) =
      [(false, false), (false, false), (false, false), (false, false)] := by decide +kernel
theorem test_wit_accTile_matrix : let x := streamX (streamF 1 (laid 2 (desc 0 0 [4, 2] [1024])) [stC0])
    chainSmx x.chain = false ∧ x.d.least.valid = true ∧ apart x.d.least := by unfold apart; decide +kernel
theorem test_wit_accTile_net : let x := streamX (streamF 3 netD [stC0])
    chainSmx x.chain = false ∧ apart x.d ∧ x.d.valid = true ∧ x.d.hi ≤ 2 ^ 48 ∧ x.d.w % 8 = 0 := by unfold apart; decide +kernel
/-- A port where the trigger of an earlier tile waits behind its line. -/
theorem test_wit_accTile_net_queued : let s := streamAt (streamF 3 netD [stC0])
    triggersQueued s 23 = 0 ∧ triggersQueued { s with ports := AL.put s.ports 23 { upPort 23 with txCred := 0, txq :=
      [⟨.rwrite ⟨0, 0, 8, false, 0, 0, 0⟩ [5], some 0, .spad, none⟩, ⟨.trigger 1 0, some 0, .spad, none⟩] } } 23 = 1 := by decide +kernel
/-- A row group of one tile, which is whole at once, and one of two tiles, which waits. -/
theorem test_wit_accTile_smx : let f := streamF 0 (desc 0x1000 0 [4, 2] [4]) [smxC0, stC0]
    let x := streamX f
    chainSmx x.chain = true ∧ x.cols = 1 ∧ expressApart f.q x ∧ (streamX (streamF 0 (desc 0x1000 0 [64, 2] [64]) [smxC0, stC0])).cols = 2
      ∧ 0 < ((streamF 0 (desc 0x1000 0 [64, 2] [64]) [smxC0, stC0]).q.streams.map XStream.tiles).sum := by
  unfold expressApart expressFits apart separate; decide +kernel

/-! Transfers. -/

def wXferNet : InsWord := { wXfer with imm32 := 1 }
/-- To chip 9, the peer; and to chip 11 over P22. -/
def sPeer : State := withD base [desc 0x300900000000 0 [64], desc 0x2000 0 [64]]
def sNet : State := withD base [desc 0x300B00000000 0 [64], desc 0x2000 0 [64]]
theorem test_wit_transfers_remote : startsClean sPeer wXfer moveOp ∧ sPeer.peerDst (readyEntry sPeer wXfer).dst = true
    ∧ startsClean sNet wXferNet moveOp ∧ sNet.peerDst (readyEntry sNet wXferNet).dst = false ∧ xferMask wXferNet = [0] :=
  ⟨startsClean_of rfl (by decide +kernel), by decide +kernel, startsClean_of rfl (by decide +kernel), by decide +kernel, by decide⟩
theorem test_wit_transfers_from : (readyEntry sOut wXfer).sa.inSpad = true ∧ (readyEntry sIn wReld).sa.inSpad = false
    ∧ (readyEntry sPeer wXfer).sa.inSpad = true := by decide +kernel

/-- A T.RELD of two lines in flight: line 0 of package memory is asked for on P6 with token 3. -/
def readS (need : List Nat) (got : AL (List Byte)) : State := { sIn with
  fl := [{ inFlight wReld (.dma ⟨need, got, []⟩) with q := { sIn.entry wReld [] with readyAt := some 4096 } }]
  reqs := [⟨some 0, true, 6, .read 3 0x100000000000 .spad, 4096, 8000⟩, ⟨none, true, 6, .ack 4, 4096, 8000⟩] }
theorem test_wit_mresp_unasked : (∀ r, ¬ answered base 6 3 false r) ∧ portClass 6 = .mem ∧ (base.port 6).up = true :=
  ⟨fun r h => by obtain ⟨_, _, _, h, _⟩ := h; exact absurd h (by simp [show base.reqs = [] from rfl]), by decide, by decide +kernel⟩
theorem test_wit_mresp_ack : let s := readS [0x100000000000] []
    answered s 6 4 true ⟨none, true, 6, .ack 4, 4096, 8000⟩ :=
  ⟨⟨rfl, by simp⟩, [⟨some 0, true, 6, .read 3 0x100000000000 .spad, 4096, 8000⟩], [], rfl, by simp⟩
theorem test_wit_mresp_read : let s := readS [0x100000000000, 0x100000000080] []
    answered s 6 3 false ⟨some 0, true, 6, .read 3 0x100000000000 .spad, 4096, 8000⟩
      ∧ (s.fl.map (fun f => some f.q.seq)) = [some 0] ∧ ([0x100000000000, 0x100000000080] : List Nat).filter (· ≠ 0x100000000000) ≠ [] :=
  ⟨⟨⟨rfl, 0x100000000000, .spad, rfl⟩, [], _, rfl, by simp⟩, by decide +kernel, by decide⟩
/-- The last line of the read, the other one kept. -/
theorem test_wit_mresp_last : let s := readS [0x100000000000] [(0x100000000080, List.replicate 128 7)]
    ([0x100000000000] : List Nat).filter (· ≠ 0x100000000000) = [] ∧ s.memOk = true
      ∧ ((AL.put [(0x100000000080, List.replicate 128 (7 : Byte))] 0x100000000000 (List.replicate 128 (1 : Byte))).map (·.1)).Nodup
      ∧ (∀ e ∈ AL.put [(0x100000000080, List.replicate 128 (7 : Byte))] 0x100000000000 (List.replicate 128 (1 : Byte)), e.1 % 128 = 0 ∧ e.2.length = 128) := by
  decide +kernel
theorem test_wit_mresp_apart : apart (readyEntry sIn wReld).dst := by unfold apart; decide +kernel
/-- A line read to be merged, and a reload whose record, in d3, says poisoned. -/
def mergeS : State := { sOut with fl := [{ inFlight wXfer .idle with q := { sOut.entry wXfer [] with readyAt := some 4096 } }]
                                  reqs := [⟨some 0, true, 6, .read 3 0x100000000000 (.merge [some 1, none] false), 4096, 8000⟩] }
theorem test_wit_mresp_merge : answered mergeS 6 3 false ⟨some 0, true, 6, .read 3 0x100000000000 (.merge [some 1, none] false), 4096, 8000⟩
    ∧ (mergeS.fl.find? (fun f => some f.q.seq = some 0)).isSome = true :=
  ⟨⟨⟨rfl, 0x100000000000, _, rfl⟩, [], [], rfl, by simp⟩, by decide +kernel⟩
def reldF : Inflight := { inFlight { wReld with fn := 3, sb := 3 } (.dma ⟨[0x100000000000], [(0x100000000080, List.replicate 128 7)], []⟩) with
  q := { sIn.entry { wReld with fn := 3, sb := 3 } [] with readyAt := some 4096, sb := Desc.ofBits (desc 0x3000 11 [4, 1] [4]) } }
theorem test_wit_mresp_reload : reldF.q.w.toInstr = .reld reldF.q.w ∧ reldF.q.w.fn = 3 ∧ reldF.q.dst.valid = true ∧ reldF.q.dst.baseOk = true
    ∧ (withB sIn 0x300C [1]).raw reldF.q.sb ⟨3, 0, 0, 0⟩ % 2 = 1 := ⟨rfl, rfl, by decide +kernel⟩
theorem test_wit_mresp_unsound : ¬ ((⟨0, 3, true, false, false, 1⟩ : MrespHdr).resHi = 0 ∧ (⟨0, 3, true, false, false, 1⟩ : MrespHdr).resLo = 0) := by decide

/-! Windows, remote writes, answers. -/

def win3 (x : Window) : State := { base with wins := [(3, x)] }
/-- OPEN since tick 4,000 for chips 8 to 12, four lines at 0x4000. -/
def openW : Window := { Window.init with openTs := 4000, sndLo := 8, sndHi := 12, linesM1 := 3, base := 0x4000, drain := 1600 }
theorem test_wit_window_states : winOpenAt openW 4096 ∧ ¬ winOpenAt Window.init 4096 ∧ winClosedAt Window.init 4096
    ∧ ¬ winClosedAt { openW with closeTs := 4096 } 4096 ∧ winClosedAt { openW with closeTs := 2496 } 4096
    ∧ ¬ winOpenAt { openW with closeTs := 4096 } 4096 := by unfold winOpenAt winClosedAt; decide +kernel
theorem test_wit_window_start : startsClean (win3 openW) wClose closeOp ∧ startsClean (win3 { openW with closeTs := 4000 }) wWaitcl waitclOp :=
  ⟨startsClean_of rfl (by decide +kernel), startsClean_of rfl (by decide +kernel)⟩
/-- A WAITCL of window 3 in flight. -/
def closingS : State := { win3 { openW with closeTs := 5000 } with fl := [inFlight wWaitcl (.waitcl 3)] }
theorem test_wit_window_ticks : ticking closingS ∧ (closingS.window 3).openTs ≠ none64 ∧ (closingS.window 3).closeTs ≠ none64
    ∧ (closingS.window 3).closeTs.toNat + (closingS.window 3).drain.toNat < 2 ^ 64 - 512 ∧ closingS.quiet 0 = true ∧ noneWaits closingS
    ∧ (∀ f, (win3 { openW with closeTs := 5000 }).fl.head? = some f → f.prog ≠ .waitcl 3) :=
  ⟨by unfold ticking; decide, by decide +kernel, by decide +kernel, by decide +kernel, by decide +kernel, by unfold noneWaits; decide +kernel,
    fun f h => by cases h⟩

/-- The code of R432 as a number. -/
def codeOf (x : Window) (st snd off n now : Nat) (psn : Bool) : Nat :=
  if x.openTs = none64 ∨ precedes40 st (x.openTs.toNat % 2 ^ 40) ∨ (x.closeTs ≠ none64 ∧ ¬ precedes40 st (x.closeTs.toNat % 2 ^ 40)) then 1
  else if x.closeTs ≠ none64 ∧ x.closeTs.toNat + x.drain.toNat ≤ now then 4
  else if snd < x.sndLo.toNat ∨ x.sndHi.toNat < snd then 3
  else if off % 4 ≠ 0 ∨ 128 < off % 128 + n ∨ 128 * (x.linesM1.toNat + 1) < off + n then 2
  else if psn = true ∧ x.psnOk = false then 5 else 0
theorem acceptCode_codeOf (x : Window) (st snd off n now : Nat) (psn : Bool) :
    acceptCode x st snd off n now psn (codeOf x st snd off n now psn) := by
  unfold acceptCode codeOf; split_ifs <;> rfl
/-- Each code at the bounds of its test: the open and close stamps, the drain's end, the sender range, a line's end, the region's end. -/
theorem test_wit_rwrite_codes :
    [codeOf openW 4000 8 0 128 4096 false, codeOf openW 4000 12 384 128 4096 false, codeOf openW 3999 8 0 128 4096 false,
      codeOf Window.init 4000 8 0 128 4096 false, codeOf { openW with closeTs := 4050 } 4050 8 0 4 4096 false,
      codeOf { openW with closeTs := 4050 } 4049 8 0 4 4096 false, codeOf { openW with openTs := 2000, closeTs := 2496 } 2495 8 0 4 4096 false,
      codeOf openW 4000 7 0 4 4096 false, codeOf openW 4000 13 0 4 4096 false, codeOf openW 4000 8 2 4 4096 false,
      codeOf openW 4000 8 124 8 4096 false, codeOf openW 4000 8 512 4 4096 false, codeOf openW 4000 8 508 4 4096 true,
      codeOf { openW with psnOk := true } 4000 8 508 4 4096 true] = [0, 0, 1, 1, 1, 0, 4, 3, 3, 2, 2, 2, 5, 0] := by
  decide +kernel
theorem test_wit_rwrite : let h : RwHdr := ⟨0, 4000, 8, false, 31, 0, 0x300818000000⟩
    portClass 22 = .net ∧ portClass 30 = .peer ∧ ((win3 openW).port 22).up = true ∧ 1 ≤ ((win3 openW).port 22).rxOut
      ∧ (List.replicate 32 (5 : W32)).length = h.lenM1.toNat + 1 ∧ (win3 openW).tq = [] ∧ h.resHi = 0 ∧ h.resLo = 0
      ∧ h.addr.toNat / 2 ^ 32 % 2 ^ 12 = (win3 openW).job.chipId.toNat ∧ h.addr.toNat / 2 ^ 27 % 32 = 3
      ∧ (win3 openW).memOk = true ∧ (∀ e ∈ (win3 openW).sp.decay, lineOf e.1 ≠ lineOf 0x4000)
      ∧ ({ win3 openW with xf := { (win3 openW).xf with nack1Iv := 0, nack1Cnt := 64 } } : State).xf.nack1Iv = (win3 openW).now / 65536 := by
  decide +kernel

theorem atRest_of {s : State} (c : (firstDue limitActs s).isNone && (firstDue arriveActs s).isNone) : atRest s := by
  rw [Bool.and_eq_true, Option.isNone_iff_eq_none, Option.isNone_iff_eq_none] at c
  exact c
theorem test_wit_rwrite_atRest : attends (win3 openW) ∧ atRest (win3 openW) ∧ atRest (scrubbing (win3 openW))
    ∧ atRest { win3 openW with fl := [inFlight wCheckWin (.presence [(3, 128)] 4096 1600)] } :=
  ⟨by unfold attends; decide +kernel, atRest_of (by decide +kernel), atRest_of (by decide +kernel), atRest_of (by decide +kernel)⟩
/-- Into a line that a running scrub has not reached; with a window check that waits for the bytes. -/
theorem test_wit_rwrite_waits : (scrubbing (win3 openW)).scrubRange 0x4000 0x4080 = true ∧ (win3 openW).scrubRange 0x4000 0x4080 = false
    ∧ (openW.base.toNat % 128 = 0) ∧ (inFlight wCheckWin (.presence [(3, 128)] 4096 1600)).prog = .presence [(3, 128)] 4096 1600 := by decide +kernel

/-- A T.XFER in flight with a write outstanding at P22 to window 3 of chip 11, sent with stamp 4,000. -/
def sentS : State := { base with fl := [inFlight wXferNet .idle], reqs := [⟨some 0, true, 22, .write 3 11 4000 true, 4096, 80000⟩] }
/-- The answer with a code. -/
def answerW (code : Nat) : W64 := BitVec.ofNat 64 (code * 2 ^ 61 + 3 * 2 ^ 56 + 11 * 2 ^ 44 + 4000)
theorem test_wit_answer : answersReq sentS 22 (answerW 5) ⟨some 0, true, 22, .write 3 11 4000 true, 4096, 80000⟩ ∧ (answerW 5).toNat / 2 ^ 61 = 5
    ∧ answersReq sentS 22 (answerW 0) ⟨some 0, true, 22, .write 3 11 4000 true, 4096, 80000⟩ ∧ (answerW 0).toNat / 2 ^ 61 = 0
    ∧ sentS.xf.nacks.length = 5 ∧ mayHalt sentS ∧ (sentS.fl.find? (fun f => some f.q.seq = some 0 && f.q.w.opc = 0x48)).isSome = true :=
  ⟨⟨by constructor <;> decide +kernel, [], [], rfl, by simp⟩, by decide +kernel, ⟨by constructor <;> decide +kernel, [], [], rfl, by simp⟩,
    by decide +kernel, by decide, by unfold mayHalt; decide +kernel, by decide +kernel⟩
theorem test_wit_answer_none : 5 < (answerW 6).toNat / 2 ^ 61 ∧ ∀ r, ¬ answersReq base 22 (answerW 0) r := by
  refine ⟨by decide +kernel, fun r h => ?_⟩
  obtain ⟨_, _, _, h, _⟩ := h
  exact absurd h (by simp [show base.reqs = [] from rfl])
theorem test_wit_answer_kill : let s := { sentS with job := { sentS.job with kill := some [0] } }
    let r : Req := ⟨some 0, true, 22, .write 3 11 4000 true, 4096, 80000⟩
    s.job.kill.isSome = true ∧ abandonedBy s r ∧ ¬ abandonedBy s { r with owner := some 1 } := by
  refine ⟨rfl, ⟨[0], 0, rfl, rfl, by decide⟩, ?_⟩
  rintro ⟨l, n, h, k, m⟩
  cases h; cases k; simp at m
theorem test_wit_answer_nackHalt : sentS.xf.nackHalt = false
    ∧ ({ sentS with xf := { sentS.xf with nackHalt := true } } : State).xf.nackHalt = true := by decide +kernel
theorem test_wit_answer_xfer : ofXfer ⟨some 0, true, 22, .write 3 11 4000 true, 4096, 80000⟩ ∧ ¬ ofXfer ⟨some 0, true, 22, .write 3 11 4000 false, 4096, 80000⟩ :=
  ⟨⟨3, 11, 4000, rfl⟩, by rintro ⟨a, b, c, h⟩; cases h⟩

/-! The yard. -/

theorem test_wit_yard_slots : yardCalm sClaim ∧ yardCalm sYard ∧ (sClaim.slot 5).claimed = false ∧ (sYard.slot 5).claimed = true
    ∧ sYard.sp.suspects = [] ∧ sYard.yardFrames = 1 ∧ sYard.trigPort.isSome = true ∧ sYard.yd.trigs = [] := by
  unfold yardCalm heldBack; decide +kernel
theorem test_wit_yard_onTime : onTime sClaim ∧ onTime sYard := ⟨none_of (by decide +kernel), none_of (by decide +kernel)⟩
def claimedS : State := { sClaim with yd := { sClaim.yd with slots := [(5, slot5)] } }
theorem test_wit_claim_waits : startsClean claimedS wClaim claimOp ∧ (claimedS.slot 5).claimed = true :=
  ⟨startsClean_of rfl (by decide +kernel), rfl⟩
/-- The CRC-32C of slot 5's root, and slot 5 with a complete chunk 0 of that root whose kept CRC is `crc`. -/
def rootCrc : W32 := crc32c (bytesOf (rootWords sYard 5 0))
def doneS (crc : W32) : State := { sYard with yd := { sYard.yd with slots :=
  [(5, { slot5 with frames := [⟨0, [⟨0, 2, false⟩], some crc, 4000, false, []⟩] })] } }
theorem test_wit_release : (frameAt (doneS 0) 5 0).corrupt = false ∧ ¬ sound (doneS (rootCrc + 1)) 5 0 ∧ sound (doneS rootCrc) 5 0 := by
  refine ⟨rfl, fun h => ?_, fun c h => Option.some.inj h⟩
  have : rootCrc = rootCrc + 1 := h _ rfl
  exact absurd (BitVec.self_eq_add_right.mp this) (by decide)
/-- A chunk of collective 7 for slot 5 from chip 9, position 1. -/
def hdr9 : ChunkHdr := ⟨0, 5, 1, 0, false, 0, 7, 9, 4000, 0, 0⟩
def pay : List Byte := List.replicate 4096 0
/-- The code of R463 as a number. -/
def refuseOf (s : State) (h : ChunkHdr) : Nat :=
  let sl := s.slot h.slot.toNat
  let m := h.mlo.toNat
  let span := 2 ^ h.lvl.toNat
  let fr := sl.frame (h.chunk.toNat % s.yardFrames)
  if s.yardSlots ≤ h.slot.toNat ∨ sl.claimed = false ∨ h.coll ≠ sl.coll then 1
  else if h.wfmt ≠ sl.wfmt ∨ sl.nchM1.toNat < h.chunk.toNat ∨ 4 < h.lvl.toNat ∨ m % span ≠ 0 ∨ sl.n < m + span then 2
  else if sl.table.getD m 0 ≠ h.sender ∨ h.chunk.toNat < fr.index ∨
    ∃ z ∈ fr.nodes, 0 < z.span ∧ z.mlo < m + span ∧ m < z.mlo + z.span then 3 else 0
theorem refuses_refuseOf (s : State) (h : ChunkHdr) : refuses s h (refuseOf s h) := by
  unfold refuses refuseOf
  extract_lets sl m span fr bad1 bad2 bad3
  split_ifs with a b c
  · exact .inl ⟨rfl, a⟩
  · exact .inr (.inl ⟨rfl, a, b⟩)
  · exact .inr (.inr (.inl ⟨rfl, a, b, c⟩))
  · exact .inr (.inr (.inr ⟨rfl, a, b, c⟩))
theorem test_wit_chunk_judged : [refuseOf sYard hdr9, refuseOf sYard { hdr9 with coll := 8 }, refuseOf sYard { hdr9 with slot := 255 },
    refuseOf sYard { hdr9 with lvl := 1 }, refuseOf sYard { hdr9 with sender := 8 }] = [0, 1, 1, 2, 3] := by decide +kernel
theorem test_wit_chunk_held : let s := { sYard with yd := { sYard.yd with slots := [(5, { slot5 with nchM1 := 1 })] } }
    heldBack s { hdr9 with chunk := 1 } ∧ ¬ heldBack s hdr9 ∧ ¬ heldBack sYard hdr9 := by unfold heldBack; decide +kernel
theorem chunkHdrBits_div (h : ChunkHdr) : (chunkHdrBits h).toNat / 256 / 256 / 256 / 256 = (chunkHdrBits { h with crc := 0 }).toNat / 2 ^ 32 := by
  have e : ∀ (n : Nat) (x : BitVec n) (c : W32), (x ++ c).toNat / 256 / 256 / 256 / 256 = x.toNat ∧ (x ++ c).toNat / 2 ^ 32 = x.toNat := by
    intro n x c
    have := c.isLt
    rw [BitVec.toNat_append, ← Nat.shiftLeft_add_eq_or_of_lt this, Nat.shiftLeft_eq]
    omega
  unfold chunkHdrBits
  rw [(e _ _ h.crc).1, (e _ _ 0).2]
theorem chunkHdrCrc_keeps (h : ChunkHdr) (p : List Byte) (c : W32) : chunkHdrCrc { h with crc := c } p = chunkHdrCrc h p := by
  have d : ∀ v, (leBytes 32 v).drop 4 = leBytes 28 (v / 256 / 256 / 256 / 256) := fun _ => rfl
  unfold chunkHdrCrc
  rw [d, d, chunkHdrBits_div, chunkHdrBits_div h]
theorem test_wit_chunk_crc (p : List Byte) :
    crcHolds { hdr9 with crc := chunkHdrCrc hdr9 p } p ∧ ¬ crcHolds { hdr9 with crc := chunkHdrCrc hdr9 p + 1 } p := by
  constructor
  · exact (chunkHdrCrc_keeps _ _ _).symm
  · intro h
    have : chunkHdrCrc hdr9 p + 1 = chunkHdrCrc hdr9 p := h.trans (chunkHdrCrc_keeps _ _ _)
    have := congrArg (· - chunkHdrCrc hdr9 p) this
    simp at this
theorem test_wit_chunk_atRest : attends sYard ∧ atRest sYard ∧ sYard.scrubChunk hdr9 = false ∧ (scrubbing sYard).scrubChunk hdr9 = false
    ∧ ({ sYard with sp := { sYard.sp with scrubRun := true, scrubWm := 0, scrubOn := List.range 256 } } : State).scrubChunk hdr9 = true :=
  ⟨by unfold attends; decide +kernel, atRest_of (by decide +kernel), by decide +kernel⟩
/-- A chunk from a port, held for slot 5 as it is released; one for another slot. -/
theorem test_wit_release_held : let s := { sYard with yd := { sYard.yd with slots := [(5, { slot5 with nchM1 := 1 })], held := [⟨none, 22, { hdr9 with chunk := 1 }, pay, 4096, 20000⟩] } }
    yardCalm s ∧ onTime s ∧ (s.port 22).up = true ∧ ({ hdr9 with chunk := 1 } : ChunkHdr).slot = wRelease.ys
      ∧ ({ hdr9 with chunk := 1 } : ChunkHdr).slot ≠ ({ wCollect with ys := 6 } : InsWord).ys := by
  refine ⟨fun x h => ?_, none_of (by decide +kernel), by decide +kernel, rfl, by decide⟩
  rw [List.mem_singleton] at h
  subst h
  unfold heldBack; decide +kernel
theorem test_wit_chunk : portClass 22 = .net ∧ sYard.fl = [] ∧ (sYard.port 22).up = true ∧ sYard.yd.held = []
    ∧ (({ sYard with ports := AL.put sYard.ports 22 { upPort 22 with rxOut := 33 } } : State).port 22).rxOut = 33
    ∧ sYard.memOk = true ∧ 0 < (sYard.slot 5).frames.length := by decide +kernel
theorem test_wit_chunk_length : pay.length = 4096 ∧ (List.replicate 2048 (0 : Byte)).length = 2048 ∧ cdiv (32 + pay.length) 128 ≤ 33 := by
  have h : pay.length = 4096 := List.length_replicate
  exact ⟨h, List.length_replicate, by rw [h]; decide⟩
/-- Position 0 is there: position 1 completes the pair. -/
theorem test_wit_chunk_joins : findJoin 2 [(⟨0, 1, false⟩ : YNode), ⟨1, 1, false⟩] = some (⟨0, 1, false⟩, ⟨1, 1, false⟩)
    ∧ findJoin 2 [(⟨1, 1, false⟩ : YNode)] = none := by decide +kernel
theorem test_wit_chunk_release :
    let s := { sYard with yd := { sYard.yd with held := [⟨none, 22, hdr9, pay, 4000, 97⟩] } }
    s.yd.held = [⟨none, 22, hdr9, pay, 4000, 97⟩] ∧ s.now < (4000 : W64).toNat + 97 ∧ (4000 : W64).toNat + 96 ≤ s.now :=
  ⟨rfl, by decide +kernel, by decide +kernel⟩

/-- CONTRIB to chip 8 itself, COLLECT and FWD of a chunk that is there. -/
def wContribOwn : InsWord := { wContrib with imm32 := 0x70008 }
def wholeS : State := doneS rootCrc
theorem test_wit_yardChunks_own : startsClean sYard wContribOwn contribOp ∧ wContribOwn.imm32.toNat % 2 ^ 12 = sYard.job.chipId.toNat
    ∧ (readyEntry sYard wContribOwn).sa.count ≤ 1024 ∧ wContrib.imm32.toNat % 2 ^ 12 ≠ sYard.job.chipId.toNat :=
  ⟨startsClean_of rfl (by decide +kernel), by decide +kernel, by decide +kernel, by decide +kernel⟩
theorem test_wit_yardChunks_whole : startsClean wholeS wCollect collectOp ∧ startsClean wholeS wFwd fwdOp ∧ wholeS.sp.suspects = []
    ∧ wholeS.sp.psnLines = [] ∧ 1 ≤ wholeS.yd.waitTicks.toNat ∧ (readyEntry wholeS wCollect).dst.inSpad = true ∧ wholeS.memOk = true
    ∧ apart (readyEntry wholeS wCollect).dst :=
  ⟨startsClean_of rfl (by decide +kernel), startsClean_of rfl (by decide +kernel), by decide +kernel, by decide +kernel, by decide +kernel,
    by decide +kernel, by decide +kernel, by unfold apart; decide +kernel⟩
/-- The same with COMMIT, where an error reaches a word of the root's second line. -/
def lateRootS : State := { wholeS with sp := { wholeS.sp with spoil := [wholeS.leafAddr 5 0 0 + 136] } }
theorem test_wit_yardChunks_late : startsClean lateRootS { wCollect with commit := true } collectOp
    ∧ startsClean lateRootS { wFwd with commit := true } fwdOp ∧ lateRootS.sp.suspects = [] ∧ lateRootS.sp.psnLines = []
    ∧ (areaLines (lateRootS.leafAddr 5 0 0)).filter (fun l => decide (lineOf (lateRootS.leafAddr 5 0 0 + 136) = l)) = [lateRootS.leafAddr 5 0 0 + 128] :=
  ⟨startsClean_of rfl (by decide +kernel), startsClean_of rfl (by decide +kernel), by decide +kernel, by decide +kernel, by decide +kernel⟩
theorem test_wit_yardChunks_absent : (frameAt sYard 5 0).crc = none := by decide +kernel

/-! Triggers, barriers, completion, power groups. -/

def trigItem (since : W64) (limit : Nat) : TrigItem := ⟨some 0, 7, 99, since, limit⟩
def trigS (since : W64) (limit : Nat) : State :=
  { base with fl := [inFlight wPost .idle], yd := { base.yd with trigs := [trigItem since limit] } }
theorem test_wit_triggers : base.trigPort = some 22 ∧ base.yd.trigs = [] ∧ (trigS 4000 97).yd.trigs = trigItem 4000 97 :: []
    ∧ (trigS 4000 97).now < (trigItem 4000 97).since.toNat + 97 ∧ (trigItem 4000 96).since.toNat + 96 ≤ (trigS 4000 96).now
    ∧ mayHalt (trigS 4000 96) ∧ ((trigS 4000 96).port 33).txq = []
    ∧ (trigS 4000 96).fl.find? (fun f => some f.q.seq = (trigItem 4000 96).owner) = some (inFlight wPost .idle) := by
  unfold mayHalt; decide +kernel
theorem test_wit_trigger_noPort : ({ base with ports := [] } : State).trigPort = none := by decide +kernel
theorem test_wit_wait : reaches 0 0 ∧ reaches 0x7FFFFFFF 0 ∧ ¬ reaches 0x80000000 0 ∧ ¬ reaches 0 1 := by unfold reaches; decide +kernel
theorem test_wit_event : ({ base with fl := [inFlight wWait (.trigWait 2 1 4096 80000)] } : State).waitDue = none
    ∧ ({ base with fl := [inFlight wWait (.trigWait 2 1 4096 80000)] } : State).trigPort = some 22 ∧ (⟨2, 7, false, true, 0, 1⟩ : EventBody).res = 0 :=
  ⟨none_of (by decide +kernel), by decide +kernel, rfl⟩
/-- A barrier whose tick is the current one, or 96 ticks past. -/
def barrierS (epoch : W64) (limit : BitVec 24) : State :=
  { base with sb := { base.sb with epoch := epoch }, job := { base.job with lateLimit := limit } }
theorem test_wit_barrier : startsClean (barrierS 4096 0) { wBarrier with aux64 := 0 } barrierOp
    ∧ startsClean (barrierS 4000 96) { wBarrier with aux64 := 0 } barrierOp ∧ startsClean (barrierS 4000 95) { wBarrier with aux64 := 0 } barrierOp
    ∧ base.now < (base.sb.epoch + (wBarrier.aux64.extractLsb' 0 40).setWidth 64).toNat ∧ (barrierS 4096 0).now = 4096 ∧ base.now - 4000 = 96 :=
  ⟨startsClean_of rfl (by decide +kernel), startsClean_of rfl (by decide +kernel), startsClean_of rfl (by decide +kernel),
    by decide +kernel, by decide +kernel, by decide +kernel⟩
/-- A T.CVT that is done with an amax to append, one that read poison, a T.OFFL with its record. -/
def doneF (w : InsWord) (poison : Bool) (p : Prog) : Inflight := { inFlight w p with readPoison := poison, amax := [(1023, 0x3F800000)] }
def recordS : State := { sGen with fl := [{ inFlight { wOffl with fn := 2 } (.offl 5 true) with
  q := { sGen.entry { wOffl with fn := 2, sb := 3 } [] with readyAt := some 4096, sb := Desc.ofBits (desc 0x3000 11 [4, 1] [4]) } }] }
theorem test_wit_completion : ({ base with fl := [doneF wCvt false .idle] } : State).instDone (doneF wCvt false .idle) = true
    ∧ base.instDone (inFlight wWaitcl (.waitcl 3)) = true ∧ closingS.instDone (inFlight wWaitcl (.waitcl 3)) = false ∧ noneWaits base
    ∧ (doneF wCvt false .idle).amax = [(1023, 0x3F800000)] ∧ (doneF wCvt true .idle).readPoison = true := by
  unfold noneWaits; decide +kernel
theorem test_wit_completion_apart : endsApart (doneF wCvt false .idle) [] ∧ endsApart (inFlight wBarrier (.untilTick 5000)) [inFlight wMark .idle]
    ∧ ¬ endsApart (doneF wAdd false .idle) [inFlight wAdd .idle] := by
  unfold endsApart; decide +kernel
theorem test_wit_completion_record : recordS.memOk = true ∧ recordS.fl.length = 1 ∧ recordS.fl.all (fun f => recOk f.q.sb && recordS.instDone f) = true
    ∧ recordS.fl.all (fun f => f.q.sb.ixs.length = 4) = true := by decide +kernel
theorem test_wit_completion_fence : let s := { busy with sb := { busy.sb with wait := some (word 0 1) } }
    s.fl = inFlight wMark .idle :: [] ∧ s.instDone (inFlight wMark .idle) = true ∧ s.tq = [] ∧ s.ft.halting = none ∧ s.job.kill = none
      ∧ s.sb.wait = some (word 0 1) ∧ room s := by unfold room; decide +kernel
theorem test_wit_waitt : let s := { base with fl := [inFlight wBarrier (.untilTick 5000)] }
    s.quiet 0 = true ∧ noneWaits s ∧ ticking s ∧ (5000 : W64).toNat < 2 ^ 64 - 512 := by unfold noneWaits ticking; decide +kernel
/-- Groups 2 and 3 of T.SPAD's operands, one in each phase. -/
def groupsS (ph : PgPhase) (held : Bool) : State := { sSpad with sp := { sSpad.sp with groups := [(2, ⟨ph, held⟩), (3, ⟨.waitRamp, false⟩)] } }
theorem test_wit_groups : settled (groupsS .down true) ∧ groupsOnce (groupsS .down true) ∧ ((groupsS .down true).group 2) = ⟨.down, true⟩
    ∧ ((groupsS .down false).group 2) = ⟨.down, false⟩ ∧ ((groupsS .ramp false).group 2).phase = .ramp
    ∧ ((groupsS .zeroing true).group 2).phase = .zeroing ∧ ((groupsS .off false).group 2).phase = .off
    ∧ inGroups wDown 2 ∧ inGroups wDown 3 ∧ ¬ inGroups wDown 1 ∧ ¬ inGroups wDown 4
    ∧ (groupsS .ramp false).sp.groups.filter (fun p => p.1 ≠ 2) = [(3, ⟨.waitRamp, false⟩)]
    ∧ (groupsS .ramp false).pw.estW.toNat + 2 ≤ (groupsS .ramp false).pw.capEff.toNat := by
  unfold settled groupsOnce inGroups; decide +kernel
theorem test_wit_groups_start : startsClean (groupsS .off false) wUp upOp ∧ startsClean (groupsS .on false) wDown downOp :=
  ⟨startsClean_of rfl (by decide +kernel), startsClean_of rfl (by decide +kernel)⟩

/-! The command port. -/

/-- In a job state. -/
def inState (st : BitVec 4) : State := { base with job := { base.job with state := st } }
def man : Manifest := { Manifest.zero with imgLen := 64, vcs := 2048, plats := 128, ports := 0x7FFFFFFFF, spadTop := 0x1F000000, yardNeed := 0x1000000 }
theorem test_wit_jobLoad : listens (inState 0) ∧ listens (inState 8) ∧ (inState 0).pw.trip = false ∧ (inState 0).hl.pass = false
    ∧ (inState 8).anyFailed = false ∧ manifestSound man ∧ man.imgLen ≠ 0 ∧ listens base ∧ base.job.state ≠ 0 ∧ base.job.state ≠ 8 := by
  unfold listens settled manifestSound; decide +kernel
theorem test_wit_jobLoad_fits : manifestFits (inState 0) { man with imgLen := 0 } ∧ manifestFits (inState 0) man := by
  unfold manifestFits; decide +kernel
/-- LOADING the manifest: none of its 64 bytes has come, or the first 32. -/
def loadingS (m : Manifest) (image : List (Nat × Nat)) : State :=
  { inState 1 with job := { (inState 1).job with manifest := m, image := image } }
theorem test_wit_data : listens (loadingS man []) ∧ (loadingS man []).memOk = true ∧ (32 : W64).toNat + (List.replicate 32 (1 : Byte)).length ≤ man.imgLen.toNat
    ∧ (addInterval [] 32 64).any (fun p => decide (p.1 = 0 ∧ 64 ≤ p.2)) = false
    ∧ (addInterval [(0, 32)] 32 64).any (fun p => decide (p.1 = 0 ∧ 64 ≤ p.2)) = true
    ∧ (loadingS man []).shortfalls man = [] ∧ (loadingS man []).shortfalls { man with vcs := 2049 } ≠ []
    ∧ ({ man with distHash := 1 } : Manifest).distHash ≠ (loadingS man []).sp.distHash := by
  unfold listens settled; decide +kernel
theorem test_wit_launch : listens (inState 2) ∧ (inState 2).job.state = 2 ∧ (4096 : W64).toNat ≤ (inState 2).now ∧ (inState 2).now < (4097 : W64).toNat
    ∧ (inState 3).job.state = 3 ∧ (inState 3).job.kill = none ∧ ticking (inState 3) ∧ (inState 3).job.launch.toNat < 2 ^ 64 - 512 := by
  unfold listens settled ticking; decide +kernel
theorem test_wit_jobLoad_others : ({ inState 0 with hl := { (inState 0).hl with pass := true } } : State).hl.pass = true
    ∧ ({ (inState 0).pw with trip := true } : Power).trip = true ∧ (inState 2).job.state ≠ 0 ∧ ¬ manifestSound { man with imgLen := 33 } := by
  unfold manifestSound; decide +kernel
theorem test_wit_kill_nothingDue : nothingDue (inState 1) ∧ nothingDue (inState 4) ∧ nothingDue (inState 6) ∧ nothingDue (inState 0) ∧ nothingDue sentS :=
  ⟨none_of (by decide +kernel), none_of (by decide +kernel), none_of (by decide +kernel), none_of (by decide +kernel), none_of (by decide +kernel)⟩
theorem test_wit_kill : listens (inState 1) ∧ [2, 3, 4, 6].map inState = [inState 2, inState 3, inState 4, inState 6] ∧ (inState 6).reqs = []
    ∧ sentS.reqs ≠ [] ∧ listens sentS ∧ listens (inState 7) := ⟨by unfold listens settled; decide +kernel, rfl, rfl, by decide +kernel,
  by unfold listens settled; decide +kernel, by unfold listens settled; decide +kernel⟩
theorem test_wit_killDrain : let s := { sentS with job := { sentS.job with kill := some [0] } }
    s.job.kill.isSome = true ∧ s.cmd.queue = [] ∧ (s.port 33).txq = [] := by decide +kernel
/-- Four valid profiles, of which number 3 runs at 4.2 GHz. -/
def profS : State := { inState 0 with boot := { (inState 0).boot with profiles := [profile0, profile0, profile0, { profile0 with rootMhz := 4200 }] } }
theorem test_wit_profiles : listens profS ∧ (0 : BitVec 2) = profS.cfg.profile ∧ profile0.valid 1 = true
    ∧ ({ profile0 with rootMhz := 4200 } : Profile).valid 3 = true ∧ profS.cfg.active.flags.getLsbD 1 = true ∧ profS.pw.pllLock = true := by
  unfold listens settled; decide +kernel
theorem test_wit_profiles_refused : base.job.state ≠ 0 ∧ ({ profile0 with flags := 0 } : Profile).flags.getLsbD 1 = false
    ∧ ({ profile0 with yardMib := 3 } : Profile).valid 1 = false := by decide +kernel
def switchS : State := { profS with cfg := { profS.cfg with switching := some (1, 6) } }
theorem test_wit_profileSwitch : switchS.cfg.switching = some (1, 6) ∧ switchS.cmd.queue = [] ∧ (∀ n, profS.cfg.switching ≠ some (n, 6))
    ∧ (1 : BitVec 56) ≠ 0 :=
  ⟨rfl, by decide +kernel, fun n => (show (none : Option (Nat × Nat)) ≠ some (n, 6) from nofun), by decide⟩

/-! Registers. -/

theorem test_wit_commandRegisters : listens (inState 7) ∧ (0x17FFF8 : BitVec 21).toNat % 8 = 0 ∧ (0x17FFF8 : BitVec 21).toNat < 0x18_0000
    ∧ (inState 7).sp.maddr.toNat < 2 ^ 29 ∧ (inState 7).groupOn ((inState 7).sp.maddr.toNat / 2 ^ 21) = true
    ∧ (inState 7).sp.suspects.contains ((inState 7).sp.maddr.toNat / 128 * 128) = false ∧ (inState 7).mayWrite .kpc 0x558 = true
    ∧ (8 : W64).toNat % 8 = 0 ∧ (inState 7).mayWrite .kpc 8 = false ∧ (0x18_0000 : BitVec 21).toNat = 0x18_0000 ∧ (0x31 : BitVec 21).toNat % 8 ≠ 0 := by
  unfold listens settled; decide +kernel
/-- An error in the ECC word that RREG reads, and a district out of service in LIMP. -/
theorem test_wit_commandRegisters_ecc : let s := { inState 7 with sb := { (inState 7).sb with ecc := [(8, true)] } }
    listens s ∧ (0x100008 : BitVec 21).toNat % 8 = 0 ∧ s.job.state ≠ 3 ∧ s.job.state ≠ 4
      ∧ s.sb.ecc.find? (fun e => e.1 = (0x100008 : BitVec 21).toNat - 0x10_0000) = some ((0x100008 : BitVec 21).toNat - 0x10_0000, true)
      ∧ limpS.svc.limp = true ∧ limpS.districtOk (limpS.sp.maddr.toNat / 2 ^ 22) = false := by unfold listens settled; decide +kernel
theorem test_wit_registerRows : (inState 7).boot.phase = .ready ∧ ((inState 7).port 33).txq = [] ∧ (3 : W64).getLsbD 1 = true
    ∧ canReach base .job ∧ canReach (inState 7) .kpc ∧ ¬ jobActive (inState 7) ∧ jobActive base ∧ (inState 0).job.state = 0 ∧ (0x17FFF8 : BitVec 21).toNat % 8 = 0 ∧ 0x100000 ≤ (0x100000 : BitVec 21).toNat
    ∧ (4 : W64).toNat % 8 ≠ 0 ∧ base.memOk = true := ⟨rfl, by decide +kernel, by decide, by unfold canReach issues; decide +kernel,
  by unfold canReach listens settled; decide +kernel, by unfold jobActive; decide +kernel, by unfold jobActive; decide +kernel, rfl,
  by decide, by decide, by decide, by decide +kernel⟩
/-- A write of AMAX_CTL that waits for the last instruction in flight. -/
theorem test_wit_registerRows_wait : let s := { busy with sb := { busy.sb with waitReg := some (0x200, 4) } }
    s.sb.waitReg = some (0x200, 4) ∧ s.sb.wait = none ∧ s.fl = [inFlight wMark .idle] ∧ s.tq = [] ∧ s.job.state = 4
      ∧ s.instDone (inFlight wMark .idle) = true ∧ s.ft.halting = none ∧ s.job.kill = none ∧ issues busy ∧ ¬ empty busy
      ∧ (inState 7).sp.suspects = [] ∧ (inState 7).sb.ecc = [] := by unfold issues empty; decide +kernel
theorem test_wit_spadMdata : let at_ := fun (a : BitVec 48) => { inState 7 with sp := { (inState 7).sp with maddr := a } }
    (at_ 0x1FFFFFF8).sp.maddr.toNat < 2 ^ 29 ∧ 2 ^ 29 ≤ (at_ 0x20000000).sp.maddr.toNat ∧ offS.groupOn (offS.sp.maddr.toNat / 2 ^ 21) = false := by decide +kernel
/-- PRESERVED with and without a running scrub. -/
theorem test_wit_spadMdata_scrub : (inState 7).sp.scrubRun = false ∧ listens (scrubbing (inState 7)) ∧ (scrubbing (inState 7)).sp.scrubRun = true
    ∧ (inState 7).job.state = 7 := by unfold listens settled; decide +kernel
theorem test_wit_registerWrite : (0x558, 0xFFFFFFFFFFF8#64) ∈ kpcKeeps ∧ (0x4820, 0x7F#64) ∈ jobKeeps ∧ (0x2010 : BitVec 21).toNat ∈ rcRegs ∧ issues base
    ∧ base.mayWrite .kpc 0x4830 = false ∧ jobWritable 0x4800 = false := by unfold issues; decide +kernel

/-! Ports. -/

/-- P22 negotiates its first attempt, begun at tick 4,000; the joint mode has been confirmed. -/
def negS (confirmed : Bool) (attempts : BitVec 4) : State := { base with
  ports := AL.put base.ports 22 { Port.down with state := 1, attempts := attempts, cap := ownCap 22, mode := jointMode 22 (ownCap 22), confirmed := confirmed, negAt := 4000, negFrom := 4000 } }
/-- The same in step 5 of start-up, with P23 still negotiating or as the last port, and in the fourth change of a switch. -/
def step5S (more : Bool) (attempts : BitVec 4) : State :=
  let s := { negS true attempts with boot := { (negS true attempts).boot with phase := .step 5 } }
  if more then { s with ports := AL.put s.ports 23 { Port.down with state := 1, negAt := 4000, negFrom := 4000 } } else s
def change4S : State := { negS true 1 with ports := AL.put (negS true 1).ports 23 { Port.down with state := 1, negAt := 4000, negFrom := 4000 }, cfg := { (negS true 1).cfg with switching := some (1, 4) } }
theorem test_wit_negotiating : negotiating (step5S true 1) ∧ negotiating (step5S false 1) ∧ ((step5S true 1).port 22).state = 1
    ∧ ((step5S true 1).port 23).state = 1 ∧ ((step5S true 1).port 22).confirmed = true ∧ ((step5S true 1).port 22).txq = []
    ∧ (step5S true 1).modeOk 22 ((step5S true 1).port 22).mode ((step5S true 1).port 22).cap = true
    ∧ (∀ x ∈ (step5S false 1).ports, x.1 ≠ 22 → x.2.state ≠ 1) ∧ (step5S false 1).cfg.active.flags.getLsbD 0 = false
    ∧ (step5S false 1).ports.Pairwise (fun a b => a.1 < b.1) ∧ (change4S.port 22).state = 1 ∧ (change4S.port 23).state = 1 := by
  unfold negotiating; refine ⟨.inl (by decide +kernel), .inl (by decide +kernel), by decide +kernel⟩
theorem test_wit_negotiating_switch : negotiating change4S := .inr ⟨by decide +kernel, 1, rfl⟩
theorem test_wit_negotiating_onTime : onTime (step5S true 1) ∧ onTime (step5S false 1) ∧ onTime change4S ∧ attends (negS true 1) ∧ onTime (negS true 1) ∧ onTime base :=
  ⟨none_of (by decide +kernel), none_of (by decide +kernel), none_of (by decide +kernel), by unfold attends; decide +kernel, none_of (by decide +kernel), none_of (by decide +kernel)⟩
theorem test_wit_negotiation : settled (negS true 1) ∧ ((negS true 1).port 22).state = 1 ∧ agrees 22 (ownCap 22) ∧ ¬ agrees 22 (ownCap 23)
    ∧ ¬ agrees 22 0x4400FFFF_00160000#64 ∧ (jointMode 22 (ownCap 22)).extractLsb' 16 48 = ((negS true 1).port 22).mode.extractLsb' 16 48
    ∧ (negS true 1).modeOk 22 ((negS true 1).port 22).mode ((negS true 1).port 22).cap = true ∧ ((negS true 1).port 22).txq = []
    ∧ ((negS false 1).port 22).confirmed = false ∧ (base.port 22).state ≠ 1 := by unfold settled agrees; decide +kernel
theorem test_wit_negotiation_timeout : 1 ≤ (negS true 1).tb.inc.toNat ∧ ((negS true 1).port 22).negFrom + 400 * (negS true 1).boot.negUs < 2 ^ 64 - 512
    ∧ ((negS true 1).port 22).attempts.toNat < (negS true 1).boot.negTries ∧ (negS true 2).boot.negTries ≤ ((negS true 2).port 22).attempts.toNat := by
  decide +kernel
/-- An intake port that still owes a tile of an abandoned T.XPR negotiates with the rest. -/
def owedS : State := let s := step5S true 1
  { s with ports := AL.put s.ports 2 { Port.down with state := 1, attempts := 1, cap := ownCap 2, mode := jointMode 2 (ownCap 2), confirmed := true, negAt := 4000, negFrom := 4000 }
           xp := { s.xp with discard := [(2, 1)] } }
theorem test_wit_negotiating_owed : (owedS.port 2).state = 1 ∧ (owedS.port 23).state = 1 ∧ (owedS.port 2).confirmed = true
    ∧ owedS.modeOk 2 (owedS.port 2).mode (owedS.port 2).cap = true ∧ owedS.xp.discard = [(2, 1)] := by decide +kernel
/-- The command port's last attempt, in the fourth change of a switch or in step 5, with the commands `q` waiting. -/
def lastTryS (q : List KCmd) : State := { base with
  ports := AL.put base.ports 33 { Port.down with state := 1, attempts := 2, cap := ownCap 33, mode := jointMode 33 (ownCap 33), confirmed := true, negAt := 4000, negFrom := 4000 }
  job := { base.job with state := 0 }, cfg := { base.cfg with switching := some (1, 4) }, cmd := { base.cmd with queue := q } }
theorem test_wit_negotiating_lost : let s := lastTryS [.status 0]
    let u := lastTryS [.launch 0 0]
    s.boot.phase = .ready ∧ s.cfg.switching = some (1, 4) ∧ s.job.kill = none ∧ s.cmd.heldLoad = none ∧ 1 ≤ s.tb.inc.toNat
      ∧ (s.port 33).state = 1 ∧ (s.port 33).broken = false ∧ (s.port 33).txq = [] ∧ s.boot.negTries ≤ (s.port 33).attempts.toNat
      ∧ (s.port 33).negFrom + 400 * s.boot.negUs < 2 ^ 64 - 512 ∧ s.cmd.queue = [.status 0] ∧ u.cmd.queue = [.launch 0 0] := by decide +kernel
def lostStep5S : State := let s := lastTryS []
  { s with boot := { s.boot with phase := .step 5 }, cfg := base.cfg, ports := AL.put s.ports 23 { Port.down with state := 1, negAt := 4000, negFrom := 4000 } }
theorem test_wit_negotiating_lost_step5 : negotiating lostStep5S ∧ (lostStep5S.port 33).state = 1 ∧ (lostStep5S.port 23).state = 1
    ∧ lostStep5S.boot.negTries ≤ (lostStep5S.port 33).attempts.toNat := by
  unfold negotiating; exact ⟨.inl (by decide +kernel), by decide +kernel⟩
/-- P22 with one credit less than its depth, and with 15 drops in this interval. -/
def credS (n drops : Nat) : State := { base with ports := AL.put base.ports 22 { upPort 22 with txCred := n, drops := drops } }
theorem test_wit_credits : ((credS 63 0).port 22).state = 2 ∧ ((credS 63 0).port 22).txq = [] ∧ 2 ≤ ((credS 63 0).port 22).version
    ∧ (1 : W64).toNat ≤ 8 ∧ ((credS 63 0).port 22).txCred + (1 : W64).toNat ≤ ((credS 63 0).port 22).txDepth.toNat
    ∧ ((credS 64 0).port 22).txDepth.toNat < ((credS 64 0).port 22).txCred + (8 : W64).toNat ∧ dropsNow (credS 64 14) 22 < 15
    ∧ 15 ≤ dropsNow (credS 64 15) 22 ∧ 8 < (9 : W64).toNat ∧ ((negS true 1).port 22).state ≠ 2 := by decide +kernel
/-- A message's link word: its type and its length in 8-byte words over its own CRC. -/
def linkOf (type len : Nat) (body : List Byte) : W64 :=
  BitVec.ofNat 64 (type * 2 ^ 58 + len * 2 ^ 32 + (crc32c (leBytes 4 (type * 2 ^ 26 + len) ++ body)).toNat)
/-- The premises of the MESSAGE_DROP clause: broken, foreign. -/
def dropCase (p : Nat) (link : W64) (body : List Byte) : Bool × Bool :=
  let type := (link.extractLsb' 58 6).toNat
  let len := (link.extractLsb' 32 16).toNat
  (crc32c (leBytes 4 (link.toNat / 2 ^ 32) ++ body) ≠ link.setWidth 32 || link.extractLsb' 48 10 ≠ 0,
    !typeListed type (portClass p) || !lenOk type len body || body.length ≠ 8 * len)
theorem test_wit_drops : dropCase 22 (linkOf 3 1 (List.replicate 8 1)) (List.replicate 8 1) = (false, false)
    ∧ dropCase 22 (linkOf 3 1 (List.replicate 8 1) + 1) (List.replicate 8 1) = (true, false)
    ∧ dropCase 22 (linkOf 3 2 (List.replicate 16 1)) (List.replicate 16 1) = (false, true)
    ∧ dropCase 22 (linkOf 4 1 (List.replicate 8 1)) (List.replicate 8 1) = (false, true) := by decide +kernel
/-- A CREDIT that lets the first of two waiting lines go; a command of an unknown code; a stopped start-up; reset. -/
def queueS : State := { base with ports := AL.put base.ports 0 { upPort 0 with txCred := 0, txq :=
  [⟨.operand false 1 2 [], none, .spad, none⟩, ⟨.operand false 1 3 [], none, .spad, none⟩] } }
theorem test_wit_credit_lets_go : attends queueS ∧ (queueS.port 0).state = 2 ∧ 2 ≤ (queueS.port 0).version ∧ (queueS.port 0).txCred = 0
    ∧ 1 ≤ (queueS.port 0).txDepth.toNat ∧ ((queueS.port 0).txq.map (fun j => j.msg.cost)) = [1, 1]
    ∧ heeds base 22 ∧ heeds { base with boot := { base.boot with phase := .stopped } } 33 ∧ dropsNow (negS true 1) 22 < 15 := by
  unfold attends heeds attends; decide +kernel
theorem test_wit_credit_onTime : onTime queueS := none_of (by decide +kernel)
theorem test_wit_unknown_command : listens (inState 7) ∧ dropCase 33 (linkOf 0x0F 1 (9 :: List.replicate 7 0)) (9 :: List.replicate 7 0) = (false, false)
    ∧ (8 : Nat) < (9 : Byte).toNat ∧ ({ base with boot := { base.boot with phase := .inReset } } : State).boot.phase = .inReset := by
  unfold listens settled; decide +kernel
theorem test_wit_drop_closed : ((negS true 1).port 22).state ≠ 2 ∧ dropCase 22 (linkOf 3 1 (List.replicate 8 1)) (List.replicate 8 1) = (false, false) := by
  decide +kernel

/-! Start-up. -/

/-- In a phase of start-up. -/
def inPhase (ph : BootPhase) : State := { State.reset with boot := { Boot.reset with phase := ph } }
/-- Step 1 with the bytes `img` of a copy that are there. -/
def step1 (img : AL (List Byte)) (copyB : Bool) : State := { inPhase (.step 1) with boot := { (inPhase (.step 1)).boot with img := img, copyB := copyB } }
theorem test_wit_startUp : (inPhase .inReset).boot.phase = .inReset ∧ (inPhase (.step 0)).boot.phase = .step 0
    ∧ (inPhase (.step 3)).boot.phase = .step 3 ∧ (inPhase (.step 4)).boot.phase = .step 4 ∧ (inPhase (.step 3)).cfg.profile ≠ 2
    ∧ (∀ p ∈ [(0, (inPhase (.step 4)).signature), (127, (inPhase (.step 4)).signature)], p.2 = (inPhase (.step 4)).signature)
    ∧ base.cfg.active.ports.getLsbD 34 = true := by
  refine ⟨rfl, rfl, rfl, rfl, by decide, fun p h => ?_, by decide +kernel⟩
  simp only [List.mem_cons, List.not_mem_nil, or_false] at h
  rcases h with rfl | rfl <;> rfl
/-- Bank 0 fails with its reserves there, or gone; DPU 0 likewise. -/
def goneUnits (keys : List Nat) (s : State) : State :=
  { s with hl := { s.hl with units := keys.map (fun k => (k, { UnitRec.factory (k / 32768) (k % 32768) with state := 2 })) } }
theorem test_wit_startUp_fails : let s := inPhase (.step 3)
    s.hl.pass = false ∧ (s.unit 1 0).state = 0 ∧ (s.unit 1 64).state = 1
      ∧ (∀ k, 0 / 68 = k / 68 → 64 ≤ k % 68 → k ≠ 64 → (s.unit 1 k).state ≠ 1
        ∨ (s.unit 1 k).remH.toNat < (s.unit 1 64).remH.toNat ∨ ((s.unit 1 k).remH = (s.unit 1 64).remH ∧ 64 < k))
      ∧ ((inPhase (.step 4)).unit 2 0).state = 0 ∧ ((inPhase (.step 4)).unit 2 8).state = 1 := by
  refine ⟨rfl, by decide +kernel, by decide +kernel, fun k e h n => ?_, by decide +kernel⟩
  have : k ∈ [65, 66, 67] := by simp only [List.mem_cons, List.not_mem_nil, or_false]; omega
  fin_cases this <;> decide +kernel
theorem test_wit_startUp_noReserve : noReserve (goneUnits [32832, 32833, 32834, 32835] (inPhase (.step 3))) 1 (0 / 68)
    ∧ (goneUnits [32832, 32833, 32834, 32835] (inPhase (.step 3))).lends = false ∧ noReserve (goneUnits [65544] (inPhase (.step 4))) 2 (0 / 9) := by
  refine ⟨fun r l h => ?_, by decide +kernel, fun r l h => ?_⟩
  · have l : 64 ≤ r := l
    have h : r < 68 := h
    have : r ∈ [64, 65, 66, 67] := by simp only [List.mem_cons, List.not_mem_nil, or_false]; omega
    fin_cases this <;> decide +kernel
  · have l : 8 ≤ r := l
    have h : r < 9 := h
    have : r = 8 := by omega
    subst this
    decide +kernel
/-- The self-test section without its parts: its network has no output, and the signature agrees; with zeros for weights and no stored
signature it does not. -/
theorem rowsOf_length {α : Type} (n k : Nat) (l : List α) (h : n * k ≤ l.length) : (rowsOf n k l).length = k := by
  induction k generalizing l with
  | zero => rfl
  | succ k ih =>
    have m : n * (k + 1) = n * k + n := Nat.mul_succ n k
    rw [rowsOf, if_neg (by omega), List.length_cons, ih _ (by rw [List.length_drop]; omega)]
theorem zeros_dot (n : Nat) (x : List Int) : (List.zipWith (· * ·) x (List.replicate n 0)).sum = 0 := by
  induction x generalizing n with
  | nil => simp
  | cons a x ih => cases n with
    | zero => simp
    | succ n => rw [List.replicate_succ, List.zipWith_cons_cons, List.sum_cons, ih]; simp
def zeroSect : List Byte := List.replicate 81984 0
theorem test_wit_startUp_signature : testSignature [] = (inPhase (.step 4)).signature
    ∧ testSignature zeroSect ≠ ({ inPhase (.step 4) with boot := { (inPhase (.step 4)).boot with sect := zeroSect } } : State).signature
    ∧ (1 : W32) ≠ (inPhase (.step 4)).signature := by
  refine ⟨by decide +kernel, ?_, by decide +kernel⟩
  have sig : ({ inPhase (.step 4) with boot := { (inPhase (.step 4)).boot with sect := zeroSect } } : State).signature = 0 := by
    show BitVec.ofNat 32 (leNat ((zeroSect.drop 86016).take 4)) = 0
    rw [zeroSect, List.drop_replicate]; rfl
  have w : (rowsOf 64 64 (zeroSect.drop 81920)).map (packedRow 3) = [List.replicate 256 0] := by
    rw [zeroSect, List.drop_replicate]; decide +kernel
  have z : ∀ xs : List (List Int), testLayer [List.replicate 256 0] xs = List.replicate xs.length [0] := fun xs => by
    rw [testLayer, List.map_congr_left (g := fun _ => [0]) (fun x _ => by rw [List.map_singleton, zeros_dot]), List.map_const']
  rw [sig]
  unfold testSignature
  simp only [w, z]
  simp only [testLayer, List.length_map]
  rw [rowsOf_length 1024 32 _ (by rw [zeroSect, List.take_replicate, List.length_replicate]; decide)]
  decide +kernel
theorem test_wit_startUp_relock : ({ (step1 [] false).boot with relock := true } : Boot).phase = .step 1
    ∧ (step1 [] false).boot.relock = false ∧ (step1 [] false).boot.imgOk = false ∧ (step1 [] false).boot.pinsOk = false
    ∧ ({ profS with cfg := { profS.cfg with switching := some (3, 1) }, pw := { profS.pw with pllLock := false } } : State).pw.pllLock = false
    ∧ profS.boot.phase = .ready ∧ profS.boot.profiles[3]? = some { profile0 with rootMhz := 4200 } := by decide +kernel
/-- Step 1 at the load's limit of 25 ms, with a usable copy or without one. -/
def lateS (ok : Bool) : State := let s := step1 [] false
  { s with boot := { s.boot with imgOk := ok, pins := 2 }, tb := { s.tb with stood := 10000000 * 2 ^ 24 } }
theorem test_wit_startUp_late : [false, true].map (fun ok => let s := lateS ok
    (decide (s.active = false ∧ s.fl = [] ∧ s.tq = [] ∧ s.reqs = [] ∧ s.yd.trigs = [] ∧ s.yd.held = [] ∧ s.tb.lock = 0 ∧ s.boot.relock = false
        ∧ s.boot.phase = .step 1 ∧ s.cfg.active.ports = 0 ∧ s.boot.imgOk = ok), s.ports.length, decide (s.boot.loadFrom + 10000000 ≤ s.clock))) =
      [(true, 0, true), (true, 0, true)]
    ∧ (step1 [] false).tb.on = false ∧ 1 ≤ (step1 [] false).tb.inc.toNat := by decide +kernel
theorem test_wit_startUp_onTime : onTime (step1 [] false) ∧ onTime (inState 0) := ⟨none_of (by decide +kernel), none_of (by decide +kernel)⟩
/-- The copy after the bytes have come. -/
def copyAfter (s : State) (off : W64) (bytes : List Byte) : List Byte := ({ s.boot with img := AL.put s.boot.img off.toNat bytes } : Boot).image
/-- 64 bytes of which the length field is `len`. -/
def header (len : Nat) : List Byte := leBytes 4 0 ++ leBytes 4 len ++ List.replicate 56 0
theorem test_wit_image : baseMode (step1 [] false) ∧ baseMode (step1 [] true) ∧ (0xFFFFFFFF : W64).toNat < 2 ^ 32
    ∧ (header 64).length % 8 = 0 ∧ (header 64).length ≤ 8176 ∧ (step1 [] true).boot.copyB = true := by
  unfold baseMode takesBase; decide +kernel
/-- Commands before READY: in step 1, and with the command port's negotiation failed after start-up has stopped. -/
theorem test_wit_beforeReady : let s := { step1 [] false with boot := { (step1 [] false).boot with phase := .stopped }, ports := [(33, { Port.down with state := 3 })] }
    takesBase (step1 [] false) ∧ takesBase s ∧ (s.port 33).state = 3 ∧ s.boot.phase ≠ .inReset ∧ s.boot.phase ≠ .ready := by
  unfold takesBase; decide +kernel
theorem test_wit_image_cases : (copyAfter (step1 [] false) 8 (header 64)).length < 8
    ∧ bytesAt (copyAfter (step1 [] false) 0 (header 72)) 4 4 = 72 ∧ (copyAfter (step1 [] false) 0 (header 72)).length = 64
    ∧ bytesAt (copyAfter (step1 [] false) 0 (header 63)) 4 4 < 64 ∧ 2097152 < bytesAt (copyAfter (step1 [] false) 0 (header 2097153)) 4 4
    ∧ bytesAt (copyAfter (step1 [] false) 0 (header 64)) 4 4 ≤ (copyAfter (step1 [] false) 0 (header 64)).length
    ∧ copyUsable ((copyAfter (step1 [] false) 0 (header 64)).take 64) = false := by decide +kernel
/-- A wear record in which every entry is a reserve's (16 Table 16.5), and a copy of it under its 64-byte header. -/
def wearHead : List Byte := leBytes 8 (1 + 31627 * 2 ^ 32) ++ leBytes 8 0
def wearBytes (n : Nat) : List Byte := wearHead ++ List.replicate 1024 0 ++ (List.replicate n (leBytes 8 0x4FFFFF0000000000)).flatten
def imageHead : List Byte :=
  leBytes 4 254632 ++ leBytes 8 (1 + 0x2048 * 2 ^ 16 + 3 * 2 ^ 32 + 2 ^ 48) ++ leBytes 8 (10 + 64 * 2 ^ 32) ++ leBytes 8 (576 + 254056 * 2 ^ 32)
    ++ leBytes 8 0 ++ leBytes 8 (7 * 2 ^ 32) ++ leBytes 8 0 ++ leBytes 8 0
/-- A profile record with a root and a cap (15 Table 15.3), and the four of the image: number 1 has a cap below its range. -/
def profileBytes (root cap : Nat) : List Byte := leBytes 8 (root + cap * 2 ^ 16 + 16 * 2 ^ 32 + 2 * 2 ^ 56) ++ leBytes 8 0x7FFFFFFFF ++ leBytes 8 0
  ++ List.replicate 32 0xFF ++ List.replicate 72 0
def profilesBytes : List Byte := profileBytes 4800 400 ++ profileBytes 4800 99 ++ profileBytes 4800 400 ++ profileBytes 4200 400
theorem profilesBytes_length : profilesBytes.length = 512 := by decide +kernel
def imageRest (rec_ : List Byte) : List Byte := imageHead ++ (profilesBytes ++ rec_)
def imageBytes (rec_ : List Byte) : List Byte := leBytes 4 (crc32 (imageRest rec_)).toNat ++ imageRest rec_
theorem leBytes_length (k v : Nat) : (leBytes k v).length = k := by
  induction k generalizing v with
  | zero => rfl
  | succ k ih => rw [leBytes, List.length_cons, ih]
theorem bytesAt_append (h r : List Byte) (a n : Nat) (l : a + n ≤ h.length) : bytesAt (h ++ r) a n = bytesAt h a n := by
  unfold bytesAt
  rw [List.drop_append_of_le_length (by omega), List.take_append_of_le_length (by rw [List.length_drop]; omega)]
theorem wearHead_zeros_length : (wearHead ++ List.replicate 1024 (0 : Byte)).length = 1040 := by
  rw [List.length_append, List.length_replicate]; rfl
theorem wearBytes_length (n : Nat) : (wearBytes n).length = 1040 + 8 * n := by
  rw [wearBytes, List.length_append, wearHead_zeros_length, List.length_flatten, List.map_replicate, leBytes_length, List.sum_replicate_nat]
  omega
theorem dwords_wear (n : Nat) : dwords ((List.replicate n (leBytes 8 0x4FFFFF0000000000)).flatten) = List.replicate n 0x4FFFFF0000000000 := by
  induction n with
  | zero => rfl
  | succ n ih =>
    rw [List.replicate_succ, List.replicate_succ, List.flatten_cons, ← ih]
    rfl
theorem wearOk_wearBytes : wearOk (wearBytes 31627) = true := by
  have d : (wearBytes 31627).drop 1040 = (List.replicate 31627 (leBytes 8 0x4FFFFF0000000000)).flatten := by
    exact List.drop_left' wearHead_zeros_length
  have ok : ∀ k i, entryOk k i 0x4FFFFF0000000000 = true := by
    intro k i
    have a : bitsOf 0x4FFFFF0000000000 62 2 = 1 ∧ bitsOf 0x4FFFFF0000000000 48 12 = 0xFFF ∧ bitsOf 0x4FFFFF0000000000 40 8 = 0xFF
      ∧ bitsOf 0x4FFFFF0000000000 32 8 = 0 := by decide
    simp [entryOk, a]
  have all : (wearEntries (wearBytes 31627)).all (fun e => entryOk e.1 e.2.1 e.2.2) = true := by
    rw [List.all_eq_true]
    intro x hx
    unfold wearEntries at hx
    rw [d, dwords_wear, List.mem_filterMap] at hx
    obtain ⟨p, hp, hq⟩ := hx
    have hm := List.fst_mem_of_mem_zipIdx hp
    have hv : p.1 = 0x4FFFFF0000000000 := List.eq_of_mem_replicate hm
    rw [Option.map_eq_some_iff] at hq
    obtain ⟨u, -, rfl⟩ := hq
    simp only [hv, ok]
  have b : ∀ a n, a + n ≤ 16 → bytesAt (wearBytes 31627) a n = bytesAt wearHead a n := fun a n l => by
    rw [wearBytes, List.append_assoc, bytesAt_append _ _ _ _ l]
  unfold wearOk
  rw [all, wearBytes_length, b 0 2 (by decide), b 2 2 (by decide), b 4 4 (by decide), b 8 8 (by decide)]
  decide +kernel
theorem bytesAt_crc (c : W32) (r : List Byte) : bytesAt (leBytes 4 c.toNat ++ r) 0 4 = c.toNat := by
  have := c.isLt
  rw [bytesAt_append _ _ _ _ (by rw [leBytes_length])]
  show leNat ((leBytes 4 c.toNat).take 4) = _
  rw [List.take_of_length_le (by rw [leBytes_length]), leNat_leBytes]
  omega
theorem bytesAt_image (rec_ : List Byte) (c : W32) (a n : Nat) (l : a + n ≤ 60) :
    bytesAt (leBytes 4 c.toNat ++ imageRest rec_) (4 + a) n = bytesAt imageHead a n := by
  have d : (leBytes 4 c.toNat ++ imageRest rec_).drop (4 + a) = (imageHead ++ (profilesBytes ++ rec_)).drop a := by
    rw [← List.drop_drop, List.drop_left' (leBytes_length _ _)]; rfl
  rw [← bytesAt_append imageHead (profilesBytes ++ rec_) a n l]
  unfold bytesAt
  rw [d]
theorem imageBytes_fields (rec_ : List Byte) (c : W32) : let bs := leBytes 4 c.toNat ++ imageRest rec_
    bs.length = 576 + rec_.length ∧ bs.drop 4 = imageRest rec_ ∧ bytesAt bs 4 4 = 254632 ∧ bytesAt bs 8 2 = 1 ∧ bytesAt bs 10 2 = 0x2048
      ∧ bytesAt bs 12 1 = 3 ∧ bytesAt bs 13 1 = 0 ∧ bytesAt bs 14 1 = 1 ∧ bytesAt bs 16 2 = 10 ∧ bytesAt bs 20 4 = 64 ∧ bytesAt bs 24 4 = 576
      ∧ bytesAt bs 28 4 = 254056 ∧ bytesAt bs 32 4 = 0 ∧ bytesAt bs 40 4 = 0 ∧ bytesAt bs 44 4 = 7 ∧ bs.drop 64 = profilesBytes ++ rec_ := by
  have b := bytesAt_image rec_ c
  have l : imageHead.length = 60 := rfl
  have lp := profilesBytes_length
  refine ⟨?_, List.drop_left' (leBytes_length _ _), (b 0 4 (by decide)).trans ?_, (b 4 2 (by decide)).trans ?_, (b 6 2 (by decide)).trans ?_,
    (b 8 1 (by decide)).trans ?_, (b 9 1 (by decide)).trans ?_, (b 10 1 (by decide)).trans ?_, (b 12 2 (by decide)).trans ?_,
    (b 16 4 (by decide)).trans ?_, (b 20 4 (by decide)).trans ?_, (b 24 4 (by decide)).trans ?_, (b 28 4 (by decide)).trans ?_,
    (b 36 4 (by decide)).trans ?_, (b 40 4 (by decide)).trans ?_, ?_⟩
  case refine_1 => rw [List.length_append, leBytes_length, imageRest, List.length_append, List.length_append, l, lp]; omega
  case refine_15 =>
    show (leBytes 4 c.toNat ++ (imageHead ++ (profilesBytes ++ rec_))).drop 64 = profilesBytes ++ rec_
    rw [← List.append_assoc]
    exact List.drop_left' (by rw [List.length_append, leBytes_length, l])
  all_goals decide +kernel
theorem copyUsable_imageBytes (rec_ : List Byte) (h : wearOk rec_ = true) (n : rec_.length = 254056) : copyUsable (imageBytes rec_) = true := by
  obtain ⟨f1, f2, f3, f4, f5, f6, f7, f8, f9, f10, f11, f12, f13, f14, -, f16⟩ := imageBytes_fields rec_ (crc32 (imageRest rec_))
  have f16 : (leBytes 4 (crc32 (imageRest rec_)).toNat ++ imageRest rec_).drop 576 = rec_ := by
    rw [show 576 = 64 + 512 from rfl, ← List.drop_drop, f16]
    exact List.drop_left' profilesBytes_length
  unfold copyUsable imageBytes
  simp only [f1, f2, f4, f5, f6, f7, f8, f9, f10, f11, f12, f13, f14, bytesAt_crc, section_, f16, n]
  rw [List.take_of_length_le (by omega), h]
  decide
/-- The whole image, and profile `n` of it. -/
def theImage : List Byte := imageBytes (wearBytes 31627)
theorem theImage_usable : copyUsable theImage = true := copyUsable_imageBytes _ wearOk_wearBytes (wearBytes_length _)
theorem theImage_profile (n : Nat) (l : n < 4) : copyProfile theImage n = profileOf ((profilesBytes.drop (128 * n)).take 128) := by
  obtain ⟨-, -, -, -, -, -, -, -, -, f10, -, -, -, -, -, f16⟩ := imageBytes_fields (wearBytes 31627) (crc32 (imageRest (wearBytes 31627)))
  have lp := profilesBytes_length
  have f10 : field theImage 20 4 = 64 := f10
  have f16 : theImage.drop 64 = profilesBytes ++ wearBytes 31627 := f16
  rw [copyProfile, f10, ← List.drop_drop, f16, List.drop_append_of_le_length (by omega), List.take_append_of_le_length (by rw [List.length_drop]; omega)]
/-- Profiles 0 and 3 are valid, 0 at 4.8 GHz and 3 at 4.2 GHz; profile 1 is not. -/
theorem test_wit_image_profiles : (copyProfile theImage 0).valid 0 = true ∧ (copyProfile theImage 0).rootMhz ≠ 4200
    ∧ (copyProfile theImage 3).valid 3 = true ∧ (copyProfile theImage 3).rootMhz = 4200 ∧ (copyProfile theImage 1).valid 1 = false := by
  rw [theImage_profile 0 (by decide), theImage_profile 3 (by decide), theImage_profile 1 (by decide)]
  decide +kernel
/-- Step 1 with a usable copy kept: pins awaited, or the PLL that relocks for profile 3. -/
def keptBoot (copy : List Byte) (relock : Bool) (chosen : Nat) : Boot := { Boot.reset with
  phase := .step 1, imgOk := true, img := [(0, copy)], defProf := field copy 12 1, selSrc := field copy 13 1, negTries := field copy 14 1
  negUs := field copy 16 2, serial := BitVec.ofNat 32 (field copy 44 4), distHash := BitVec.ofNat 32 (field copy 36 4)
  profiles := (List.range 4).map (copyProfile copy), relock := relock, chosen := chosen }
theorem keeps_keptBoot (copy : List Byte) (r : Bool) (n : Nat) (u : copyUsable copy = true) : keeps (keptBoot copy r n) copy :=
  ⟨u, rfl, rfl, rfl, rfl, rfl, rfl, rfl, rfl, rfl⟩
theorem test_wit_startUp_kept : keeps (keptBoot theImage true 3) theImage ∧ (keptBoot theImage true 3).relock = true ∧ (keptBoot theImage true 3).chosen < 4
    ∧ keeps (keptBoot theImage false 0) theImage ∧ (keptBoot theImage false 0).pinsOk = false ∧ (keptBoot theImage false 0).selSrc ≠ 1 := by
  refine ⟨keeps_keptBoot _ _ _ theImage_usable, rfl, by decide, keeps_keptBoot _ _ _ theImage_usable, rfl, ?_⟩
  obtain ⟨-, -, -, -, -, -, f7, -⟩ := imageBytes_fields (wearBytes 31627) (crc32 (imageRest (wearBytes 31627)))
  show bytesAt (imageBytes (wearBytes 31627)) 13 1 ≠ 1
  rw [show bytesAt (imageBytes (wearBytes 31627)) 13 1 = 0 from f7]; decide
/-- A usable copy, of which the first 8 bytes come last. -/
theorem test_wit_image_usable : let s := step1 [(8, (imageBytes (wearBytes 31627)).drop 8)] true
    let bytes := (imageBytes (wearBytes 31627)).take 8
    baseMode s ∧ s.boot.phase = .step 1 ∧ s.boot.imgOk = false ∧ bytes.length = 8 ∧ copyAfter s 0 bytes = imageBytes (wearBytes 31627)
      ∧ bytesAt (copyAfter s 0 bytes) 4 4 = 254632 ∧ (copyAfter s 0 bytes).length = 254632
      ∧ copyUsable ((copyAfter s 0 bytes).take 254632) = true ∧ s.boot.relock = false
      ∧ bytesAt (copyAfter s 0 bytes) 13 1 ≠ 1 ∧ s.boot.pinsOk = false := by
  intro s bytes
  have n : (wearBytes 31627).length = 254056 := wearBytes_length _
  have u := copyUsable_imageBytes _ wearOk_wearBytes n
  obtain ⟨f1, -, f3, -, -, -, f7, -⟩ := imageBytes_fields (wearBytes 31627) (crc32 (imageRest (wearBytes 31627)))
  have f1 : (imageBytes (wearBytes 31627)).length = 254632 := by rw [n] at f1; exact f1
  have f3 : bytesAt (imageBytes (wearBytes 31627)) 4 4 = 254632 := f3
  have f7 : bytesAt (imageBytes (wearBytes 31627)) 13 1 = 0 := f7
  have c : copyAfter s 0 bytes = imageBytes (wearBytes 31627) := by
    show gather [(0, bytes), (8, (imageBytes (wearBytes 31627)).drop 8)] 3 0 = _
    generalize hI : imageBytes (wearBytes 31627) = I at f1
    have hb : bytes = I.take 8 := by rw [← hI]
    rw [hb]
    have l8 : (I.take 8).length = 8 := by rw [List.length_take, f1]; rfl
    have ld : (I.drop 8).length = 254624 := by rw [List.length_drop, f1]
    have g0 : gather [(0, I.take 8), (8, I.drop 8)] 3 0 = I.take 8 ++ gather [(0, I.take 8), (8, I.drop 8)] 2 8 := by
      simp [gather, l8]
    have g1 : gather [(0, I.take 8), (8, I.drop 8)] 2 8 = I.drop 8 := by
      simp [gather, l8, ld]
    rw [g0, g1, List.take_append_drop]
  refine ⟨⟨⟨rfl, rfl, rfl, rfl, ?_, ?_, ?_⟩, rfl⟩, rfl, rfl, ?_, c, ?_, ?_, ?_, rfl, ?_, rfl⟩
  · show ((State.reset).port 33).state ≠ 2; decide +kernel
  · show ((State.reset).port 33).broken = false; decide +kernel
  · show ((State.reset).port 33).txq = []; decide +kernel
  · show ((imageBytes (wearBytes 31627)).take 8).length = 8
    rw [List.length_take, f1]; rfl
  · rw [c, f3]
  · rw [c, f1]
  · rw [c, List.take_of_length_le (by rw [f1]), u]
  · rw [c, f7]; decide

/-! The timebase. -/

/-- Tick 70,000, the last pulse 65,536 ticks before `tick`, which has been announced. -/
def pulseS (tick : W64) (good : Nat) : State := { base with tb := { base.tb with acc := (70000 : BitVec 88) <<< 24, ann := some (tick, 69990), lastPulse := some (tick - 65536, 4400), good := good } }
/-- The offset in 1/2^24 tick and the step limit. -/
def offOf (tick : W64) : Int := (tick.toNat * 2 ^ 24 : Nat) - ((pulseS tick 0).tb.acc.toNat : Int)
def limOf : Int := (base.tb.stepLimit.toNat * 2 ^ 24 : Nat)
theorem test_wit_pulse : settled (pulseS 70000 0) ∧ (pulseS 70000 0).tbFree = false ∧ (pulseS 70000 0).now ≤ (69990 : W64).toNat + 65536
    ∧ (70000 : W64).toNat = ((70000 : W64) - 65536).toNat + 65536 ∧ (70064 : W64).toNat = ((70064 : W64) - 65536).toNat + 65536
    ∧ (pulseS 70000 1).tb.good = 1 ∧ base.tb.ann = none ∧ base.tbFree = false ∧ settled base ∧ (base.port 34).state = 2 := by
  unfold settled; decide +kernel
theorem test_wit_pulse_bounds : (-(2 : Int) ^ 31 ≤ offOf 70065 / 65536 ∧ offOf 70065 / 65536 < 2 ^ 31) ∧ offOf 70064 = limOf ∧ offOf 69936 = -limOf
    ∧ limOf < offOf 70065 ∧ offOf 69935 < -limOf := by decide +kernel
theorem test_wit_pulse_onTime : onTime (pulseS 70000 0) ∧ onTime base ∧ attends base :=
  ⟨none_of (by decide +kernel), none_of (by decide +kernel), by unfold attends; decide +kernel⟩
/-- The first pulse after a loss, whatever its tick; one too many before the loss; a ready instruction whose start tick a step skips. -/
def lostS (tick : W64) (hold : Nat) : State := { pulseS tick 0 with tb := { (pulseS tick 0).tb with lastPulse := some (4464, 4400), holdLim := hold } }
def skippedS : State := { pulseS 80000 0 with tq := [{ base.entry wMark [] with startAt := some 75000, readyAt := some 70000 }] }
theorem test_wit_pulse_lost : settled (lostS 70001 65600) ∧ (4400 : W64).toNat + (lostS 70001 65600).tb.holdLim ≤ (lostS 70001 65600).now
    ∧ (lostS 70001 65601).now < (4400 : W64).toNat + (lostS 70001 65601).tb.holdLim ∧ (70001 : W64).toNat ≠ (4464 : W64).toNat + 65536
    ∧ skippedS.tq.map (fun q => q.readyAt.isSome && q.startAt.any (fun a => decide (skippedS.now < a.toNat ∧ a.toNat < (80000 : W64).toNat))) = [true]
    ∧ settled skippedS ∧ limOf < offOf 80000 := by unfold settled; decide +kernel
theorem test_wit_pulse_lost_onTime : onTime (lostS 70001 65600) ∧ onTime (lostS 70001 65601) ∧ onTime skippedS :=
  ⟨none_of (by decide +kernel), none_of (by decide +kernel), none_of (by decide +kernel)⟩
/-- A pulse that follows the last one by 65,536 under a holdover_ticks below that: in HOLDOVER, the second in a row. -/
def shortS : State := { pulseS 70000 1 with tb := { (pulseS 70000 1).tb with holdLim := 100, lock := 3 } }
theorem test_wit_pulse_short : settled shortS ∧ shortS.tbFree = false ∧ shortS.tb.lastPulse = some (4464, 4400) ∧ (4400 : W64).toNat + shortS.tb.holdLim ≤ shortS.now
    ∧ (70000 : W64).toNat = (4464 : W64).toNat + 65536 ∧ 1 ≤ shortS.tb.good := by unfold settled; decide +kernel
theorem test_wit_pulse_short_onTime : onTime shortS := none_of (by decide +kernel)
/-- A pulse that does not follow the last one; a free-running timebase; the first pulse of start-up's lock and its second good one. -/
def lockS (last : Option (W64 × W64)) (good : Nat) : State :=
  { pulseS 70000 good with boot := { base.boot with phase := .step 6, lockFrom := 4096, lockLim := 80000 }
                           tb := { (pulseS 70000 good).tb with lock := 1, lastPulse := last } }
theorem test_wit_pulse_lock : (lockS none 0).boot.phase = .step 6 ∧ (lockS none 0).cfg.switching = none ∧ (lockS none 0).tbFree = false
    ∧ (lockS none 0).tb.lock = 1 ∧ (lockS none 0).now ≤ (69990 : W64).toNat + 65536 ∧ (70000 : W64).toNat = (4464 : W64).toNat + 65536
    ∧ (lockS none 0).now < (70001 : W64).toNat ∧ (70000 : W64).toNat ≤ (lockS none 0).now ∧ 1 ≤ (lockS (some (4464, 4400)) 1).tb.good
    ∧ -limOf ≤ offOf 70000 ∧ offOf 70000 ≤ limOf ∧ (lockS none 0).now < (4400 : W64).toNat + 80000 := by decide +kernel
theorem test_wit_pulse_lock_onTime : onTime (lockS none 0) ∧ onTime { lockS (some (4464, 4400)) 1 with tb := { (lockS (some (4464, 4400)) 1).tb with holdLim := 80000 } } :=
  ⟨none_of (by decide +kernel), none_of (by decide +kernel)⟩
theorem test_wit_pulse_free : let s := { base with cfg := { base.cfg with active := { profile0 with flags := 3 } } }
    settled s ∧ s.tbFree = true ∧ ({ base with cfg := { base.cfg with switching := some (1, 5) } } : State).cfg.switching = some (1, 5) := by
  unfold settled; decide +kernel
theorem test_wit_holdover : let s := { pulseS 70000 2 with tb := { (pulseS 70000 2).tb with lock := 2 } }
    s.tb.lastPulse = some (4464, 4400) ∧ s.tb.lock ≠ 0 ∧ s.tb.lock ≠ 3 ∧ ticking s ∧ (4400 : W64).toNat + s.tb.holdLim < 2 ^ 64 - 512 := by
  unfold ticking; decide +kernel
theorem test_wit_lockTimeout : ticking (lockS none 0) ∧ (lockS none 0).boot.lockFrom + (lockS none 0).boot.lockLim < 2 ^ 64 - 512
    ∧ (lockS none 0).tb.lastPulse = none
    ∧ ({ lockS none 0 with boot := base.boot, cfg := { base.cfg with switching := some (1, 5) } } : State).boot.phase = .ready := by
  unfold ticking; decide +kernel

/-! Power, monitors, scrub, substitution. -/

theorem test_wit_governor : base.boot.phase ≠ .inReset ∧ base.pw.trip = false ∧ ({ base.pw with trip := true } : Power).trip = true ∧ mayHalt base
    ∧ idleS.pw.trip = false ∧ idleS.job.state ≠ 3 ∧ idleS.job.state ≠ 4 := by unfold mayHalt; decide +kernel
/-- No lane works: 20 W, 3/16 W for each of 256 groups. -/
def calmA : Activity := ⟨⟨0, 1⟩, ⟨0, 1⟩, ⟨0, 1⟩, ⟨0, 1⟩, ⟨0, 1⟩⟩
/-- After an interval: estimate, cap in force, level, calm intervals, hottest temperature, warn, hard. -/
def afterInterval (s : State) (temps : List (Nat × BitVec 12)) : List Int :=
  match exec (.governorInterval calmA temps) s with
  | .next t => [t.pw.estW.toNat, t.pw.capEff.toNat, t.pw.level.toNat, t.pw.calm, t.pw.tmax.toInt, if t.pw.warn then 1 else 0, if t.pw.hard then 1 else 0]
  | _ => []
def govS (capW : BitVec 9) (level : BitVec 5) (calm : Nat) (hard : Bool) : State :=
  { base with pw := { base.pw with capW := capW, level := level, calm := calm, hard := hard } }
/-- Each branch of the governor's clauses is met: calm, the fourth calm interval, over the cap, hard, cooled to 20 under the limit. -/
theorem test_wit_governor_branches : afterInterval (govS 400 8 0 false) [] = [68, 400, 8, 1, 0, 0, 0]
    ∧ afterInterval (govS 400 8 3 false) [] = [68, 400, 9, 0, 0, 0, 0] ∧ afterInterval (govS 34 8 3 false) [] = [68, 34, 4, 0, 0, 0, 0]
    ∧ afterInterval (govS 400 8 3 false) [(127, 420)] = [68, 300, 1, 0, 420, 1, 1]
    ∧ afterInterval (govS 400 8 3 true) [(0, 399)] = [68, 300, 9, 0, 399, 1, 0]
    ∧ afterInterval (govS 400 8 3 true) [(0, 400)] = [68, 300, 1, 0, 400, 1, 1] := by decide +kernel
theorem test_wit_monitor : ticking base ∧ (base.now / 2 ^ 28 + 1) * 2 ^ 28 < 2 ^ 64 - 512
    ∧ (⟨0, 2175, 5⟩ : Sample).index.toNat < unitInstalled (⟨0, 2175, 5⟩ : Sample).kind.toNat
    ∧ (⟨3, 19583, 0⟩ : Sample).index.toNat < unitInstalled (⟨3, 19583, 0⟩ : Sample).kind.toNat
    ∧ (⟨1, 68, 5⟩ : Sample).index.toNat % 68 = base.now / 2 ^ 28 % 68 ∧ (⟨1, 69, 5⟩ : Sample).index.toNat % 68 ≠ base.now / 2 ^ 28 % 68
    ∧ unitInstalled 0 ≤ (⟨0, 2176, 5⟩ : Sample).index.toNat ∧ 6 ≤ (⟨6, 0, 5⟩ : Sample).kind.toNat := by
  unfold ticking; decide +kernel
/-- Samples of several units, in turn and not: distinct units, and a list of which none is in turn. -/
theorem test_wit_monitor_lists : let ms : List Sample := [⟨0, 2175, 5⟩, ⟨3, 19583, 0⟩, ⟨1, 68, 5⟩, ⟨1, 69, 5⟩]
    (ms.map (fun m => (m.kind, m.index))).Nodup ∧ inTurn base ⟨0, 2175, 5⟩ ∧ inTurn base ⟨3, 19583, 0⟩ ∧ inTurn base ⟨1, 68, 5⟩
    ∧ ∀ m ∈ [(⟨1, 69, 5⟩ : Sample), ⟨0, 2176, 5⟩, ⟨6, 0, 5⟩], ¬ inTurn base m := by
  unfold inTurn; decide +kernel
theorem test_wit_patrol : base.groupOn (128 * (0x3FFFFF : BitVec 22).toNat / 2 ^ 21) = true ∧ (∀ d ∈ base.sp.decay, d.1 / 128 * 128 ≠ 128)
    ∧ base.sp.eccValid = false ∧ ([⟨0, true, false⟩, ⟨15, false, false⟩].map EccFind.word).Nodup ∧ AL.getD base.sp.poison 128 0 = 0 ∧ ({ base with sp := { base.sp with poison := [(0x80, 7)] } } : State).psn 0x80 = true
    ∧ offS.groupOn (128 * (0 : BitVec 22).toNat / 2 ^ 21) = false := by decide +kernel
/-- A patrol read below and above the scrub's mark, and one that the scrub's end lets go. -/
theorem test_wit_patrol_scrub : ¬ unscrubbed base 128 ∧ unscrubbed (scrubbing base) (128 * (1 : BitVec 22).toNat)
    ∧ (scrubbing base).groupOn (128 * (1 : BitVec 22).toNat / 2 ^ 21) = true := by unfold unscrubbed; decide +kernel
theorem test_wit_scrub_patrol : let s := { scrubbing base with xf := { base.xf with parked := [.patrol (128 * (1 : BitVec 22).toNat) [⟨0, true, false⟩] 0] } }
    s.sp.scrubRun = true ∧ s.tq = [] ∧ s.sb.wait = none ∧ s.sb.waitReg = none ∧ s.cmd.heldLoad = none ∧ s.job.state ≠ 8
      ∧ s.groupOn (128 * (1 : BitVec 22).toNat / 2 ^ 21) = true ∧ s.sp.decay = [] ∧ s.sp.poison = [] := by decide +kernel
theorem test_wit_writeBack : ([0x80, 0x100] : List Nat).contains (128 * (1 : BitVec 22).toNat) = true
    ∧ base.sp.wb.contains (128 * (1 : BitVec 22).toNat) = false := by decide +kernel
theorem test_wit_scrub : let s := { inState 8 with sp := { (inState 8).sp with scrubRun := true } }
    s.sp.scrubRun = true ∧ s.tq = [] ∧ s.sb.wait = none ∧ s.sb.waitReg = none ∧ s.xf.parked = [] ∧ s.cmd.heldLoad = none ∧ s.job.state = 8 ∧ s.hl.pass = false
      ∧ base.sp.scrubRun = false := ⟨rfl, rfl, rfl, rfl, rfl, rfl, rfl, rfl, rfl⟩
/-- A pass over DPU 7 of platform 127, which failed; `spare` is its reserve's state, `rsv` the profile's policy. -/
def passS (spare : BitVec 2) (rsv : Byte) : State := { idleS with
  cfg := { idleS.cfg with active := { profile0 with rsv := rsv } }
  hl := { idleS.hl with pass := true, snap := [(2 * 32768 + 1150, true)]
                        units := [(2 * 32768 + 1150, { UnitRec.factory 2 1150 with failed := true }), (2 * 32768 + 1151, { UnitRec.factory 2 1151 with state := spare })] } }
theorem test_wit_substitution : (passS 1 0).hl.snap = [(2 * 32768 + (9 * 127 + 7), true)] ∧ ((passS 1 0).unit 2 (9 * 127 + 7)).state = 0
    ∧ ((passS 1 0).unit 2 (9 * 127 + 7)).failed = true ∧ (passS 1 0).cmd.heldLoad = none ∧ (passS 1 0).policy ≠ 2 ∧ (passS 1 2).policy = 2
    ∧ ((passS 1 0).unit 2 1151).state = 1 ∧ 2 * 32768 + 1151 ∉ (passS 1 0).hl.snapMarks
    ∧ ((passS 2 0).unit 2 1151).state ≠ 1 ∧ base.hl.pass = false := by decide +kernel
/-- A pass over pipe 7 of VC 0, whose reserve has left service. -/
theorem test_wit_substitution_pipe : let s := { idleS with hl := { idleS.hl with
      pass := true, snap := [(3 * 32768 + 7, true)], units := [(3 * 32768 + 8, { UnitRec.factory 3 8 with state := 2 })] } }
    s.hl.snap = [(3 * 32768 + (9 * 0 + 7), true)] ∧ (s.unit 3 (9 * 0 + 8)).state ≠ 1 ∧ (9 * 0 + 7 < 19584)
      ∧ (s.unit 3 (9 * 0 + 7)).state = 0 ∧ s.policy ≠ 2 ∧ s.cmd.heldLoad = none := by decide +kernel

/-! Limits. -/

/-- A message that has waited at the head of port `p` since tick 4,000, with a limit of 97 ticks. -/
def headS (p : Nat) (w : InsWord) : State := { base with
  fl := [inFlight w .idle], ports := AL.put base.ports p { upPort p with txCred := 0, txq := [⟨.trigger 1 2, some 0, .spad, some (4000, 97)⟩] } }
/-- A STREAM that waits for a tile of port 5 since tick 4,000. -/
def intakeS : State := { base with fl := [inFlight wStream (.xpr ⟨⟨[], 0, 127, none, [], [], [], []⟩, ⟨[], 0, 127, none, [], [], [], []⟩, [0, 0, 0, 1], [0, 0, 0, 1], [], [], [], 4000, 97⟩)] }
theorem test_wit_limits : mayHalt base ∧ reachable (headS 0 wMerge) 4097 ∧ 0 ≤ (inFlight wMerge .idle).q.seq ∧
    (headS 0 wMerge).fl.find? (fun x => x.q.seq = 0) = some (inFlight wMerge .idle)
    ∧ earliest (headS 0 wMerge).stallWaits = some (4097, .head 0 (some 0) 4000)
    ∧ earliest intakeS.stallWaits = some (4097, .intake 5 0 4000)
    ∧ earliest (headS 32 wXferNet).xferWaits = some (4097, .head 32 (some 0) 4000)
    ∧ earliest sentS.xferWaits = some (84096, .req 0 ⟨some 0, true, 22, .write 3 11 4000 true, 4096, 80000⟩) := by
  unfold mayHalt reachable ticking; decide +kernel
/-- A request that no instruction waits for. -/
def expressS : State := { base with reqs := [⟨none, true, 22, .write 3 11 4000 true, 4096, 80000⟩] }
theorem test_wit_limits_alone : reachable expressS 84096 ∧ earliest expressS.xferWaits = some (84096, .req 0 ⟨none, true, 22, .write 3 11 4000 true, 4096, 80000⟩)
    ∧ (expressS.port 22).txq = [] := by unfold reachable ticking; decide +kernel
theorem test_wit_limits_waits :
    ((trigS 4000 97).fl.find? (fun f => some f.q.seq = (trigItem 4000 97).owner)).isSome = true ∧ mayHalt (trigS 4000 97)
    ∧ reachable (trigS 4000 97) ((trigItem 4000 97).since.toNat + (trigItem 4000 97).limit)
    ∧ (inFlight wWait (.trigWait 2 1 4096 80000)).prog = .trigWait 2 1 4096 80000 ∧ (inFlight wClaim (.claim 4096 20000)).prog = .claim 4096 20000
    ∧ reachable base ((4096 : W64).toNat + 80000) ∧ reachable base ((4096 : W64).toNat + 20000) := by
  unfold mayHalt reachable ticking; decide +kernel
/-- A COLLECT that waits for its first chunk. -/
def collP : CollProg := ⟨0, 1, 4096, 80000, [], [], 0⟩
theorem test_wit_limits_chunk : (inFlight wCollect (.coll collP)).prog = .coll collP ∧ collP.next < collP.count
    ∧ (inFlight wCollect (.coll collP)).q.w.aux64.toNat % 2 ^ 20 + collP.next < 2 ^ 20 ∧ reachable base (collP.since.toNat + collP.limit) := by
  unfold reachable ticking; decide +kernel
theorem test_wit_limits_held : let x : HeldChunk := ⟨none, 22, { hdr9 with chunk := 1 }, pay, 4000, 97⟩
    let s := { sYard with yd := { sYard.yd with slots := [(5, { slot5 with nchM1 := 1 })], held := [x] } }
    s.yd.held = [x] ∧ s.mustHold x.hdr = true ∧ s.fl = [] ∧ reachable s (x.since.toNat + x.limit) ∧ x.owner = none ∧ (s.port x.port).state = 2 :=
  ⟨rfl, by decide +kernel, rfl, by unfold reachable ticking; decide +kernel, rfl, by decide +kernel⟩
theorem test_wit_limits_watchdog : let s := { base with job := { base.job with wdog := 0xFFFFFFFFFF } }
    mayHalt s ∧ s.job.wdog ≠ 0 ∧ s.job.wdogDone = false ∧ reachable s (s.job.launch.toNat + s.job.wdog.toNat) ∧ base.job.wdog = 0 := by
  unfold mayHalt reachable ticking; decide +kernel
theorem test_wit_limits_none : base.stallWaits = [] ∧ base.xferWaits = [] ∧ base.yd.trigs = [] ∧ base.waitWaits = [] ∧ base.claimWaits = []
    ∧ base.yd.held = [] ∧ base.holdWaits = [] ∧ base.chunkWaits = [] ∧ base.tr.pend.length ≤ 1024 := by decide +kernel
theorem test_wit_limits_trace : let late := fun (s : State) => s.tr.pend.filter (fun r => decide (256 ≤ r.age))
    late base = [] ∧ late { base with tr := { base.tr with pend := [⟨4000, 3, 1, 256, false⟩, ⟨4096, 3, 1, 255, false⟩] } } = [⟨4000, 3, 1, 256, false⟩] := by decide +kernel
/-- The watchdog during a KILL, in WAITING, and after it has fired; nothing is due after the waits that are due have ended. -/
theorem test_wit_limits_kill : let s := { base with job := { base.job with wdog := 9, kill := some [0] } }
    s.job.state = 4 ∧ s.ft.halting = none ∧ s.job.kill.isSome = true ∧ s.job.wdog ≠ 0 ∧ s.job.wdogDone = false ∧ reachable s (s.job.launch.toNat + s.job.wdog.toNat)
      ∧ ({ s.job with wdogDone := true } : Job).wdogDone = true := by unfold reachable ticking; decide +kernel
theorem test_wit_limits_first : firstDue limitActs (trigS 4000 96).expire = none ∧ (∃ t, firstDue limitActs (trigS 4000 96) = some t)
    ∧ firstDue dueActs base.settle = none :=
  ⟨none_of (by decide +kernel), Option.isSome_iff_exists.mp (by decide +kernel), none_of (by decide +kernel)⟩
/-- What acts before a write or a chunk of the same tick: an instruction completes, and nothing is left. -/
theorem test_wit_limits_arrival : firstDue limitActs busy = none ∧ (∃ t, firstDue arriveActs busy = some t)
    ∧ firstDue limitActs busy.beforeArrival = none ∧ firstDue arriveActs busy.beforeArrival = none :=
  ⟨none_of (by decide +kernel), Option.isSome_iff_exists.mp (by decide +kernel), none_of (by decide +kernel), none_of (by decide +kernel)⟩

/-! ### Ill-formed commands -/

theorem test_wf_word : Instr.wf (.nop (word 1 0)) = false ∧ Instr.wf (.nop (word 0 0)) = true
    ∧ Instr.wf (.binary (word 0x11 0)) = false ∧ Instr.wf (.halt (word 0x7F 0)) = true := by decide +kernel
theorem test_wf_data : Instr.wf (.data 0 [1]) = false ∧ Instr.wf (.data 0 (List.replicate 8 1)) = true := by decide +kernel
theorem test_wf_data_long (b : Byte) : Instr.wf (.data 0 (List.replicate 8192 b)) = false := by
  show (true && decide ((List.replicate 8192 b).length % 8 = 0 ∧ (List.replicate 8192 b).length ≤ 8 * 1023)) = false
  rw [List.length_replicate]; decide
theorem test_wf_imageData : Instr.wf (.imageData ⟨0, 0⟩ [1]) = false ∧ Instr.wf (.imageData ⟨0, 0⟩ (List.replicate 8 1)) = true := by decide +kernel
theorem test_wf_accTile : Instr.wf (.accTile 2 0 []) = false := by decide +kernel
theorem test_wf_rwrite : Instr.wf (.rwrite 22 ⟨0, 0, 0, false, 0, 0, 0⟩ []) = false
    ∧ Instr.wf (.rwrite 22 ⟨0, 0, 0, false, 0, 0, 0⟩ (List.replicate 33 0)) = false
    ∧ Instr.wf (.rwrite 22 ⟨0, 0, 0, false, 0, 0, 0⟩ [1]) = true := by decide +kernel
theorem test_wf_chunk : Instr.wf (.chunk 22 hdr9 []) = false := by decide +kernel
theorem test_wf_mresp (h : MrespHdr) (a : h.ack = true) : Instr.wf (.mresp 6 h [1]) = false ∧ Instr.wf (.mresp 6 h []) = true := by
  simp [Instr.wf, Instr.word?, a]
theorem test_wf_mresp_line (h : MrespHdr) (a : h.ack = false) : Instr.wf (.mresp 6 h []) = false := by
  simp [Instr.wf, Instr.word?, a]
theorem test_wf_memorySelfTest : Instr.wf (.memorySelfTest [8704]) = false ∧ Instr.wf (.memorySelfTest [8703]) = true := by decide
theorem test_wf_latticeSelfTest : Instr.wf (.latticeSelfTest [(1152, 0)]) = false ∧ Instr.wf (.latticeSelfTest [(1151, 0)]) = true := by decide
theorem test_wf_patrol : Instr.wf (.patrol 0 [⟨3, true, false⟩, ⟨3, false, false⟩] 0) = false ∧ Instr.wf (.patrol 0 [] 3) = false
    ∧ Instr.wf (.patrol 0 [⟨3, true, false⟩, ⟨4, false, true⟩] 4) = true := by decide
theorem test_wf_samples : Instr.wf (.monitorWindow [⟨0, 1, 5⟩]) = false ∧ samplesOk [⟨1, 68, 5⟩, ⟨1, 1, 5⟩] = false := by decide
theorem test_wf_temps : Instr.wf (.governorInterval ⟨⟨0, 1⟩, ⟨0, 1⟩, ⟨0, 1⟩, ⟨0, 1⟩, ⟨0, 1⟩⟩ [(128, 0)]) = false := by decide
theorem test_wf_messageDrop : Instr.wf (.messageDrop 0 0 [1]) = false ∧ Instr.wf (.messageDrop 0 0 []) = true := by decide

/-! ### Words written out from 02 Table 2.2, one or more of each family -/

theorem test_word_tfence : (InsWord.ofBits 0x100#256).toInstr = .tfence (word 0 1) := by decide
theorem test_word_alui : (InsWord.ofBits (0xFFFFFFFFFFFFFFFB#256 <<< 128 ||| 0x430002#256)).toInstr =
    .sAlui { word 2 0 with dst := 3, sa := 1, aux64 := 0xFFFFFFFFFFFFFFFB } := by decide
theorem test_word_spld : (InsWord.ofBits (0x10#256 <<< 96 ||| 0x1051004#256)).toInstr = .spld { word 4 0x10 with dst := 5, sa := 4, imm32 := 0x10 } := by
  decide
theorem test_word_binary : (InsWord.ofBits (1#256 <<< 192 ||| 1#256 <<< 57 ||| 0x1010#256 <<< 40 ||| 0x30810010#256)).toInstr =
    .binary { word 0x10 0 with dst := 1, sa := 2, sb := 3, sfmt := 1, ftz := true, ovl := true, start40 := 1 } := by decide
theorem test_word_halt : (InsWord.ofBits (7#256 <<< 96 ||| 0x7F#256)).toInstr = .halt { word 0x7F 0 with imm32 := 7 } := by decide
theorem test_word_rows : ([0x04, 0x1004, 0x05, 0x06, 0x07, 0x08, 0x109, 0x0A, 0x0B, 0x0C, 0x28, 0x20, 0x21, 0x22, 0x122, 0x123, 0x30, 0x138, 0x40, 0x142,
    0x149, 0x150, 0x258, 0x160, 0x1E2, 0x162, 0x68, 0x69] : List Nat).map (fun b => let w := InsWord.ofBits (BitVec.ofNat 256 b)
      (w.opc.toNat, w.fn.toNat)) = [(4, 0), (4, 0x10), (5, 0), (6, 0), (7, 0), (8, 0), (9, 1), (0xA, 0), (0xB, 0), (0xC, 0), (0x28, 0), (0x20, 0), (0x21, 0),
      (0x22, 0), (0x22, 1), (0x23, 1), (0x30, 0), (0x38, 1), (0x40, 0), (0x42, 1), (0x49, 1), (0x50, 1), (0x58, 2), (0x60, 1), (0xE2, 1), (0x62, 1),
      (0x68, 0), (0x69, 0)] := by decide +kernel

/-! ### The spec's worked examples -/

/-- 02, "Predicates and edge lanes": 256 × 128 BF16 at 0x0040_0000, tensor id 0x0123. -/
theorem test_example_descriptor : let d := Desc.ofBits (0x00048C0000000000_0000000000008000_00000000001FE000_FE81000000400000#256)
    (d.at_, d.fmt, d.n 0, d.n 1, d.hi) = (0x400000, 1, 128, 256, 0x410000) := by decide +kernel
/-- 03 R125: into E4M3 under RNE. -/
theorem test_example_e4m3 : [roundTo 3 false rNE true false 0 (ofF32 0x3E99999A#32), roundTo 3 false rNE true false 0 (.ofInt 464),
    roundTo 3 false rNE true false 0 (.ofInt 470), roundTo 3 false rNE false false 0 (.ofInt 470), roundTo 3 false rNE true false 0 (ofF32 0x3A83126F#32)] =
    [(0x2A, flNX), (0x7E, flNX), (0x7E, flOF ||| flNX), (0x7F, flOF ||| flNX), (0x01, flUF ||| flNX)] := by decide +kernel
/-- 03 R124: 1 + 2^−9 + 2^−12 into BF16 under SR. -/
theorem test_example_sr : [0xB000, 0xC000].map (fun r => (roundTo 1 false rSR false false r ((Val.ofInt 4105).scale (-12))).1) = [0x3F80, 0x3F81] := by
  decide +kernel
/-- 03 R110: MXFP6 E2M3. -/
theorem test_example_mxfp6 : [(Val.ofInt 3).scale (-1), (Val.ofInt (-1)).scale (-2), (Val.ofInt 15).scale (-1), (Val.ofInt 1).scale (-3)].map
    (fun v => (roundTo 8 false rNE true false 0 v).1) = [0x0C, 0x22, 0x1F, 0x01] := by decide +kernel
/-- 03 R128 to R130: amax 100.0 into MXFP8 E4M3. -/
theorem test_example_scaleByte : scaleByte ((Val.ofInt 100).scaleL) 5 false = 0x7D ∧ (roundTo 5 false rNE true false 0 (.ofInt 400)).1 = 0x7C
    ∧ (roundTo 5 false rNE true false 0 ((ofF32 0xC0533333#32).scale 2)).1 = 0xD5 := by decide +kernel
/-- 03 Table 3.8: history 3.0, 5.5, 9.0, 14.0, margin 1. -/
theorem test_example_forecast : fcstL [1, 2, 3, 3] 1 = 5 ∧ scaleByte 5 3 false = 0x7C ∧ scaleByte 3 3 false = 0x7A ∧ scaleByte 4 3 false = 0x7B := by
  decide +kernel
/-- 03 R142: the three combined scales. -/
theorem test_example_combined : [applyScale (.ofInt 3) 0xF0 0x90 false false, applyScale (.ofInt 3) 0xF0 0x90 true false,
    applyScale (.ofInt 3) 0x0B 0x6B false false, applyScale ((Val.ofInt 3).scale (-1)) 0x01 0x10 false false] =
    [(0x7F800000#32, flOF ||| flNX ||| flCsOvf), (0x7F7FFFFF#32, flOF ||| flNX ||| flCsOvf), (0x6000#32, 0), (0#32, flUF ||| flNX ||| flCsUf)] := by
  decide +kernel
/-- 04 R164: 1.0 + 2^−8 into BF16. -/
theorem test_example_add : [(rNE, 0), (rTZ, 0), (rUP, 0), (rSR, 0x7FFF), (rSR, 0x8000)].map
    (fun p => (roundTo 1 false p.1 false false p.2 ((Val.ofInt 257).scale (-8))).1) = [0x3F80, 0x3F80, 0x3F81, 0x3F80, 0x3F81] := by decide +kernel
/-- 05 R206: [2^24, 1, 1, 1, 1]. -/
theorem test_example_tree : (tree (addX false false) [some 0x4B800000, some 0x3F800000, some 0x3F800000, some 0x3F800000, some 0x3F800000]).1 =
    some 0x4B800002 := by decide +kernel
/-- 05, DISPATCH: four tokens, two slots, three experts. -/
theorem test_example_dispatch : (dispatchEntries 3 [(0, 1), (1, 0), (2, 1), (3, 2), (4, 1), (5, 0), (6, 2), (7, 1)] []).map (·.2) =
    [some (1, 0), some (0, 0), some (1, 1), some (2, 0), some (1, 2), some (0, 1), some (2, 1), some (1, 3)] := by decide +kernel
/-- 08: BLOCKED FP32 100 × 300 at 0x0100_0000; AINT BF16 at 0x0080_0000; BINT BF16 1,024 × 128. -/
theorem test_example_layouts : (Desc.ofBits (laid 1 (desc 0x1000000 0 [100, 300] [32768]))).bitAddr ⟨70, 265, 0, 0⟩ = 8 * 0x1022498
    ∧ (Desc.ofBits (laid 2 (desc 0x800000 1 [128, 256] [512]))).bitAddr ⟨37, 19, 0, 0⟩ = 8 * 0x80123A
    ∧ (Desc.ofBits (laid 3 (desc 0 1 [1024, 128] [16384]))).bitAddr ⟨517, 70, 0, 0⟩ = 8 * 0x2811A := by decide +kernel
/-- 10 R432: the six writes to window 4 of chip 9, at C = 2^40 + 0x100. -/
theorem test_example_window : let x : Window := { Window.init with openTs := 2 ^ 39 + 1000, closeTs := 2 ^ 40 + 0x100, sndLo := 8, sndHi := 8, linesM1 := 4095, drain := 1600 }
    [codeOf { x with closeTs := 2 ^ 40 + 0x100 } 0xFFFFFFFFD4 8 0x7FF80 128 (2 ^ 40 + 0x100 - 40) false, codeOf x 0x100 8 0 128 (2 ^ 40 + 0x10A) false,
      codeOf x 0xFB 8 0x80000 128 (2 ^ 40 + 0x164) false, codeOf x 0xEC 7 0x100 128 (2 ^ 40 + 0x3BC) false,
      codeOf x 0xFF 8 0x180 128 (2 ^ 40 + 0x100 + 1599) false, codeOf x 0xFF 8 0x200 128 (2 ^ 40 + 0x100 + 1600) false] = [0, 1, 2, 3, 0, 4] := by
  decide +kernel

/-! ### One step -/

/-- What a field of the next state is. -/
def after {α : Type} (o : Host.Outcome State Fault Refusal) (f : State → α) : Option α :=
  match o with
  | .next t => some (f t)
  | _ => none
/-- 1.0 + 2.0 in the first element of d2 and d3, and 0.0 elsewhere. -/
theorem test_step_add : after (exec (.binary wAdd) (withB (withB (vecs 0) 0x2000 [0, 0, 0x80, 0x3F]) 0x3000 [0, 0, 0, 0x40]))
    (fun t => (t.sp.mem.readLE 0x1000 4, t.sp.mem.readLE 0x1004 4)) = some (0x40400000, 0) := by decide +kernel
/-- 03 Table 3.6: 1.5 into BF16. -/
theorem test_step_cvt : after (exec (.tCvt wCvt) (withB sCvt 0x2000 [0, 0, 0xC0, 0x3F])) (fun t => t.sp.mem.readLE 0x1000 2) = some 0x3FC0 := by
  decide +kernel
/-- Table 3.5 and R118: max + max under RNE, 3 − 3 under RDN, −0 − +0, −0 × 2, and −2^−100 × 2^−40 as FP16. -/
theorem test_step_floats : [(flS 0 0x7F7FFFFF 0x7F7FFFFF, flW 0 0 0), (flS 0 0x40400000 0x40400000, flW 1 2 0), (flS 0 0x80000000 0, flW 1 0 0),
      (flS 0 0x80000000 0x40000000, flW 2 0 0), (flS 2 0x8D800000 0x2B800000, flW 2 0 2)].map
    (fun p => after (exec (.binary p.2) p.1) (fun t => t.sp.mem.readLE 0x1000 4)) =
      [some 0x7F800000, some 0x80000000, some 0x80000000, some 0x80000000, some 0x8000] := by decide +kernel
/-- R359 and R360: one block of two lines, of which the second is poisoned at its source. -/
def blkS : State := let s := withD base [desc 0x1000 0 [64], desc 0x2000 0 [64], desc 0x3000 11 [1]]
  { s with sp := { s.sp with poison := [(0x2080, 7)] } }
theorem test_step_blocks : [.tGath { wGath with aux64 := 1009 }, ({ wScat with aux64 := 1009 } : InsWord).toInstr].map
    (fun i => after (exec i blkS) (fun t => (t.psn 0x1000, t.psn 0x1080))) = [some (true, true), some (true, true)] := by decide +kernel
/-- R601: the port that renegotiates owes no tile. -/
theorem test_step_confirm : after (exec (.confirm 2 (jointMode 2 (ownCap 2))) owedS) (fun t => (t.xp.discard, (t.port 2).rxFree, (t.port 2).rxOut)) =
    some ([], 16, 0) := by decide +kernel
/-- R549: the PROFILE's error completion, then the answers of STATUS and LAUNCH. -/
theorem test_step_commandPortLost : [[KCmd.status 0], [.launch 0 0]].map (fun q => after (exec (.negotiationAttemptTimeout 33) (lastTryS q)) (fun t =>
    t.out.map (fun m => match m.msg with | .completion w _ => (m.port, w.extractLsb' 40 8, w.extractLsb' 48 16) | _ => (0, 0, 0)))) =
      [some [(33, 4, 0x6001), (33, 5, 0)], some [(33, 4, 0x6001), (33, 2, 0x6007)]] := by decide +kernel
theorem test_step_alu : after (exec (.sAlu { word 1 0 with dst := 3, sa := 1, sb := 2 }) (withS (withS base 1 7) 2 (-1))) (fun t => (t.getS 3, t.sb.pc)) =
    some (6, base.sb.pc + 32) := by decide +kernel
/-- 02 Table 2.9: a division by 0. -/
theorem test_step_div : after (exec (.sDiv { word 3 0 with dst := 3, sa := 1, sb := 2 }) (withS base 1 7)) (fun t => t.getS 3) =
    some (0xFFFFFFFFFFFFFFFF) := by decide +kernel
theorem test_step_store : after (exec (.sSt { word 5 1 with sa := 1, sb := 2, imm32 := 2 }) (withS (withS base 1 0x100) 2 0x12345678))
    (fun t => (t.sb.mem.readLE 0x102 2, t.sb.mem.readLE 0x104 2)) = some (0x5678, 0) := by decide +kernel
theorem test_step_reset : after (step { base with pending := [.reset, .pllLock] }) (fun t => (t.boot.phase, t.pending)) = some (.inReset, [.pllLock]) := by
  decide +kernel

/-! ### What a head of issue checks (HeadOfIssueChecks): a word that meets each premise -/

theorem test_wit_headOfIssue_all : (checksOf wAdd.toInstr).isSome = true ∧ ({ wAdd with commit := true, poisonOk := true } : InsWord).commit = true
    ∧ 5 ≤ ({ wAdd with rnd := 5 } : InsWord).rnd.toNat ∧ ({ wAdd with xs := 1 } : InsWord).xs ≠ 0 ∧ ({ wAdd with ys := 1 } : InsWord).ys ≠ 0
    ∧ ({ wHist with pred := 1 } : InsWord).opc.toNat = 0x22 ∧ ({ wMark with commit := true } : InsWord).opc.toNat ≠ 0x58
    ∧ ({ wMark with sc := 1, rnd := 1 } : InsWord).opc.toNat = 0x60
    ∧ ({ wAdd with dfmt := 1 } : InsWord).dfmt ≠ (entryOf (vecs 0) { wAdd with dfmt := 1 }).dst.format := by decide +kernel
/-- An operand off its alignment, past the yard's start, outside the scratchpad, of no shape; in a district out of service. -/
def badD (d : BitVec 256) : State := withD base [d, desc 0x2000 0 [4], desc 0x3000 0 [4]]
def dstOf (d : BitVec 256) : Desc := (entryOf (badD d) wAdd).dst
theorem test_wit_headOfIssue_operands : opOf wAdd.toInstr = some ewOp ∧ (entryOf (badD 0) wAdd).oDst ∈ ewOp.srcs (entryOf (badD 0) wAdd) ++ ewOp.outs (entryOf (badD 0) wAdd)
    ∧ (dstOf (laid 7 (desc 0x1000 0 [4]))).valid = false ∧ (dstOf (desc 0x1002 0 [4])).at_ % 4 ≠ 0 ∧ (dstOf (laid 1 (desc 0x1040 0 [4, 2] [1024]))).at_ % 128 ≠ 0
    ∧ belowYard base < (dstOf (desc (belowYard base - 12) 0 [4])).hi ∧ (dstOf (desc (belowYard base - 16) 0 [4])).hi = belowYard base
    ∧ (dstOf (desc 0x100000000000 0 [4])).inSpad = false ∧ limpS.svc.limp = true ∧ limpS.districtOk ((dstOf (desc 0x1000 0 [4])).groups.headD 1 / 2) = false := by
  refine ⟨rfl, by simp [ewOp, plainOp], by decide +kernel⟩
theorem test_wit_headOfIssue_issued : wAdd.toInstr = .binary wAdd ∧ wAdd.fn.toNat ≤ 7 ∧ wAdd.aux64.toNat % 4 = 0 ∧ wAdd.dfmt.toNat ≤ 4 ∧ wAdd.sfmt.toNat ≤ 4
    ∧ (vecs 0).svc.limp = false := by decide +kernel
/-- The words of the element-wise, reduction and routing rows that break a rule of their class, with what they break. -/
theorem test_wit_headOfIssue_compute : let bad := withD base [desc 0x1000 0 [4, 2] [4], desc 0x2000 0 [4], desc 0x3000 0 [4]]
    (entryOf bad wNeg).sa.sameShape (entryOf bad wNeg).dst = false ∧ 2 < ({ wExp with dfmt := 3 } : InsWord).dfmt.toNat
    ∧ ({ wEq with fn := 5, sat := true } : InsWord).fn.toNat % 128 ≤ 5 ∧ (entryOf bad wCvt).sa.sameShape (entryOf bad wCvt).dst = false
    ∧ ({ wCvt with fn := 8 } : InsWord).fn.getLsbD 3 = true ∧ ({ wCvt with fn := 8 } : InsWord).sat = false ∧ ({ wRed with imm32 := 16 } : InsWord).imm32.toNat % 16 = 0
    ∧ 8 ≤ ({ wRed with fn := 8 } : InsWord).fn.toNat % 128 ∧ 6 ≤ ({ wRed with fn := 6, sat := true } : InsWord).fn.toNat % 128
    ∧ 5 ≤ ({ wSmax with sfmt := 5 } : InsWord).sfmt.toNat ∧ (ofF32 ({ wNorm with imm32 := 0x7FC00000 } : InsWord).imm32).isNan = true
    ∧ 32 < ({ wTopk with imm32 := 33 } : InsWord).imm32.toNat % 256 ∧ (entryOf sTopk { wTopk with imm32 := 5 }).sa.n 0 < 5
    ∧ (entryOf (mats 11) wHist).dst.rank ≠ 0 ∧ (3 : Nat) ≠ (entryOf sDisp { wDisp with imm32 := 3 }).dst.n 0
    ∧ (entryOf (mats 0) wDot).dst.n 0 ≠ (entryOf (mats 0) wDot).sb.n 1 ∧ 2 ≤ ({ wDot with fn := 8 } : InsWord).fn.toNat / 4 % 4 ∧ base.cfg.profile ≠ 2
    ∧ ({ wStream with xs := 0 } : InsWord).xs = 0 ∧ (entryOf (mats 1) wMerge).dst.fmt ≠ 0 := by decide +kernel
/-- Those of the movement, transfer, window, trigger, group and yard rows. -/
theorem test_wit_headOfIssue_move : (entryOf (vecs 0) wGath).sb.fmt ≠ 11 ∧ ({ wCopy with dfmt := 1 } : InsWord).dfmt ≠ (entryOf (vecs 0) { wCopy with dfmt := 1 }).dst.format
    ∧ (entryOf (vecs 0) wXfer).sa.inSpad = (entryOf (vecs 0) wXfer).dst.inSpad
    ∧ (entryOf (withD base [desc 0x100000000000 0 [32], desc 0x2000 0 [64]]) wXfer).sa.sameShape (entryOf (withD base [desc 0x100000000000 0 [32], desc 0x2000 0 [64]]) wXfer).dst = false
    ∧ (entryOf (withD base [0, laid 1 (desc 0x2000 0 [64])]) wOffl).sa.layout ≠ 0 ∧ (entryOf (vecs 0) wRecord).sb.fmt ≠ 11
    ∧ (entryOf (withD base [0, 0, desc 0x3008 11 [4, 2] [4]]) wRecord).sb.at_ % 16 ≠ 0 ∧ ({ wOpen with ovl := true } : InsWord).ovl = true
    ∧ (0x0080090000000000 : W64).toNat / 2 ^ 52 < (0x0080090000000000 : W64).toNat / 2 ^ 40 % 4096 ∧ (entryOf (vecs 0) wOpen).dst.fmt ≠ 11
    ∧ (entryOf (withD base [desc 0x4020 11 [32, 4] [32]]) wOpen).dst.at_ % 128 ≠ 0 ∧ 32 ≤ ({ wClose with imm32 := 32 } : InsWord).imm32.toNat
    ∧ ({ wBarrier with imm32 := 1 } : InsWord).imm32.toNat ≠ 0 ∧ 16 ≤ ({ wWait with imm32 := 16 } : InsWord).imm32.toNat
    ∧ 256 ≤ ({ wPost with imm32 := 256 } : InsWord).imm32.toNat ∧ 256 < 255 + 1 + 1 ∧ belowYard base < (248 + 0 + 1) * 2 ^ 21
    ∧ base.job.manifest.groups.getLsbD 2 = false ∧ (entryOf (vecs 0) wClaim).sa.fmt ≠ 11
    ∧ ({ wContrib with imm32 := 0x7000B } : InsWord).aux64.toNat / 2 ^ 40 % 256 = 0 ∧ (0x7000B % 4096 : Nat) ≠ base.job.chipId.toNat
    ∧ (0x70009 % 4096 : Nat) = base.job.chipId.toNat ^^^ 1 ∧ (entryOf (withD base [laid 1 (desc 0x1000 0 [4])]) wCollect).dst.layout ≠ 0
    ∧ 512 ≤ ({ wRelease with imm32 := 512 } : InsWord).imm32.toNat ∧ ({ wRelease with imm32 := 0x105 } : InsWord).imm32.toNat.testBit 8 = true := by
  decide +kernel
theorem test_wit_headOfIssue_noPort : ¬ anyNet { base with ports := [] } ∧ (({ base with ports := [] } : State).port 30).state ≠ 2 := by
  refine ⟨fun ⟨p, _, _, h⟩ => ?_, by decide +kernel⟩
  have : (({ base with ports := [] } : State).port p).state = 0 := by rfl
  rw [this] at h; cases h
/-- What fails first, in the words above: a reserved rounding mode, another format, a base off its alignment, a range past the yard. -/
theorem test_headOfIssue_codes : [failing (vecs 0) { wAdd with rnd := 5 }, failing (vecs 0) { wAdd with dfmt := 1 }, failing (badD (desc 0x1002 0 [4])) wAdd,
    failing (badD (desc (belowYard base - 12) 0 [4])) wAdd, failing sSpad { wDown with imm32 := 248 }, failing (vecs 0) wAdd].map (·.map (·.1)) =
      [some 0x1001, some 0x1002, some 0x2002, some 0x2001, some 0x2001, none] := by decide +kernel
/-- LIMP, and a bank of the first district of slot 0's frames has left service. -/
def limpYardS : State := { limpS with hl := { limpS.hl with units :=
  [(32768 + 68 * (limpS.leafAddr 0 0 0 / 2 ^ 22), { UnitRec.factory 1 (68 * (limpS.leafAddr 0 0 0 / 2 ^ 22)) with state := 2 })] } }
theorem test_wit_headOfIssue_yard : limpYardS.svc.limp = true ∧ (0 : Nat) < limpYardS.yardSlots ∧ (0 : Nat) < limpYardS.yardFrames
    ∧ limpYardS.districtOk (limpYardS.leafAddr 0 0 0 / 2 ^ 22) = false ∧ limpYardS.districtOk 0 = true := by decide +kernel
/-- A STREAM that stores over the network, with no port in service. -/
theorem test_wit_headOfIssue_net : let w := { wStream with fn := 12 }
    ((entryOf { base with ports := [] } w).streams.map (·.kind)).contains 3 = true ∧ w.toInstr = .stream w := by decide +kernel

/-! Fields that a row or a form does not use, limit fields and W1C bits, and the last address in LIMP. -/

/-- One word each, with IMM32, AUX64, SAT, FTZ, RND, PRED, SB or OVL set where the row or its form does not use it. -/
def strayWords : List InsWord :=
  [{ word 0x10 0 with imm32 := 1 }, { word 0x11 0 with aux64 := 1 }, { word 0x12 0 with aux64 := 0x100000000 }, { word 0x13 0 with sat := true },
   { word 0x10 8 with ftz := true }, { word 0x28 0 with imm32 := 1 }, { word 0x20 6 with sat := true }, { word 0x23 0 with aux64 := 1 },
   { word 0x21 0 with aux64 := 8 }, { word 0x22 0 with sat := true }, { word 0x22 1 with imm32 := 1 }, { word 0x22 2 with ftz := true },
   { word 0x30 0 with imm32 := 1 }, { word 0x38 0 with imm32 := 1 }, { word 0x38 1 with sat := true }, { word 0x40 0 with imm32 := 1 },
   { word 0x41 0 with ftz := true }, { word 0x42 0 with sat := true }, { word 0x48 0 with imm32 := 1 }, { word 0x49 0 with aux64 := 1 },
   { word 0x50 0 with sat := true }, { word 0x50 1 with aux64 := 1 }, { word 0x58 0 with ftz := true }, { word 0x58 1 with aux64 := 0x100000 },
   { word 0x58 2 with imm32 := 0x100 }, { word 0x58 3 with aux64 := 1 }, { word 0x58 4 with aux64 := 0x2000000000000 }, { word 0x59 0 with sat := true },
   { word 0x59 1 with ftz := true }, { word 0x60 0 with aux64 := 1 }, { word 0x60 1 with imm32 := 1 }, { word 0x60 2 with sat := true },
   { word 0x68 0 with aux64 := 1 }, { word 0x70 0 with imm32 := 1 }]
theorem test_wit_headOfIssue_stray : (∀ w ∈ strayWords, stray w (rowBits w (entryOf base w) base)) ∧ ¬ stray wAdd (rowBits wAdd (entryOf (vecs 0) wAdd) (vecs 0))
    ∧ (∀ w ∈ strayWords, (failing base w).map (·.1) = some 0x1001) := by unfold stray; decide +kernel
/-- An SPLD at the last address in LIMP: of a district out of service, and of one in service. -/
def lastLimp : State := { limpS with sb := { limpS.sb with pc := 0x7FFE0 } }
theorem test_wit_scalarFaults_lastLimp : issues lastLimp ∧ ¬ room lastLimp ∧ districtGone lastLimp spldW ∧ ¬ districtGone lastLimp { spldW with imm32 := 0x400000 }
    ∧ after (exec (.spld spldW) lastLimp) (fun t => t.ft.code) = some 0x2004
    ∧ after (exec (.spld { spldW with imm32 := 0x400000 }) lastLimp) (fun t => t.ft.code) = some 0x1003 := by
  unfold issues room districtGone; decide +kernel
theorem test_wit_registerFields : canReach base .job ∧ canReach (inState 7) .kpc ∧ ¬ jobActive (inState 7) ∧ listens (inState 7) ∧ room base ∧ reg 1
    ∧ jobWritable 0x600 = true ∧ ¬ waitsForArray 0x600 ∧ empty base := by
  unfold canReach listens settled issues jobActive room reg waitsForArray empty; decide +kernel
/-- Zero stands for the reset value of a limit, not of nack1_limit, slew_ppm or step_limit (Table 14.5). -/
theorem test_registerFields :
    [0x300, 0x600, 0x608, 0x708].map (fun o => after (exec (.registerWrite .job (BitVec.ofNat 21 o) 0) base) (fun t => t.readReg .job o)) =
      [some 400000, some 1600, some (BitVec.ofNat 64 (40000 * 2 ^ 40 + 80000 * 2 ^ 20 + 8000)), some (BitVec.ofNat 64 (80000 * 2 ^ 24 + 20000))]
    ∧ after (exec (.registerWrite .kpc 0x2008 0) (inState 7)) (fun t => t.readReg .kpc 0x2008) = some (BitVec.ofNat 64 (4194304 * 2 ^ 24))
    ∧ after (exec (.registerWrite .job 0x1FF8 7) base) (fun t => (t.readReg .job 0x1FF8, t.readReg .job 0x1080)) = some (7, 0) := by decide +kernel
theorem test_wit_launch_selectors : after (exec (.launch 4096 0) { inState 2 with bankJ := { (inState 2).bankJ with faultLog := 5 }, yd := { (inState 2).yd with evts := [(3, ⟨1, true, true, 9⟩)] } })
    (fun t => ((t.readReg .job 0x3028).toNat % 64, (List.range 16).all (fun c => t.readReg .job (0x780 + 8 * c) = 0))) = some (0, true) := by decide +kernel

/-! What waits for the scrub (R402), moves of the yard off the chip and within it, and a spare that has failed. -/

theorem unscrubbed_zero {s : State} {l : Nat} (a : s.sp.scrubRun = true) (b : 0 ∈ s.sp.scrubOn) (c : s.sp.scrubWm = 0) (h : l / 2 ^ 21 = 0) :
    unscrubbed s l := ⟨a, h ▸ b, by rw [c]; exact Nat.zero_le _⟩
theorem test_wit_yardChunks_scrub : let s := scrubbing wholeS
    let d := (readyEntry s wCollect).dst
    startsClean s wCollect collectOp ∧ d.inSpad = true ∧ s.sp.suspects = [] ∧ s.sp.psnLines = [] ∧ 1 ≤ s.yd.waitTicks.toNat ∧ wCollect.commit = false
      ∧ ∃ x ∈ d.ixs.take 1024, ∃ l, holds d x l ∧ unscrubbed s l :=
  ⟨startsClean_of rfl (by decide +kernel), by decide +kernel, by decide +kernel, by decide +kernel, by decide +kernel, rfl,
    ⟨⟨0, 0, 0, 0⟩, by decide +kernel, 0x1000, by unfold holds; decide +kernel, unscrubbed_zero rfl (by decide) rfl (by decide)⟩⟩
/-- The destination of the COLLECT in window 1 of chip 11, and of the peer. -/
def remoteS (base_ : Nat) : State := withD wholeS [desc base_ 0 [4], desc 0x2000 0 [4]]
theorem test_wit_yardChunks_remote : startsClean (remoteS 0x300B00000000) { wCollect with imm32 := 1 } collectOp
    ∧ startsClean (remoteS 0x300900000000) wCollect collectOp :=
  ⟨startsClean_of rfl (by decide +kernel), startsClean_of rfl (by decide +kernel)⟩
def remoteD (a : Nat) : Desc := (readyEntry (remoteS a) wCollect).dst
theorem test_wit_yardChunks_remote_dst : ∀ a ∈ [0x300B00000000, 0x300900000000], (remoteD a).region = some .remote ∧ (remoteD a).valid = true
    ∧ (remoteD a).hi ≤ 2 ^ 48 ∧ (remoteD a).ixs.map (remoteD a).bitAddr = (List.range 4).map (fun k => 8 * a + 32 * k) ∧ (remoteD a).w = 32
    ∧ (remoteS a).peerDst (remoteD a) = decide (a = 0x300900000000) := by decide +kernel
/-- Slot 6 of the own yard is free for slot 5's chunk. -/
def wFwdOwn : InsWord := { wFwd with imm32 := 0x70008 }
def twoSlots : State := { wholeS with yd := { wholeS.yd with slots := wholeS.yd.slots ++ [(6, slot5)] } }
def hdrOwn : ChunkHdr := ⟨0, 6, 0, 1, false, 0, 7, 8, twoSlots.stamp40, 0, 0⟩
theorem test_wit_yardChunks_fwdOwn : startsClean twoSlots wFwdOwn fwdOp ∧ wFwdOwn.imm32.toNat % 2 ^ 12 = twoSlots.job.chipId.toNat
    ∧ wFwdOwn.aux64.toNat / 2 ^ 20 % 2 ^ 20 = 0 ∧ wFwdOwn.aux64.extractLsb' 56 8 ≠ wFwdOwn.ys ∧ ¬ heldBack twoSlots hdrOwn
    ∧ refuseOf twoSlots hdrOwn = 0 ∧ twoSlots.scrubChunk hdrOwn = false ∧ twoSlots.memOk = true ∧ (frameAt twoSlots 6 0).nodes = []
    ∧ 0 < (twoSlots.slot 6).frames.length :=
  ⟨startsClean_of rfl (by decide +kernel), by decide +kernel, by decide +kernel, by decide +kernel, by unfold heldBack; decide +kernel,
    by decide +kernel, by decide +kernel, by decide +kernel, by decide +kernel, by decide +kernel⟩

/-- A tile whose line the scrub has not reached, and one that meets a STREAM which waits for its feed's lines. -/
def tileF : Inflight := streamF 0 (desc 0x1000 0 [4, 2] [4]) [stC0]
def ones : List W32 := List.replicate 1024 0x3F800000
theorem test_wit_accTile_scrub : let s := scrubbing (streamAt tileF)
    AL.getD s.xp.discard 2 0 = 0 ∧ s.xprInFlight = some tileF ∧ tileNumber tileF.q 0 = some (false, 0) ∧ (streamX tileF).kind = 0
      ∧ chainSmx (streamX tileF).chain = false ∧ ones.length = 1024
      ∧ (let h := tileOf tileF.q false 0 ones
         (match tileF.prog with
          | .xpr g => decide (g.waiting = [] ∧ 0 < g.granted.getD 0 0 ∧ (g.stream false).next.getD 0 0 = 0 ∧ (g.stream false).lines = []
              ∧ g.st0.run + g.st1.run < (tileF.q.streams.map XStream.tiles).sum
              ∧ (placedOf s tileF.q g (streamX tileF) h (s.steps tileF.q (streamX tileF) h 0 16 (s.tileElems tileF.q (streamX tileF) h))).map (·.1.i0)
                  = [0, 1, 2, 3, 0, 1, 2, 3])
          | _ => false) = true)
      ∧ holds (streamX tileF).d ⟨0, 0, 0, 0⟩ 0x1000 ∧ s.sp.scrubRun = true ∧ 0 ∈ s.sp.scrubOn ∧ s.sp.scrubWm = 0 := by
  unfold holds; decide +kernel
theorem test_accTile_scrub : let s := scrubbing (streamAt tileF)
    after (exec (.accTile 2 0 ones) s) (fun t => (t.xp.tiles, t.sp.mem.readLE 0x1000 4)) = some (1, 0)
    ∧ (match exec (.accTile 2 0 ones) s with
       | .next t => after (exec .scrubComplete t) (fun u => u.sp.mem.readLE 0x1000 4)
       | _ => none) = some 0x3F800000 := by decide +kernel
theorem test_wit_accTile_feedScrub : let s := scrubbing (streamAt { tileF with prog := .scrub })
    AL.getD s.xp.discard 2 0 = 0 ∧ s.xprInFlight = some { tileF with prog := .scrub } ∧ mayHalt s := by unfold mayHalt; decide +kernel
/-- The last line of a reload has come, and DST lies where the scrub has not been. -/
theorem test_wit_mresp_scrub : let s := scrubbing (readS [0x100000000000] [])
    ∃ x ∈ (readyEntry sIn wReld).dst.ixs, ∃ l, holds (readyEntry sIn wReld).dst x l ∧ unscrubbed s l :=
  ⟨⟨0, 0, 0, 0⟩, by decide +kernel, 0x2000, by unfold holds; decide +kernel, unscrubbed_zero rfl (by decide) rfl (by decide)⟩
/-- ZERO of groups 2 and 3, which waits for the scrub, and a patrol read of group 2 behind it. -/
def zeroF : Inflight := ⟨{ sSpad.entry wZero [] with readyAt := some 4096 }, 4096, none, false, false, [], .scrub⟩
def zeroScrub : State := { scrubbing (withB sSpad 0x400008 [5, 6]) with
  fl := [zeroF], xf := { sSpad.xf with parked := [.patrol (128 * (0x8001 : BitVec 22).toNat) [⟨0, true, false⟩] 0] } }
theorem test_wit_scrub_zero : zeroScrub.sp.scrubRun = true ∧ zeroScrub.tq = [] ∧ zeroScrub.sb.wait = none ∧ zeroScrub.sb.waitReg = none
    ∧ zeroScrub.cmd.heldLoad = none ∧ zeroScrub.job.state = 4 ∧ zeroScrub.sp.suspects = [] ∧ zeroF.q.w.toInstr = .zero zeroF.q.w
    ∧ zeroF.q.w.commit = false ∧ (0x8001 : BitVec 22).toNat / 2 ^ 14 ∈ spadGroups zeroF.q.w
    ∧ zeroScrub.groupOn ((0x8001 : BitVec 22).toNat / 2 ^ 14) = true := by decide +kernel
theorem test_scrub_zero : after (exec .scrubComplete zeroScrub) (fun t => (t.sp.mem.read 0x400008, t.psn 0x400080, t.xf.parked.length)) = some (0, true, 0) := by
  decide +kernel
/-- The pass over a reserve DPU that has failed, and the end of a scrub that begins one. -/
def spareS : State := { idleS with hl := { idleS.hl with
  pass := true, snap := [(2 * 32768 + 1151, true)], units := [(2 * 32768 + 1151, { UnitRec.factory 2 1151 with failed := true })] } }
theorem test_wit_substitution_spare : spareS.hl.pass = true ∧ spareS.hl.snap = [(2 * 32768 + 1151, true)] ∧ (spareS.unit 2 1151).state = 1
    ∧ spareS.cmd.heldLoad = none ∧ (∃ e ∈ spareS.hl.units, e.2.failed = true ∧ e.2.state ≠ 2) := by decide +kernel
theorem test_substitution_spare : after (exec .substitutionPassEnd spareS) (fun t => ((t.unit 2 1151).state, t.ft == spareS.ft)) = some (2, true)
    ∧ after (exec .scrubComplete { scrubbing (inState 8) with hl := { spareS.hl with pass := false, snap := [] } }) (fun t => (t.job.state, t.hl.pass, t.hl.snap)) =
      some (0, true, [(2 * 32768 + 1151, true)]) := by decide +kernel
/-- Of two triggers that wait, the second, with the lower limit, ends first; an answer of another chip ends no write. -/
theorem test_wit_limits_second : let x : TrigItem := { trigItem 4000 97 with limit := 20000 }
    let s := { trigS 4000 97 with yd := { (trigS 4000 97).yd with trigs := [x, trigItem 4000 97] } }
    earliest s.trigWaits = some ((trigItem 4000 97).since.toNat + (trigItem 4000 97).limit, trigItem 4000 97) := by decide +kernel
theorem test_wit_answer_chip (r : Req) : ¬ answersReq sentS 22 (answerW 0 + BitVec.ofNat 64 (2 ^ 44)) r := by
  rintro ⟨⟨_, h⟩, pre, post, e, _⟩
  have m : r ∈ [(⟨some 0, true, 22, .write 3 11 4000 true, 4096, 80000⟩ : Req)] := by
    show r ∈ sentS.reqs
    rw [e]; simp
  rw [List.mem_singleton] at m
  subst m
  revert h; decide +kernel
/-- DST over SA in another format of its width, element upon element: no value is freed (R167). -/
theorem test_coincides : let s := withD base [desc 0x2000 0 [4], desc 0x2000 11 [4]]
    (readyEntry s wNeg).misread [(readyEntry s wNeg).oSa] [(readyEntry s wNeg).oDst] = false := by decide +kernel
end Sys2Proof.Tests
end

section
/-! PROOFS. Scope (00): every command that a sender can form is taken (O18), and the encoding checks at head of issue (O17). -/

open Sys2Proof Sys2Proof.Machine Sys2Proof.Claims

namespace Sys2Proof.Proofs

/-! ### Which rows present an instruction word -/

/-- The command that presents a word at the head of issue carries that word. -/
theorem word?_toInstr (w : InsWord) : w.toInstr.word? = some w := by
  unfold InsWord.toInstr
  dsimp only
  repeat' split
  all_goals rfl

/-- A tensor row is `tensorRow` with its own checks, its AUX64 descriptors and its class. -/
theorem exec_tensorRow {c : Instr} {w : InsWord} {chk : QEntry → State → List Flt} {op : TOp} (hw : c.word? = some w)
    (hc : checksOf c = some chk) (ho : opOf c = some op) (s : State) : exec c s = tensorRow c w s (auxOf c) chk op := by
  cases c <;> cases hc <;> cases hw <;> cases ho <;> rfl

/-- A row with checks at head of issue is a tensor row and has a class. -/
theorem opOf_of_checksOf {c : Instr} {chk : QEntry → State → List Flt} (hc : checksOf c = some chk) : ∃ op, opOf c = some op := by
  cases c <;> cases hc <;> exact ⟨_, rfl⟩

/-- A scalar row does what `instrRow` does first. -/
theorem exec_scalarRow {c : Instr} {w : InsWord} (hw : c.word? = some w) (hc : checksOf c = none) (s : State) :
    ∃ k, exec c s = instrRow c w s k := by
  cases c <;> cases hc <;> cases hw <;> (dsimp only [exec]; exact ⟨_, rfl⟩)

/-- Every instruction row does what `instrRow` does first. -/
theorem exec_instrRow {c : Instr} {w : InsWord} (hw : c.word? = some w) (s : State) : ∃ k, exec c s = instrRow c w s k := by
  cases hc : checksOf c with
  | none => exact exec_scalarRow hw hc s
  | some chk =>
    obtain ⟨op, ho⟩ := opOf_of_checksOf hc
    rw [exec_tensorRow hw hc ho]
    exact ⟨_, rfl⟩

/-- A row without an instruction word always answers a next state. -/
theorem exec_of_no_word {c : Instr} (h : c.word? = none) (s : State) : ∃ t, exec c s = .next t := by
  cases c <;> cases h <;> exact ⟨_, rfl⟩

theorem canIssue_iff_issues (s : State) : s.canIssue = true ↔ issues s := State.canIssue_iff s

/-- A word of its row is taken, whether or not the signal box can issue. -/
theorem instrRow_taken {i : Instr} {w : InsWord} (hw : w.toInstr = i) (s : State) (k : State → State) :
    ∃ t, instrRow i w s k = .next t := by
  cases hs : s.canIssue with
  | true => exact ⟨_, instrRow_next hw hs k⟩
  | false => exact ⟨_, instrRow_idle hw hs k⟩

theorem toInstr_of_wf {c : Instr} {w : InsWord} (hc : c.wf = true) (h : c.word? = some w) : w.toInstr = c := by
  simp only [Instr.wf, h, Bool.and_eq_true] at hc
  exact of_decide_eq_true hc.1

/-- Settles O18: a row without a word answers a next state by its definition, and a row with one goes through `instrRow`, which stops
only for a word of another row and leaves a signal box that cannot issue as it is. -/
theorem everyFormedCommandIsTaken : Obligations.EveryFormedCommandIsTaken := by
  constructor
  · intro c s hc
    cases h : c.word? with
    | none => exact exec_of_no_word h s
    | some w =>
      obtain ⟨k, hk⟩ := exec_instrRow h s
      rw [hk]
      exact instrRow_taken (toInstr_of_wf hc h) s k
  · intro s w hs
    have hs' : s.canIssue = false := by
      rw [← Bool.not_eq_true, canIssue_iff_issues]; exact hs
    obtain ⟨k, hk⟩ := exec_instrRow (word?_toInstr w) s
    rw [hk]
    exact instrRow_idle rfl hs' k

/-! ### Where a halt fault stops the signal box -/

/-- A halt fault leaves the signal box's registers and its memory alone. -/
theorem raiseHaltAs_sb {s : State} (hs : issues s) (seq : Nat) (sr : W32) (pc : BitVec 19) (code : Nat) (info : W64) :
    { (s.raiseHaltAs seq sr pc code info).sb with wait := none, waitReg := none, pc := 0 }
      = { s.sb with wait := none, waitReg := none, pc := 0 } := by
  obtain ⟨-, -, -, hh, hk⟩ := id hs
  exact congrArg State.sb (State.raiseHaltAs_sansHalt (State.active_of_canIssue ((canIssue_iff_issues s).mpr hs)) hk hh
    seq sr pc code info)

/-- A halt fault at the PC of a signal box that issues stops it there. -/
theorem raiseHaltAs_stops {s : State} (hs : issues s) (seq : Nat) (sr : W32) (code : Nat) (info : W64) :
    stops s (s.raiseHaltAs seq sr s.sb.pc code info) (BitVec.ofNat 16 code) info := by
  have ha := State.active_of_canIssue ((canIssue_iff_issues s).mpr hs)
  have hsb := raiseHaltAs_sb hs seq sr s.sb.pc code info
  obtain ⟨-, -, -, hh, hk⟩ := hs
  obtain ⟨hv, hp, hc, hi, ht, -⟩ := State.raiseHaltAs_ft ha hk hh seq sr s.sb.pc code info
  simp only [SigBox.mk.injEq] at hsb
  refine ⟨hv, hc, hi, hp, ht, by simp only [hsb], by simp only [hsb], by simp only [hsb], by simp only [hsb], by simp only [hsb], ?_⟩
  rintro ⟨hf, hq⟩
  obtain ⟨hj, hb, hsp, -, htq, hfl, -⟩ := State.raiseHaltAs_halts ha hk hh hf hq seq sr s.sb.pc code info
  exact ⟨by rw [hj]; rfl, by rw [hb], hsp, hfl, htq⟩

/-- A scalar instruction's fault stops the signal box at it (R44). -/
theorem raiseScalar_stops {s : State} (hs : issues s) (code : Nat) (info : W64) :
    stops s (s.raiseScalar code info) (BitVec.ofNat 16 code) info :=
  raiseHaltAs_stops (s := { s with freeCtr := s.freeCtr + 1 }) hs _ _ code info

/-- A tensor instruction's fault at head of issue stops the signal box at it (R44). -/
theorem raiseIssue_stops {s : State} (hs : issues s) (f : Flt) : stops s (s.raiseIssue f) (BitVec.ofNat 16 f.1) f.2 :=
  raiseHaltAs_stops hs _ _ f.1 f.2

/-! ### Reserved bits in a word of any row (R12) -/

/-- The reserved bits of a word (Table 2.2). -/
def reserved (w : InsWord) : BitVec 6 × BitVec 13 × BitVec 24 := (w.res0, w.res1, w.res2)

/-- A word that differs from `w` in used fields alone is not blank when `w` has a reserved bit set. -/
theorem unused_of_reserved {w b : InsWord} (hw : reserved w ≠ 0) (hb : reserved b = reserved w) : unused b = true := by
  have : b ≠ InsWord.blank := by
    rintro rfl
    exact hw hb.symm
  simpa [unused] using this

/-- Clearing a used field under a condition leaves the reserved bits alone. -/
theorem reserved_clear_if {c : Prop} [Decidable c] {a b w : InsWord} (ha : reserved a = reserved b) (hb : reserved b = reserved w) :
    reserved (if c then a else b) = reserved w := by
  split
  · exact ha.trans hb
  · exact hb

/-- A tensor row's checks raise 0x1001 for every word with a reserved bit set. -/
def RejectsReserved (chk : QEntry → State → List Flt) : Prop :=
  ∀ q s, reserved q.w ≠ 0 → firstFlt (chk q s) = some (0x1001, q.w.low64)

/-- A failed encoding check raises 0x1001 also where nothing else is checked. -/
theorem firstFlt_illegal_alone {w : InsWord} : firstFlt (illegal w true) = some (0x1001, w.low64) := by
  simpa using firstFlt_illegal (w := w) (rest := [])

/-- Every tensor row's checks begin with one of the word whose used fields are cleared (R36): its reserved bits are still there. -/
theorem checksOf_rejectsReserved {c : Instr} {chk : QEntry → State → List Flt} (hc : checksOf c = some chk) :
    RejectsReserved chk := by
  intro q s h
  have hu : ∀ b, reserved b = reserved q.w → unused b = true := fun _ => unused_of_reserved h
  unfold checksOf at hc
  split at hc <;> cases hc
  all_goals
    simp only [ewChk, cvtChk, tRedChk, redChk, normChk, topkChk, histChk, dispChk, smaxChk, lseChk, dotChk, xpChk, xpBadWord,
      copyChk, gsChk, xferChk, offlChk, openChk, winChk, claimChk, contribChk, collectChk, releaseChk, fwdChk, postChk, waitChk,
      barrierChk, windowChk, markChk, spadChk, genChk, List.append_assoc]
    rw [hu]
    · simp only [Bool.or_true, Bool.true_or, firstFlt_illegal, firstFlt_illegal_alone]
    · repeat refine reserved_clear_if rfl ?_
      rfl

/-! ### Encoding checks of the scalar rows -/

/-- A scalar word that is an illegal instruction (R36, R37, R45, R47, R58). -/
def Misencoded (w : InsWord) : Prop :=
  fnListed w.opc.toNat w.fn.toNat = false ∨ dirty w ∨ (∃ r ∈ scalarRegs w, 32 ≤ r.toNat)
    ∨ (w.opc = 8 ∧ (w.fn = 2 ∨ w.fn = 3) ∧ 12 < w.imm32.toNat) ∨ (w.opc = 9 ∧ (w.dst = 0 ∨ 15 < w.dst.toNat))

/-- The word with every field cleared that Table 2.3 has its instruction use. -/
@[simp] def unusedPart (w : InsWord) : InsWord :=
  let u := uses w.opc.toNat w.fn.toNat
  { w with opc := 0, fn := 0, dst := if u.1 then 0 else w.dst, sa := if u.2.1 then 0 else w.sa, sb := if u.2.2.1 then 0 else w.sb,
           imm32 := if u.2.2.2.1 then 0 else w.imm32, aux64 := if u.2.2.2.2 then 0 else w.aux64 }

theorem dirty_iff (w : InsWord) : dirty w ↔ unusedPart w ≠ InsWord.blank := by
  rw [← not_iff_not, not_not]
  simp only [dirty, unusedPart, InsWord.blank, InsWord.mk.injEq, not_or, not_and, ite_eq_left_iff, Bool.not_eq_true, not_not, true_and,
    ne_eq]
  tauto

/-- The field id of DSETF and DGETF and the predicate of S.PSET are in range (R47, R58). -/
@[simp] def fieldsInRange (w : InsWord) : Prop :=
  (w.opc = 8 → (w.fn = 2 ∨ w.fn = 3) → w.imm32.toNat ≤ 12) ∧ (w.opc = 9 → 1 ≤ w.dst.toNat ∧ w.dst.toNat ≤ 15)

/-- Some register field of the list names no scalar register (R37). -/
def namesBadReg (regs : List (BitVec 6)) : Prop := ∃ r ∈ regs, 32 ≤ r.toNat

theorem any_badReg_iff (regs : List (BitVec 6)) : regs.any badReg = true ↔ namesBadReg regs := by
  simp [namesBadReg, badReg]

theorem misencoded_iff_listed (w : InsWord) : Misencoded w ↔
    ¬ (fnListed w.opc.toNat w.fn.toNat = true ∧ fieldsInRange w) ∨ dirty w ∨ namesBadReg (scalarRegs w) := by
  have h0 : w.dst = 0 ↔ w.dst.toNat = 0 := BitVec.toNat_eq
  unfold Misencoded fieldsInRange namesBadReg
  rw [h0]
  grind

/-- A field that a clean word does not use is zero. -/
theorem dst_eq_zero_of_clean {w : InsWord} (h : ¬ dirty w) (hu : (uses w.opc.toNat w.fn.toNat).1 = false) : w.dst = 0 :=
  not_not.mp fun hd => h (.inl ⟨hu, hd⟩)
theorem sa_eq_zero_of_clean {w : InsWord} (h : ¬ dirty w) (hu : (uses w.opc.toNat w.fn.toNat).2.1 = false) : w.sa = 0 :=
  not_not.mp fun hd => h (.inr (.inl ⟨hu, hd⟩))

/-- s0 is a scalar register. -/
theorem namesBadReg_zero_iff (regs : List (BitVec 6)) : namesBadReg (0 :: regs) ↔ namesBadReg regs := by simp [namesBadReg]
theorem namesBadReg_append_zero (r : BitVec 6) : namesBadReg [r, 0] ↔ namesBadReg [r] := by simp [namesBadReg]

theorem fn_eq_zero_iff (f : Byte) : f = 0#8 ↔ f.toNat = 0 := BitVec.toNat_eq

/-- What an SPLD checks besides its encoding (R543). -/
def districtFaults (s : State) (w : InsWord) : List Flt := if w.opc = 4 ∧ w.fn = 0x10 then s.spldDistrict w else []

/-- The opcodes of S.BR, S.JMP and HALT, which go to no next address. -/
def leavesLine (w : InsWord) : Prop := w.opc = 6 ∨ w.opc = 7 ∨ w.opc = 0x7F

/-- The row of a scalar word makes an encoding check, and it fails exactly for an illegal word; then come R543's check and R33's. -/
def ChecksEncoding (w : InsWord) : Prop :=
  ∃ bad : Bool, (bad = true ↔ Misencoded w) ∧ ∀ s, issues s →
    (∃ k, exec w.toInstr s = .next (scalarRun (illegal w bad ++ districtFaults s w) s k))
      ∨ (leavesLine w ∧ ∃ k, exec w.toInstr s = .next (branchRun (illegal w bad) s k))

section

/-! A row's encoding check `scalarEnc w ok rest regs`, where `ok` says that FN and the fields in range are those of Table 2.3, and for
such a word `rest` clears the fields that the instruction uses and `regs` are its register fields. -/

variable {w rest : InsWord} {i : Instr} {ok : Bool} {regs : List (BitVec 6)}
variable (hok : ok = true ↔ fnListed w.opc.toNat w.fn.toNat = true ∧ fieldsInRange w) (hrest : ok = true → rest = unusedPart w)
  (hregs : ok = true → ¬ dirty w → (namesBadReg regs ↔ namesBadReg (scalarRegs w)))
include hok hrest hregs

/-- Such a check fails exactly for the words that are illegal. -/
theorem encodingCheck_iff : (!ok || unused rest || regs.any badReg) = true ↔ Misencoded w := by
  rw [misencoded_iff_listed, ← hok, Bool.or_eq_true, Bool.or_eq_true, any_badReg_iff]
  cases ok with
  | false => simp
  | true =>
    have hd : unused rest = true ↔ dirty w := by rw [hrest rfl, dirty_iff]; simp [unused]
    rw [hd]
    by_cases h : dirty w
    · simp [h]
    · simp [h, hregs rfl h]

/-- A row that goes on to the next address, with the check `more` after that of its encoding. -/
theorem checksEncoding_of_scalarRun_append {more : State → List Flt} (hw : w.toInstr = i) (hm : ∀ s, districtFaults s w = more s)
    (hx : ∀ s, ∃ k, exec i s = instrRow i w s (fun s => scalarRun (scalarEnc w ok rest regs ++ more s) s k)) :
    ChecksEncoding w := by
  refine ⟨_, encodingCheck_iff hok hrest hregs, fun s h => .inl ?_⟩
  obtain ⟨k, hk⟩ := hx s
  rw [hw, hk, instrRow_next hw ((canIssue_iff_issues s).mpr h), hm]
  exact ⟨k, rfl⟩

/-- A row that goes on to the next address, and is no SPLD. -/
theorem checksEncoding_of_scalarRun (hw : w.toInstr = i) (hs : ¬ (w.opc = 4 ∧ w.fn = 0x10))
    (hx : ∀ s, ∃ k, exec i s = instrRow i w s (fun s => scalarRun (scalarEnc w ok rest regs) s k)) : ChecksEncoding w :=
  checksEncoding_of_scalarRun_append (more := fun _ => []) hok hrest hregs hw (fun _ => if_neg hs)
    (by simpa only [List.append_nil] using hx)

/-- A row of S.BR, S.JMP or HALT. -/
theorem checksEncoding_of_branchRun (hw : w.toInstr = i) (hb : leavesLine w)
    (hx : ∀ s, ∃ k, exec i s = instrRow i w s (fun s => branchRun (scalarEnc w ok rest regs) s k)) : ChecksEncoding w := by
  refine ⟨_, encodingCheck_iff hok hrest hregs, fun s h => .inr ⟨hb, ?_⟩⟩
  obtain ⟨k, hk⟩ := hx s
  rw [hw, hk, instrRow_next hw ((canIssue_iff_issues s).mpr h)]
  exact ⟨k, rfl⟩

end

/-- The opcodes of Table 2.3. -/
def scalarOpcs : List Byte := [0, 1, 2, 3, 4, 5, 6, 7, 8, 9, 0xA, 0xB, 0xC, 0x7F]

/-- A word of an opcode that no table lists is taken by the row of NOP, and no function of it is listed (R45). -/
theorem toInstr_of_unlisted {w : InsWord} (h : scalarOpc w.opc.toNat = true) (hl : w.opc ∉ scalarOpcs) :
    w.toInstr = .nop w ∧ ∀ f, fnListed w.opc.toNat f = false := by
  simp only [scalarOpcs, List.mem_cons, BitVec.toNat_eq, List.not_mem_nil, or_false, not_or, BitVec.reduceToNat] at hl
  simp only [scalarOpc, tensorOpcs, Bool.not_eq_true', List.contains_eq_mem, decide_eq_false_iff_not, List.mem_cons,
    List.not_mem_nil, or_false, not_or] at h
  constructor
  · unfold InsWord.toInstr
    split
    case h_38 => rfl
    all_goals omega
  · intro f
    unfold fnListed
    split
    case h_15 => rfl
    all_goals omega

theorem unlisted_checksEncoding {w : InsWord} (h : scalarOpc w.opc.toNat = true) (hl : w.opc ∉ scalarOpcs) : ChecksEncoding w := by
  obtain ⟨hw, hf⟩ := toInstr_of_unlisted h hl
  have h0 : w.opc ≠ 0#8 := by rintro e; simp [e, scalarOpcs] at hl
  have h4 : w.opc ≠ 4#8 := by rintro e; simp [e, scalarOpcs] at hl
  refine checksEncoding_of_scalarRun ?_ ?_ ?_ hw ?_ (fun _ => ⟨_, rfl⟩) <;> simp [h0, h4, hf]

/-- OPC 0x00: S.SYS. -/
theorem sys_checksEncoding {w : InsWord} (ho : w.opc = 0) : ChecksEncoding w := by
  by_cases h1 : w.fn = 1#8
  · refine checksEncoding_of_scalarRun (i := .tfence w) ?_ ?_ ?_ ?_ ?_ (fun _ => ⟨_, rfl⟩) <;>
      simp [InsWord.toInstr, ho, h1, fnListed, uses, scalarRegs]
  by_cases h2 : w.fn = 2#8
  · refine checksEncoding_of_scalarRun (i := .ifence w) ?_ ?_ ?_ ?_ ?_ (fun _ => ⟨_, rfl⟩) <;>
      simp [InsWord.toInstr, ho, h2, fnListed, uses, scalarRegs]
  have n1 : w.fn.toNat ≠ 1 := by bv_omega
  have n2 : w.fn.toNat ≠ 2 := by bv_omega
  refine checksEncoding_of_scalarRun (i := .nop w) ?_ ?_ ?_ ?_ ?_ (fun _ => ⟨_, rfl⟩) <;>
    simp [InsWord.toInstr, ho, n1, n2, fnListed, uses, scalarRegs, fn_eq_zero_iff]
  omega

/-- OPC 0x01: S.ALU. -/
theorem alu_checksEncoding {w : InsWord} (ho : w.opc = 1) : ChecksEncoding w := by
  refine checksEncoding_of_scalarRun (i := .sAlu w) ?_ ?_ ?_ ?_ ?_ (fun _ => ⟨_, rfl⟩) <;>
    simp [InsWord.toInstr, ho, fnListed, uses, scalarRegs]

/-- OPC 0x02: S.ALUI. -/
theorem alui_checksEncoding {w : InsWord} (ho : w.opc = 2) : ChecksEncoding w := by
  refine checksEncoding_of_scalarRun (i := .sAlui w) ?_ ?_ ?_ ?_ ?_ (fun _ => ⟨_, rfl⟩) <;>
    simp [InsWord.toInstr, ho, fnListed, uses, scalarRegs]

/-- OPC 0x03: S.DIV. -/
theorem div_checksEncoding {w : InsWord} (ho : w.opc = 3) : ChecksEncoding w := by
  refine checksEncoding_of_scalarRun (i := .sDiv w) ?_ ?_ ?_ ?_ ?_ (fun _ => ⟨_, rfl⟩) <;>
    simp [InsWord.toInstr, ho, fnListed, uses, scalarRegs]

/-- OPC 0x05: S.ST. -/
theorem st_checksEncoding {w : InsWord} (ho : w.opc = 5) : ChecksEncoding w := by
  refine checksEncoding_of_scalarRun (i := .sSt w) ?_ ?_ ?_ ?_ ?_ (fun _ => ⟨_, rfl⟩) <;>
    simp [InsWord.toInstr, ho, fnListed, uses, scalarRegs]

/-- OPC 0x06: S.BR. -/
theorem br_checksEncoding {w : InsWord} (ho : w.opc = 6) : ChecksEncoding w := by
  refine checksEncoding_of_branchRun (i := .sBr w) ?_ ?_ ?_ ?_ ?_ (fun _ => ⟨_, rfl⟩) <;>
    simp [InsWord.toInstr, ho, fnListed, uses, scalarRegs, leavesLine]

/-- OPC 0x07: S.JMP. -/
theorem jmp_checksEncoding {w : InsWord} (ho : w.opc = 7) : ChecksEncoding w := by
  by_cases h2 : w.fn = 2#8
  · refine checksEncoding_of_branchRun (i := .sJmp w) ?_ ?_ ?_ ?_ ?_ (fun _ => ⟨_, rfl⟩) <;>
      simp [InsWord.toInstr, ho, h2, fnListed, uses, scalarRegs, leavesLine]
  have n2 : w.fn.toNat ≠ 2 := by bv_omega
  refine checksEncoding_of_branchRun (i := .sJmp w) ?_ ?_ ?_ ?_ ?_ (fun _ => ⟨_, rfl⟩) <;>
    simp [InsWord.toInstr, ho, h2, n2, fnListed, uses, scalarRegs, leavesLine]
  intro _ hd
  rw [sa_eq_zero_of_clean hd (by simp [ho, uses, n2]), namesBadReg_zero_iff]

/-- OPC 0x08: S.DESC. -/
theorem desc_checksEncoding {w : InsWord} (ho : w.opc = 8) : ChecksEncoding w := by
  by_cases h1 : w.fn = 1#8
  · refine checksEncoding_of_scalarRun (i := .dsto w) ?_ ?_ ?_ ?_ ?_ (fun _ => ⟨_, rfl⟩) <;>
      simp [InsWord.toInstr, ho, h1, fnListed, uses, scalarRegs]
  by_cases h2 : w.fn = 2#8
  · refine checksEncoding_of_scalarRun (i := .dsetf w) ?_ ?_ ?_ ?_ ?_ (fun _ => ⟨_, rfl⟩) <;>
      simp [InsWord.toInstr, ho, h2, fnListed, uses, scalarRegs]
  by_cases h3 : w.fn = 3#8
  · refine checksEncoding_of_scalarRun (i := .dgetf w) ?_ ?_ ?_ ?_ ?_ (fun _ => ⟨_, rfl⟩) <;>
      simp [InsWord.toInstr, ho, h3, fnListed, uses, scalarRegs]
  by_cases h0 : w.fn = 0#8
  · refine checksEncoding_of_scalarRun (i := .dld w) ?_ ?_ ?_ ?_ ?_ (fun _ => ⟨_, rfl⟩) <;>
      simp [InsWord.toInstr, ho, h0, fnListed, uses, scalarRegs]
  have n0 : w.fn.toNat ≠ 0 := by bv_omega
  have n1 : w.fn.toNat ≠ 1 := by bv_omega
  have n2 : w.fn.toNat ≠ 2 := by bv_omega
  have n3 : w.fn.toNat ≠ 3 := by bv_omega
  refine checksEncoding_of_scalarRun (i := .dld w) ?_ ?_ ?_ ?_ ?_ (fun _ => ⟨_, rfl⟩) <;>
    simp [InsWord.toInstr, ho, n1, n2, n3, h0, h2, h3, fnListed, uses, scalarRegs]
  omega

/-- OPC 0x09: S.PSET. -/
theorem pset_checksEncoding {w : InsWord} (ho : w.opc = 9) : ChecksEncoding w := by
  refine checksEncoding_of_scalarRun (i := .sPset w) ?_ ?_ ?_ ?_ ?_ (fun _ => ⟨_, rfl⟩) <;>
    simp [InsWord.toInstr, ho, fnListed, uses, scalarRegs, fn_eq_zero_iff]

/-- OPC 0x0A: S.TICK. -/
theorem tick_checksEncoding {w : InsWord} (ho : w.opc = 0xA) : ChecksEncoding w := by
  by_cases h1 : w.fn = 1#8
  · refine checksEncoding_of_scalarRun (i := .getep w) ?_ ?_ ?_ ?_ ?_ (fun _ => ⟨_, rfl⟩) <;>
      simp [InsWord.toInstr, ho, h1, fnListed, uses, scalarRegs]
  by_cases h2 : w.fn = 2#8
  · refine checksEncoding_of_scalarRun (i := .setep w) ?_ ?_ ?_ ?_ ?_ (fun _ => ⟨_, rfl⟩) <;>
      simp [InsWord.toInstr, ho, h2, fnListed, uses, scalarRegs]
  have n1 : w.fn.toNat ≠ 1 := by bv_omega
  have n2 : w.fn.toNat ≠ 2 := by bv_omega
  refine checksEncoding_of_scalarRun (i := .now w) ?_ ?_ ?_ ?_ ?_ (fun _ => ⟨_, rfl⟩) <;>
    simp [InsWord.toInstr, ho, n1, n2, fnListed, uses, scalarRegs, fn_eq_zero_iff]
  omega

/-- OPC 0x0B: S.REG. -/
theorem reg_checksEncoding {w : InsWord} (ho : w.opc = 0xB) : ChecksEncoding w := by
  by_cases h1 : w.fn = 1#8
  · refine checksEncoding_of_scalarRun (i := .sRegWreg w) ?_ ?_ ?_ ?_ ?_ (fun _ => ⟨_, rfl⟩) <;>
      simp [InsWord.toInstr, ho, h1, fnListed, uses, scalarRegs]
  have n1 : w.fn.toNat ≠ 1 := by bv_omega
  refine checksEncoding_of_scalarRun (i := .sRegRreg w) ?_ ?_ ?_ ?_ ?_ (fun _ => ⟨_, rfl⟩) <;>
    simp [InsWord.toInstr, ho, n1, fnListed, uses, scalarRegs, fn_eq_zero_iff]
  omega

/-- OPC 0x0C: S.STEP. -/
theorem step_checksEncoding {w : InsWord} (ho : w.opc = 0xC) : ChecksEncoding w := by
  by_cases h0 : w.fn = 0#8
  · refine checksEncoding_of_scalarRun (i := .sStep w) ?_ ?_ ?_ ?_ ?_ (fun _ => ⟨_, rfl⟩) <;>
      simp [InsWord.toInstr, ho, h0, fnListed, uses, scalarRegs]
    intro hd
    rw [dst_eq_zero_of_clean hd (by simp [ho, uses, h0]), namesBadReg_append_zero]
  by_cases h1 : w.fn = 1#8
  · refine checksEncoding_of_scalarRun (i := .sStep w) ?_ ?_ ?_ ?_ ?_ (fun _ => ⟨_, rfl⟩) <;>
      simp [InsWord.toInstr, ho, h1, fnListed, uses, scalarRegs]
    intro hd
    rw [sa_eq_zero_of_clean hd (by simp [ho, uses, h1]), namesBadReg_zero_iff]
  have n0 : w.fn.toNat ≠ 0 := by bv_omega
  have n1 : w.fn.toNat ≠ 1 := by bv_omega
  refine checksEncoding_of_scalarRun (i := .sStep w) ?_ ?_ ?_ ?_ ?_ (fun _ => ⟨_, rfl⟩) <;>
    simp [InsWord.toInstr, ho, h0, h1, n0, n1, fnListed, uses, scalarRegs]
  intro _ hd
  rw [sa_eq_zero_of_clean hd (by simp [ho, uses, n0, n1]), dst_eq_zero_of_clean hd (by simp [ho, uses, n0, n1]),
    namesBadReg_zero_iff, namesBadReg_zero_iff]

/-- OPC 0x7F: HALT. -/
theorem halt_checksEncoding {w : InsWord} (ho : w.opc = 0x7F) : ChecksEncoding w := by
  refine checksEncoding_of_branchRun (i := .halt w) ?_ ?_ ?_ ?_ ?_ (fun _ => ⟨_, rfl⟩) <;>
    simp [InsWord.toInstr, ho, fnListed, uses, scalarRegs, leavesLine, fn_eq_zero_iff]

/-- OPC 0x04: S.LD, and SPLD with its check of R543. -/
theorem ld_checksEncoding {w : InsWord} (ho : w.opc = 4) : ChecksEncoding w := by
  by_cases h16 : w.fn = 16#8
  · refine checksEncoding_of_scalarRun_append (i := .spld w) ?_ ?_ ?_ ?_ (fun _ => if_pos ⟨ho, h16⟩) (fun _ => ⟨_, rfl⟩) <;>
      simp [InsWord.toInstr, ho, h16, fnListed, uses, scalarRegs]
  have n16 : w.fn.toNat ≠ 16 := by bv_omega
  refine checksEncoding_of_scalarRun (i := .sLd w) ?_ ?_ ?_ ?_ ?_ (fun _ => ⟨_, rfl⟩) <;>
    simp [InsWord.toInstr, ho, h16, n16, fnListed, uses, scalarRegs]

/-- Every scalar word's row checks its encoding first. -/
theorem checksEncoding_of_scalarOpc {w : InsWord} (h : scalarOpc w.opc.toNat = true) : ChecksEncoding w := by
  by_cases hl : w.opc ∈ scalarOpcs
  · simp only [scalarOpcs, List.mem_cons, List.not_mem_nil, or_false] at hl
    rcases hl with ho | ho | ho | ho | ho | ho | ho | ho | ho | ho | ho | ho | ho | ho
    exacts [sys_checksEncoding ho, alu_checksEncoding ho, alui_checksEncoding ho, div_checksEncoding ho, ld_checksEncoding ho,
      st_checksEncoding ho, br_checksEncoding ho, jmp_checksEncoding ho, desc_checksEncoding ho, pset_checksEncoding ho,
      tick_checksEncoding ho, reg_checksEncoding ho, step_checksEncoding ho, halt_checksEncoding ho]
  · exact unlisted_checksEncoding h hl

/-! ### What the checks raise -/

theorem branchRun_bad {fs : List Flt} {s : State} {f : Flt} (hf : firstFlt fs = some f) (k : State → State) :
    branchRun fs s k = s.raiseScalar f.1 f.2 := by
  unfold branchRun; simp [hf]

/-- An illegal scalar word stops the signal box with 0x1001 (R12, R45). -/
theorem misencoded_stops {s : State} {w : InsWord} (hs : issues s) (ho : scalarOpc w.opc.toNat = true) (hm : Misencoded w) :
    ∃ t, exec w.toInstr s = .next t ∧ stops s t 0x1001 w.low64 := by
  obtain ⟨bad, hb, hx⟩ := checksEncoding_of_scalarOpc ho
  obtain rfl : bad = true := hb.mpr hm
  obtain ⟨k, hk⟩ | ⟨-, k, hk⟩ := hx s hs
  · rw [scalarRun_bad firstFlt_illegal] at hk
    exact ⟨_, hk, raiseScalar_stops hs _ _⟩
  · rw [branchRun_bad firstFlt_illegal_alone] at hk
    exact ⟨_, hk, raiseScalar_stops hs _ _⟩

/-- A well-formed scalar word that is no branch and no HALT runs R543's check and R33's before it acts. -/
theorem exec_of_wellEncoded {s : State} {w : InsWord} (hs : issues s) (ho : scalarOpc w.opc.toNat = true) (hm : ¬ Misencoded w)
    (hb : ¬ leavesLine w) : ∃ k, exec w.toInstr s = .next (scalarRun (districtFaults s w) s k) := by
  obtain ⟨bad, hbad, hx⟩ := checksEncoding_of_scalarOpc ho
  obtain rfl : bad = false := by rw [← Bool.not_eq_true, hbad]; exact hm
  exact (hx s hs).resolve_right fun h => hb h.1

theorem lt_yardBase_iff (s : State) (a : Nat) : a < s.yardBase ↔ a + s.cfg.active.yardMib.toNat * 2 ^ 20 < 2 ^ 29 := by
  unfold State.yardBase State.yardBytes Config.spadSize
  omega

theorem infoA_eq_infoAt (operand addr : Nat) (h : operand < 128) : infoA false operand 0 addr = infoAt operand addr := by
  simp [infoA, infoAt, Nat.mod_eq_of_lt h]

/-- R543's check, in the address of the load. -/
theorem spldDistrict_eq (s : State) (w : InsWord) : s.spldDistrict w =
    if addrOf s w % 8 = 0 ∧ addrOf s w < s.yardBase ∧ s.svc.limp = true ∧ s.districtOk (addrOf s w / 2 ^ 22) = false
    then [(0x2004, infoAt 7 (addrOf s w))] else [] := by
  have ha : (s.getS w.sa.toNat + simmOf w).toNat = addrOf s w := rfl
  unfold State.spldDistrict
  dsimp only
  rw [ha, infoA_eq_infoAt 7 _ (by decide)]
  simp [and_assoc]

theorem firstFlt_district (info : W64) : firstFlt [(0x2004, info)] = some (0x2004, info) := by
  simp [firstFlt, hoiOrder, lowestRole, formatA]

/-- R543's check of an SPLD fails exactly where its district is gone. -/
theorem districtFaults_of_gone {s : State} {w : InsWord} (h : districtGone s w) :
    districtFaults s w = [(0x2004, infoAt 7 (addrOf s w))] := by
  obtain ⟨ho, hf, hl, ha, hy, hd⟩ := h
  rw [districtFaults, if_pos ⟨ho, hf⟩, spldDistrict_eq, if_pos ⟨ha, (lt_yardBase_iff _ _).mpr hy, hl, hd⟩]

theorem districtFaults_of_held {s : State} {w : InsWord} (h : ¬ districtGone s w) : districtFaults s w = [] := by
  unfold districtFaults
  split
  · next hsp =>
    rw [spldDistrict_eq, if_neg]
    rintro ⟨ha, hy, hl, hd⟩
    exact h ⟨hsp.1, hsp.2, hl, ha, (lt_yardBase_iff _ _).mp hy, hd⟩
  · rfl

theorem nextBad_of_not_room {s : State} (h : ¬ room s) : s.nextBad = true := by
  unfold room at h
  exact decide_eq_true (by omega)

/-- At the last address a scalar row that checks nothing more raises 0x1003 (R33). -/
theorem scalarRun_lastAddress {s : State} (h : ¬ room s) (k : State → State) :
    scalarRun [] s k = s.raiseScalar 0x1003 (infoAt 5 (s.sb.pc.toNat + 32)) := by
  unfold scalarRun
  rw [firstFlt_nil, nextBad_of_not_room h, State.nextInfo, infoA_eq_infoAt 5 _ (by decide)]
  rfl

/-- A well-formed scalar word at the last address stops the signal box: with 0x2004 where its district is gone, else with 0x1003. -/
theorem lastAddress_stops {s : State} {w : InsWord} (hs : issues s) (hr : ¬ room s) (ho : scalarOpc w.opc.toNat = true)
    (hm : ¬ Misencoded w) (hb : ¬ leavesLine w) : ∃ t, exec w.toInstr s = .next t
      ∧ (districtGone s w → stops s t 0x2004 (infoAt 7 (addrOf s w)))
      ∧ (¬ districtGone s w → stops s t 0x1003 (infoAt 5 (s.sb.pc.toNat + 32))) := by
  obtain ⟨k, hk⟩ := exec_of_wellEncoded hs ho hm hb
  refine ⟨_, hk, fun hg => ?_, fun hg => ?_⟩
  · rw [districtFaults_of_gone hg, scalarRun_bad (firstFlt_district _)]
    exact raiseScalar_stops hs _ _
  · rw [districtFaults_of_held hg, scalarRun_lastAddress hr]
    exact raiseScalar_stops hs _ _

/-- The conditions of R33's clause leave no illegal word. -/
theorem not_misencoded {w : InsWord} (hl : fnListed w.opc.toNat w.fn.toNat = true) (hd : ¬ dirty w)
    (hg : ∀ r ∈ scalarRegs w, r.toNat < 32) (h8 : w.opc = 8 → 2 ≤ w.fn.toNat → w.imm32.toNat ≤ 12)
    (h9 : w.opc = 9 → 1 ≤ w.dst.toNat ∧ w.dst.toNat ≤ 15) : ¬ Misencoded w := by
  rw [misencoded_iff_listed]
  rintro (hn | hd' | ⟨r, hr, h32⟩)
  · refine hn ⟨hl, fun ho hf => h8 ho ?_, h9⟩
    obtain hf | hf := hf <;> simp [hf]
  · exact hd hd'
  · exact absurd (hg r hr) (by omega)

/-- A word of no scalar row belongs to a row with checks at head of issue. -/
theorem checksOf_of_not_scalarOpc {w : InsWord} (h : scalarOpc w.opc.toNat = false) : ∃ chk, checksOf w.toInstr = some chk := by
  have hm : w.opc.toNat ∈ tensorOpcs := by simpa [scalarOpc] using h
  simp only [tensorOpcs, List.mem_cons, List.not_mem_nil, or_false] at hm
  rcases hm with h | h | h | h | h | h | h | h | h | h | h | h | h | h | h | h | h | h | h | h | h | h | h <;>
    simp only [InsWord.toInstr, h]
  all_goals
    repeat' split
    all_goals exact ⟨_, rfl⟩

/-- A reserved bit in a tensor word stops the signal box with 0x1001. -/
theorem tensorReserved_stops {s : State} {w : InsWord} (hs : issues s) (ho : scalarOpc w.opc.toNat = false) (h : reserved w ≠ 0) :
    ∃ t, exec w.toInstr s = .next t ∧ stops s t 0x1001 w.low64 := by
  obtain ⟨chk, hc⟩ := checksOf_of_not_scalarOpc ho
  obtain ⟨op, hop⟩ := opOf_of_checksOf hc
  have hf := checksOf_rejectsReserved hc (s.entry w (auxOf w.toInstr)) s h
  rw [exec_tensorRow (word?_toInstr w) hc hop, tensorRow_bad rfl ((canIssue_iff_issues s).mpr hs) hf]
  exact ⟨_, rfl, raiseIssue_stops hs _⟩

theorem reserved_ne_zero {w : InsWord} (h : w.res0 ≠ 0 ∨ w.res1 ≠ 0 ∨ w.res2 ≠ 0) : reserved w ≠ 0 := by
  intro e
  simp only [reserved, Prod.mk_eq_zero] at e
  tauto

theorem dirty_of_reserved {w : InsWord} (h : reserved w ≠ 0) : dirty w :=
  (dirty_iff w).mpr fun e => h (congrArg reserved e)

/-- Settles O17: a scalar word's row checks its encoding before all else and a tensor word's with its first check, and R33's check is
the last one of a scalar row. -/
theorem scalarEncodingFaults : Obligations.ScalarEncodingFaults := by
  refine ⟨fun s w hs ho hm => misencoded_stops hs ho hm, ?_, ?_⟩
  · intro s w hs hr h6 h7 h7F ho hl hd hg h8 h9
    exact lastAddress_stops hs hr ho (not_misencoded hl hd hg h8 h9) (by rintro (h | h | h); exacts [h6 h, h7 h, h7F h])
  · intro s w hs h
    cases ho : scalarOpc w.opc.toNat with
    | true => exact misencoded_stops hs ho (.inr (.inl (dirty_of_reserved (reserved_ne_zero h))))
    | false => exact tensorReserved_stops hs ho (reserved_ne_zero h)

end Sys2Proof.Proofs
end

section
/-! SUPPORT. A tensor instruction that starts cleanly: what its head of issue has checked, that its whole effect is its class's `run`,
what such an effect leaves of the state, and what memory holds after elements are written. -/

open Sys2Proof Sys2Proof.Machine Sys2Proof.Claims

namespace Sys2Proof.Proofs

/-! ### The checks that a clean start has passed -/

/-- With no failing check, none of the checks at head of issue has raised one of R518's codes. -/
theorem not_mem_hoiOrder_of_firstFlt_none {fs : List Flt} (h : firstFlt fs = none) {f : Flt} (hf : f ∈ fs) : f.1 ∉ hoiOrder := by
  intro hc
  unfold firstFlt at h
  rw [Option.map_eq_none_iff, List.head?_eq_none_iff, List.filterMap_eq_nil_iff] at h
  simpa using List.find?_eq_none.mp (h _ hc) f hf

/-- A shape check among the checks that pass holds. -/
theorem badShape_false_of_firstFlt_none {fs : List Flt} (h : firstFlt fs = none) {w : InsWord} {bad : Bool}
    (hs : ∀ f ∈ badShape w bad, f ∈ fs) : bad = false := by
  cases bad with
  | false => rfl
  | true => exact absurd (by simp [hoiOrder]) (not_mem_hoiOrder_of_firstFlt_none h (hs (0x1002, w.low64) (by simp [badShape])))

/-- A tensor instruction that starts cleanly has passed its row's checks. -/
theorem checks_pass {s : State} {w : InsWord} {op : TOp} {chk : QEntry → State → List Flt} (h : startsClean s w op)
    (hc : checksOf w.toInstr = some chk) : firstFlt (chk (entryOf s w) s) = none := by
  obtain ⟨⟨-, -, -, -, hf, -⟩, -⟩ := h
  simpa [failing, hc] using hf

/-! ### The state in which the effect is made -/

/-- What neither the list of entries in flight nor a trace record touches, the effect finds as issue has left it. -/
theorem begun_keeps {β : Type} (g : State → β) (hfl : ∀ u l, g { u with fl := l } = g u)
    (htr : ∀ u k n v, g (State.traceAt u k n v) = g u) (s : State) (w : InsWord) : g (begun s w) = g (counted s) := by
  unfold begun
  dsimp only
  rw [hfl]
  split
  · exact htr _ _ _ _
  · rfl

theorem begun_sp (s : State) (w : InsWord) : (begun s w).sp = s.sp := begun_keeps State.sp (fun _ _ => rfl) State.traceAt_sp s w
theorem begun_ar (s : State) (w : InsWord) : (begun s w).ar = s.ar := begun_keeps State.ar (fun _ _ => rfl) State.traceAt_ar s w
theorem begun_sb (s : State) (w : InsWord) : (begun s w).sb = (counted s).sb :=
  begun_keeps State.sb (fun _ _ => rfl) State.traceAt_sb s w
theorem begun_live (s : State) (w : InsWord) : (begun s w).live = (counted s).live :=
  begun_keeps State.live (fun _ _ => rfl) State.traceAt_live s w

/-- The state without what an instruction that computes on the scratchpad can change: scratchpad, poison registers, units' marks and
trace, the array's flags, and the entries in flight. -/
def sansCompute (s : State) : State := { s.sansSpad with ar := Arith.reset, fl := [] }

theorem sansCompute_of_sansSpad {a b : State} (h : a.sansSpad = b.sansSpad) : sansCompute a = sansCompute b := by
  unfold sansCompute; rw [h]

theorem begun_sansCompute (s : State) (w : InsWord) : sansCompute (begun s w) = sansCompute (counted s) :=
  begun_keeps sansCompute (fun _ _ => rfl) (fun u k n v => sansCompute_of_sansSpad (State.traceAt_sansSpad u k n v)) s w

/-! ### From the word to the effect -/

section

variable {s : State} {w : InsWord} {op : TOp} {chk : QEntry → State → List Flt}

/-- The state with `q` alone in the tensor queue. -/
def holding (u : State) (q : QEntry) : State := { u with tq := [q] }

/-- With nothing in flight only its class can hold an instruction (R67, R68, R74). -/
theorem allowed_of_idle {u : State} (hfl : u.fl = []) {q : QEntry} (hold : op.hold q u = false) : u.allowed op q = true := by
  have hunit : u.unitFree q = true := by
    unfold State.unitFree
    cases q.unitCount u with
    | zero => rfl
    | succ n => simpa [hfl] using ⟨0, Nat.zero_le n⟩
  simp [State.allowed, hfl, hold, hunit, State.sameTid, Config.inFlightMax]

/-- The entry as it becomes ready at the current tick (R74). -/
def readied (u : State) (q : QEntry) : QEntry := { q with readyAt := some u.tickW }

theorem popFront_holding {u : State} (h : u.tq = []) (q : QEntry) : (holding u q).popFront = u := by
  cases u; cases h; rfl

/-- An entry that nothing holds becomes ready. -/
theorem noteAllowed_holding {u : State} {q : QEntry} (hr : q.readyAt = none) (ha : (holding u q).allowed op q = true) :
    (holding u q).noteAllowed op = holding u (readied u q) := by
  unfold State.noteAllowed
  simp only [show (holding u q).tq = [q] from rfl, hr, ha, Option.isNone_none, Bool.and_self, if_true]
  rfl

/-- An entry without a start tick that is the first of an empty array, of a class that does not hold it, starts at once where no window
is short (R73 to R77). -/
theorem tryStart_holding {u : State} {q : QEntry} (hfl : u.fl = []) (htq : u.tq = []) (hr : q.readyAt = none) (hs : q.startAt = none)
    (hsh : q.short = []) (hold : op.hold q (holding u q) = false) (hold' : op.hold (readied u q) (holding u (readied u q)) = false)
    (hp : (holding u (readied u q)).short (op.present (readied u q) (holding u (readied u q))) = []) :
    (holding u q).tryStart op = u.startTensor op (readied u q) := by
  have hnote := noteAllowed_holding hr (allowed_of_idle (u := holding u q) hfl hold)
  have ha := allowed_of_idle (u := holding u (readied u q)) hfl hold'
  have hs' : (readied u q).startAt = none := hs
  have hsh' : (readied u q).short = [] := hsh
  have hlate : (holding u (readied u q)).late (readied u q) = (holding u (readied u q), false) := by
    unfold State.late; rw [hs']
  unfold State.tryStart
  rw [hnote]
  simp only [show (holding u (readied u q)).tq = [readied u q] from rfl, ha, hs', hsh', hp, hlate, popFront_holding htq,
    show (readied u q).readyAt.isNone = false from rfl]
  simp

/-- On clean source lines nothing but the effect happens (R42, R43, R525). -/
theorem work_clean {u : State} {q : QEntry} (hs : u.sp.suspects.filter (fun l => (op.reads q u).any (fun p => p.has l)) = [])
    (hp : u.sp.psnLines.filter (fun l => (op.reads q u).any (fun p => p.has l)) = []) (hl : u.spoiltLine (op.reads q u) = none)
    (hm : q.misread (op.srcs q) (op.outs q) = false) : u.work op q = op.run q u := by
  have hread : u.readLines (fun l => (op.reads q u).any (fun p => p.has l)) = u := by
    unfold State.readLines; rw [hs]; rfl
  have hnone : firstPsn (op.reads q u) [] = none := by simp [firstPsn]
  unfold State.work
  dsimp only
  rw [hread, hp, hnone]
  simp [hl, hm]

/-- The lines that an instruction of the class reads and writes follow from its entry and the scratchpad alone. -/
def LinesFromSpad (op : TOp) : Prop := ∀ q a b, a.sp = b.sp → op.lines q a = op.lines q b ∧ op.writes q a = op.writes q b

theorem scrubWaits_congr (hl : LinesFromSpad op) {a b : State} (h : a.sp = b.sp) (q : QEntry) : a.scrubWaits op q = b.scrubWaits op q := by
  obtain ⟨hr, hw⟩ := hl q a b h
  have hh : a.scrubHolds = b.scrubHolds := by funext p; simp only [State.scrubHolds, State.scrubRange, h]
  simp only [State.scrubWaits, State.scrubRange, hr, hw, hh, h]

/-- An instruction whose start nothing stops is in flight and at work (R77). -/
theorem startTensor_counted (hl : LinesFromSpad op)
    (hf : firstStart ((counted s).commonStart (op.srcs (readyEntry s w)) (op.outs (readyEntry s w))
      ++ op.startChk (readyEntry s w) (counted s)) = none)
    (hfl : s.fl = []) (ht : w.commit = true → s.yd.taintAny = false) (hs : s.scrubWaits op (readyEntry s w) = false) :
    (counted s).startTensor op (readyEntry s w) = (begun s w).work op (readyEntry s w) := by
  have htaint : (w.commit && s.yd.taintAny) = false := by
    cases hc : w.commit with
    | false => rfl
    | true => exact ht hc
  have hwait : ∀ u : State, u.sp = s.sp → u.scrubWaits op (readyEntry s w) = false := fun u hu => (scrubWaits_congr hl hu _).trans hs
  have hfl' : (counted s).fl = [] := hfl
  have hyd : (counted s).yd = s.yd := rfl
  have htb : (counted s).tb = s.tb := rfl
  unfold State.startTensor begun
  rw [hf]
  dsimp only
  rw [show (readyEntry s w).w = w from rfl]
  cases w.tmark with
  | false =>
    rw [if_neg Bool.false_ne_true, hwait (counted s) rfl]
    simp [hfl', hyd, htb, htaint, State.tickW]
  | true =>
    have hyd' : ((counted s).trace 1 (readyEntry s w).tracePayload).yd = s.yd := State.traceAt_yd _ _ _ _
    rw [if_pos rfl, hwait ((counted s).trace 1 _) (State.traceAt_sp _ _ _ _)]
    simp [hfl', hyd', htb, htaint, State.tickW]

/-- A tensor instruction that starts cleanly, of a class whose lines follow from the scratchpad and that does not hold it, has its class's
effect as it starts. -/
theorem exec_of_startsClean (h : startsClean s w op) (hc : checksOf w.toInstr = some chk)
    (hhold : op.hold (entryOf s w) (holding (counted s) (entryOf s w)) = false) (hl : LinesFromSpad op) :
    exec w.toInstr s = .next (op.run (readyEntry s w) (begun s w)) := by
  have hchk := checks_pass h hc
  obtain ⟨⟨his, ⟨hfl, htq⟩, hroom, hop, -, hstart, hhold', hscrub, hpres, hfirst, ⟨hsus, hpsn, hspoil⟩, htaint⟩,
    hapart⟩ := h
  have hbad : s.nextBad = false := decide_eq_false (by unfold room at hroom; omega)
  have hissued : s.issued (entryOf s w) = holding (counted s) (entryOf s w) := by
    unfold State.issued; rw [htq]; rfl
  have hnow : (entryOf s w).startAt = none := by simp [entryOf, State.entry, hstart]
  have htry : (holding (counted s) (entryOf s w)).tryStart op = (counted s).startTensor op (readyEntry s w) :=
    tryStart_holding (u := counted s) hfl htq rfl hnow rfl hhold hhold'
      (List.filter_eq_nil_iff.mpr fun p hp hlt => Nat.not_lt.mpr (hpres p hp) (of_decide_eq_true hlt))
  have hwork : (begun s w).work op (readyEntry s w) = op.run (readyEntry s w) (begun s w) :=
    work_clean (by rw [begun_sp]; exact hsus) (by rw [begun_sp]; exact hpsn) hspoil hapart
  rw [exec_tensorRow (word?_toInstr w) hc hop,
    tensorRow_issued rfl ((canIssue_iff_issues s).mpr his) hchk hbad (by rw [htq]; decide), if_pos (by rw [htq]; rfl),
    ← hwork, ← startTensor_counted hl hfirst hfl htaint hscrub, ← htry, ← hissued]
  rfl

end

/-! ### What a store into the scratchpad leaves -/

/-- The power groups and the address of SPAD_MADDR. -/
def spadTables (s : State) : AL Group × BitVec 48 := (s.sp.groups, s.sp.maddr)

theorem enterPoison_spadTables (s : State) (c l : Nat) : spadTables (s.enterPoison c l) = spadTables s := by
  unfold State.enterPoison
  split
  · rfl
  · dsimp only; split <;> rfl

theorem trace_spadTables (s : State) (n v : Nat) : spadTables (s.trace n v) = spadTables s := by
  unfold spadTables State.trace; rw [State.traceAt_sp]

theorem badLine_spadTables (s : State) (l : Nat) : spadTables (s.badLine l) = spadTables s := by
  unfold State.badLine
  dsimp only
  split
  · rfl
  · split
    · exact trace_spadTables _ _ _
    · rfl

theorem uncorrectable_spadTables (s : State) (l : Nat) : spadTables (s.uncorrectable l) = spadTables s :=
  (badLine_spadTables _ l).trans (enterPoison_spadTables s 1 l)

theorem store_spadTables (s : State) (ws : List BitW) (b o : Nat → Bool) : spadTables (s.store ws b o) = spadTables s := by
  unfold State.store
  refine (foldl_keeps (fun sp : Spad => (sp.groups, sp.maddr)) (fun sp l => sp.setPsn l _) (fun _ _ => rfl) _ _).trans ?_
  refine (foldl_keeps spadTables (fun s (_ : Nat × Bool) => s.countCorrected) (fun _ _ => rfl) _ _).trans ?_
  exact foldl_keeps spadTables _ uncorrectable_spadTables _ _

/-- What every step of an instruction that computes on the scratchpad leaves: all but the scratchpad's lines, the poison registers, the
units' marks, the trace and the entries in flight; of the array's registers only the flags change, and they rise. -/
structure Computes (s t : State) : Prop where
  rest : sansCompute t = sansCompute s
  tables : spadTables t = spadTables s
  hist : t.ar.hist = s.ar.hist
  margin : t.ar.margin = s.ar.margin
  flags : t.ar.flags = s.ar.flags ||| t.ar.flags

theorem Computes.trans {s t u : State} (h : Computes s t) (k : Computes t u) : Computes s u where
  rest := k.rest.trans h.rest
  tables := k.tables.trans h.tables
  hist := k.hist.trans h.hist
  margin := k.margin.trans h.margin
  flags := by rw [k.flags, h.flags]; ext i; simp [Bool.or_assoc]

/-- A step that leaves the array's registers alone. -/
theorem Computes.of_ar {s t : State} (h : sansCompute t = sansCompute s) (ht : spadTables t = spadTables s) (ha : t.ar = s.ar) :
    Computes s t := ⟨h, ht, by rw [ha], by rw [ha], by rw [ha, BitVec.or_self]⟩

theorem Computes.refl (s : State) : Computes s s := .of_ar rfl rfl rfl

theorem computes_store (s : State) (ws : List BitW) (b o : Nat → Bool) : Computes s (s.store ws b o) :=
  .of_ar (sansCompute_of_sansSpad (State.store_sansSpad s ws b o)) (store_spadTables s ws b o) (State.store_ar s ws b o)

theorem computes_putElems (s : State) (d : Desc) (ws : List (Ix × Nat)) (b : Tile → Bool) (p : Bool) :
    Computes s (s.putElems d ws b p) := computes_store s _ _ _

theorem computes_flag (s : State) (f : Fl) : Computes s (s.flag f) :=
  ⟨rfl, rfl, rfl, rfl, by ext i; simp [State.flag]⟩

theorem computes_gather (s : State) (q : QEntry) (d : Desc) (vs : List Val) : Computes s (s.gather q d vs) := by
  unfold State.gather
  split
  · exact .of_ar rfl rfl rfl
  · exact .refl s

theorem gather_sp (s : State) (q : QEntry) (d : Desc) (vs : List Val) : (s.gather q d vs).sp = s.sp := by
  unfold State.gather
  split <;> rfl

/-- An effect of that kind that writes no byte outside its outputs leaves the frame of the instructions that compute on the scratchpad. -/
theorem dataFrame_of_computes {s t : State} {w : InsWord} {outs : List Opnd} (he : s.tq = []) (h : Computes (begun s w) t)
    (hmem : ∀ a, outside outs a → t.sp.mem.read a = s.sp.mem.read a) : dataFrame s w t outs := by
  obtain ⟨hrest, htab, hh, hm, hf⟩ := h
  rw [begun_ar] at hh hm hf
  have ht : spadTables t = spadTables s := htab.trans (by unfold spadTables; rw [begun_sp])
  have hc := hrest.trans (begun_sansCompute s w)
  simp only [sansCompute, State.sansSpad, State.mk.injEq] at hc
  obtain ⟨hpend, -, -, hsb, htq, -, -, hjob, -, hxp, -, -, hwins, hyd, htb, -, hlive, hsnap, hft, hsvc, hboot, hcfg, -, -, hpw, hcmd,
    hj, hk⟩ := hc
  have hft' : t.ft.sansPoison = s.ft.sansPoison := hft
  simp only [Faults.sansPoison, Faults.mk.injEq] at hft'
  obtain ⟨hvalid, -, hcode, -, -, -, -, -, -, hlog, hok, -⟩ := hft'
  exact ⟨hmem, hsb.trans (begun_sb s w).symm, hjob, hxp, hwins, congrArg Yard.slots hyd, congrArg Yard.evts hyd, htb,
    hlive.trans (begun_live s w).symm, hsnap, hsvc, hboot, hcfg, hpw, hcmd, hj, hk, htq.trans he, hpend, hh, hm, hf,
    congrArg Prod.fst ht, congrArg Prod.snd ht, hvalid, hcode, hlog, hok⟩

/-! ### Elements written one by one -/

/-- The memory after elements of a tensor are written in order. -/
def putAll (m : Mem) (d : Desc) (ws : List (Ix × Nat)) : Mem :=
  (ws.map (fun x => d.bitW x.1 x.2)).foldl (fun m b => m.writeBits b.at_ b.width b.val) m

theorem putElems_putAll (s : State) (d : Desc) (ws : List (Ix × Nat)) (b : Tile → Bool) (p : Bool) :
    (s.putElems d ws b p).sp.mem = putAll s.sp.mem d ws := State.putElems_mem s d ws b p

theorem putAll_wf {m : Mem} (h : Memory.wf m = true) (d : Desc) (ws : List (Ix × Nat)) : Memory.wf (putAll m d ws) = true :=
  Memory.wf_foldl_writeBits h _

/-- A byte that holds no bit of the elements written. -/
theorem read_putAll_other {m : Mem} (h : Memory.wf m = true) {d : Desc} {ws : List (Ix × Nat)} {a : Nat}
    (ho : ∀ x ∈ ws, 8 * a + 8 ≤ d.bitAddr x.1 ∨ d.bitAddr x.1 + d.w ≤ 8 * a) : (putAll m d ws).read a = m.read a := by
  apply Mem.read_foldl_writeBits_other h
  intro b hb
  obtain ⟨x, hx, rfl⟩ := List.mem_map.mp hb
  exact ho x hx

/-- Bits that none of the elements written holds. -/
theorem readBits_putAll_other {m : Mem} (h : Memory.wf m = true) {d : Desc} {ws : List (Ix × Nat)} {b n : Nat}
    (ho : ∀ x ∈ ws, b + n ≤ d.bitAddr x.1 ∨ d.bitAddr x.1 + d.w ≤ b) : (putAll m d ws).readBits b n = m.readBits b n := by
  apply Mem.readBits_foldl_other h
  intro c hc
  obtain ⟨x, hx, rfl⟩ := List.mem_map.mp hc
  exact ho x hx

/-- Elements of a tensor whose elements share no bit read back, where none is written twice. -/
theorem readBits_putAll {m : Mem} (h : Memory.wf m = true) {d : Desc} (ha : apart d) {ws : List (Ix × Nat)}
    (hn : (ws.map Prod.fst).Nodup) (hi : ∀ x ∈ ws, x.1 ∈ d.ixs) {x : Ix × Nat} (hx : x ∈ ws) :
    (putAll m d ws).readBits (d.bitAddr x.1) d.w = x.2 % 2 ^ d.w := by
  have hp : (ws.map (fun x => d.bitW x.1 x.2)).Pairwise BitW.apart := by
    rw [List.pairwise_map]
    refine (List.pairwise_map.mp hn).imp_of_mem ?_
    intro a b hma hmb hne
    exact ha a.1 (hi a hma) b.1 (hi b hmb) hne
  exact Mem.readBits_foldl_apart h hp (List.mem_map.mpr ⟨x, hx, rfl⟩)

/-- A single element reads back. -/
theorem readBits_putAll_single {m : Mem} (h : Memory.wf m = true) (d : Desc) (x : Ix × Nat) :
    (putAll m d [x]).readBits (d.bitAddr x.1) d.w = x.2 % 2 ^ d.w := Mem.readBits_writeBits h _ _ _

/-! ### The indices of a tensor -/

theorem mem_ixsOf {n0 n1 n2 n3 : Nat} {x : Ix} : x ∈ ixsOf n0 n1 n2 n3 ↔ x.i0 < n0 ∧ x.i1 < n1 ∧ x.i2 < n2 ∧ x.i3 < n3 := by
  obtain ⟨i, a, b, c⟩ := x
  simp only [ixsOf, List.mem_flatMap, List.mem_range, List.mem_map, Ix.mk.injEq]
  constructor
  · rintro ⟨c', hc, b', hb, a', ha, i', hi, rfl, rfl, rfl, rfl⟩
    exact ⟨hi, ha, hb, hc⟩
  · rintro ⟨hi, ha, hb, hc⟩
    exact ⟨c, hc, b, hb, a, ha, i, hi, rfl, rfl, rfl, rfl⟩

/-- Lists made from the numbers below `n` have no entry twice, when each has none and different numbers give different entries. -/
theorem nodup_flatMap_range {n : Nat} {f : Nat → List Ix} (g : Ix → Nat) (hf : ∀ k, (f k).Nodup)
    (hg : ∀ k, ∀ x ∈ f k, g x = k) : ((List.range n).flatMap f).Nodup := by
  rw [List.nodup_flatMap]
  refine ⟨fun k _ => hf k, List.nodup_range.imp ?_⟩
  intro j k hne x hj hk
  exact hne ((hg j x hj).symm.trans (hg k x hk))

theorem nodup_ixsOf (n0 n1 n2 n3 : Nat) : (ixsOf n0 n1 n2 n3).Nodup := by
  refine nodup_flatMap_range Ix.i3 (fun c => nodup_flatMap_range Ix.i2 (fun b => nodup_flatMap_range Ix.i1 (fun a => ?_) ?_) ?_) ?_
  · exact List.nodup_range.map (fun i j h => congrArg Ix.i0 h)
  all_goals simp only [List.mem_flatMap, List.mem_map]
  · rintro a x ⟨i, -, rfl⟩; rfl
  · rintro b x ⟨a, -, i, -, rfl⟩; rfl
  · rintro c x ⟨b, -, a, -, i, -, rfl⟩; rfl

theorem nodup_ixs (d : Desc) : d.ixs.Nodup := nodup_ixsOf _ _ _ _

theorem dim_pos (d : Desc) (a : Nat) : 0 < d.n a := by
  unfold Desc.n; split <;> exact Nat.succ_pos _

/-- Every tensor has an element of index 0. -/
theorem zero_mem_ixs (d : Desc) : (⟨0, 0, 0, 0⟩ : Ix) ∈ d.ixs :=
  mem_ixsOf.mpr ⟨dim_pos d 0, dim_pos d 1, dim_pos d 2, dim_pos d 3⟩

end Sys2Proof.Proofs
end

section
/-! PROOFS. Number formats (03): T.CVT rounds each element once under its scale and writes the scale bytes (O29). -/

open Sys2Proof Sys2Proof.Machine Sys2Proof.Claims

namespace Sys2Proof.Proofs

/-! ### Blocks -/

theorem nodup_eraseDups {α : Type} [BEq α] [LawfulBEq α] (l : List α) : l.eraseDups.Nodup := by
  match l with
  | [] => exact List.nodup_nil
  | a :: l =>
    rw [List.eraseDups_cons, List.nodup_cons]
    refine ⟨fun h => ?_, nodup_eraseDups _⟩
    simpa using (List.mem_filter.mp (List.mem_eraseDups.mp h)).2
termination_by l.length
decreasing_by exact Nat.lt_succ_of_le (List.length_filter_le _ _)

/-- The keys of the elements by block are the blocks of the elements, each once. -/
theorem blocksOf_keys (xs : List (Ix × Val)) : (blocksOf xs).map Prod.fst = (xs.map (fun x => x.1.block)).eraseDups := by
  simp [blocksOf, Function.comp_def]

theorem mem_of_mem_blocksOf {xs : List (Ix × Val)} {b : Ix × List (Ix × Val)} (h : b ∈ blocksOf xs) :
    ∀ x ∈ b.2, x ∈ xs ∧ x.1.block = b.1 := by
  obtain ⟨k, -, rfl⟩ := List.mem_map.mp h
  intro x hx
  simpa using List.mem_filter.mp hx

theorem nodup_of_mem_blocksOf {xs : List (Ix × Val)} (hn : (xs.map Prod.fst).Nodup) {b : Ix × List (Ix × Val)} (h : b ∈ blocksOf xs) :
    (b.2.map Prod.fst).Nodup := by
  obtain ⟨k, -, rfl⟩ := List.mem_map.mp h
  exact hn.sublist (List.filter_sublist.map _)

/-- An MX block has a result for each of its elements. -/
theorem mxQuant_length (code rnd : Nat) (sat ftz : Bool) (vs : List (Val × Nat)) :
    (mxQuant code rnd sat ftz vs).2.1.length = vs.length := by
  unfold mxQuant
  split <;> simp

/-- The elements that a conversion into an MX destination writes, block by block. -/
theorem mxElems_indices (w : InsWord) (sr : SrCtx) (d : Desc) (xs : List (Ix × Val)) :
    (mxElems w sr d xs).1.map Prod.fst = (blocksOf xs).flatMap (fun b => b.2.map Prod.fst) := by
  simp only [mxElems, List.map_flatMap, List.flatMap_map]
  congr 1
  funext b
  exact List.map_fst_zip (by simp [mxQuant_length])

/-- The scale bytes that it writes: one for each block. -/
theorem mxElems_blocks (w : InsWord) (sr : SrCtx) (d : Desc) (xs : List (Ix × Val)) :
    (mxElems w sr d xs).2.1.map Prod.fst = (xs.map (fun x => x.1.block)).eraseDups := by
  rw [← blocksOf_keys]
  simp [mxElems, Function.comp_def]

/-- Each element belongs to one block: none is written twice. -/
theorem mxElems_nodup (w : InsWord) (sr : SrCtx) (d : Desc) {xs : List (Ix × Val)} (hn : (xs.map Prod.fst).Nodup) :
    ((mxElems w sr d xs).1.map Prod.fst).Nodup := by
  rw [mxElems_indices, List.nodup_flatMap]
  refine ⟨fun b hb => nodup_of_mem_blocksOf hn hb, ?_⟩
  have hk : ((blocksOf xs).map Prod.fst).Nodup := by rw [blocksOf_keys]; exact nodup_eraseDups _
  refine (List.pairwise_map.mp hk).imp_of_mem ?_
  intro a b ha hb hne i hia hib
  obtain ⟨x, hx, rfl⟩ := List.mem_map.mp hia
  obtain ⟨y, hy, hxy⟩ := List.mem_map.mp hib
  obtain ⟨-, hxa⟩ := mem_of_mem_blocksOf ha x hx
  obtain ⟨-, hyb⟩ := mem_of_mem_blocksOf hb y hy
  exact hne (by rw [← hxa, ← hyb, hxy])

theorem mxElems_mem {w : InsWord} {sr : SrCtx} {d : Desc} {xs : List (Ix × Val)} {p : Ix × Nat} (h : p ∈ (mxElems w sr d xs).1) :
    p.1 ∈ xs.map Prod.fst := by
  have hp : p.1 ∈ (mxElems w sr d xs).1.map Prod.fst := List.mem_map_of_mem h
  rw [mxElems_indices, List.mem_flatMap] at hp
  obtain ⟨b, hb, hi⟩ := hp
  obtain ⟨x, hx, hxp⟩ := List.mem_map.mp hi
  exact List.mem_map.mpr ⟨x, (mem_of_mem_blocksOf hb x hx).1, hxp⟩

theorem mxElems_block_mem {w : InsWord} {sr : SrCtx} {d : Desc} {xs : List (Ix × Val)} {p : Ix × Nat}
    (h : p ∈ (mxElems w sr d xs).2.1) : ∃ i ∈ xs.map Prod.fst, p.1 = i.block := by
  have hp : p.1 ∈ (mxElems w sr d xs).2.1.map Prod.fst := List.mem_map_of_mem h
  rw [mxElems_blocks, List.mem_eraseDups] at hp
  obtain ⟨x, hx, hxp⟩ := List.mem_map.mp hp
  exact ⟨x.1, List.mem_map_of_mem hx, hxp.symm⟩

/-! ### Scale bytes -/

theorem scaleByte_lt (L : Int) (code : Nat) (uns : Bool) : scaleByte L code uns < 256 := by
  unfold scaleByte; omega

theorem policyByte_lt (s : State) (pol tid code : Nat) (uns : Bool) : (s.policyByte pol tid code uns).1 < 256 := by
  unfold State.policyByte
  dsimp only
  split
  · decide
  · exact scaleByte_lt _ _ _

theorem scale_zero (v : Val) : v.scale 0 = v := by
  cases v <;> simp [Val.scale]

/-- The scale byte of a destination that is not MX, by the policy (R131), with its flags; 127 where it has no scale. -/
def flatScale (q : QEntry) (s : State) (xs : List (Ix × Val)) : Nat × Fl :=
  if !cvtDscl q.w then (127, 0)
  else if cvtPol q.w = 0 then (scaleByte (amaxOf (xs.map (·.2))).scaleL q.dst.fmt (cvtDu q.w), 0)
  else if cvtPol q.w = 3 then (q.w.imm32.toNat % 256, 0)
  else s.policyByte (cvtPol q.w) q.dst.tensorId.toNat q.dst.fmt (cvtDu q.w)

theorem flatScale_unscaled {q : QEntry} (h : cvtDscl q.w = false) (s : State) (xs : List (Ix × Val)) : (flatScale q s xs).1 = 127 := by
  simp [flatScale, h]

section

variable {q : QEntry} (h : cvtDscl q.w = true) (s : State) (xs : List (Ix × Val))
include h

/-- Policy CUR: from the amax of the elements converted (Table 3.8). -/
theorem flatScale_current (hp : cvtPol q.w = 0) :
    (flatScale q s xs).1 = scaleByte (amaxOf (xs.map (·.2))).scaleL q.dst.fmt (cvtDu q.w) := by
  simp [flatScale, h, hp]

/-- Policies HIST and FCST: from the history of the destination's tensor id (R132). -/
theorem flatScale_history (hp : cvtPol q.w = 1 ∨ cvtPol q.w = 2) :
    (flatScale q s xs).1 = (s.policyByte (cvtPol q.w) q.dst.tensorId.toNat q.dst.fmt (cvtDu q.w)).1 := by
  obtain hp | hp := hp <;> simp [flatScale, h, hp]

/-- Policy FIXED: from the word. -/
theorem flatScale_given (hp : cvtPol q.w = 3) : (flatScale q s xs).1 = q.w.imm32.toNat % 256 := by
  simp [flatScale, h, hp]

end

theorem flatScale_lt (q : QEntry) (s : State) (xs : List (Ix × Val)) : (flatScale q s xs).1 < 256 := by
  unfold flatScale
  split
  · exact (by decide : 127 < 256)
  · split
    · exact scaleByte_lt _ _ _
    · split
      · exact Nat.mod_lt _ (by decide)
      · exact policyByte_lt _ _ _ _ _

/-! ### The effect of T.CVT -/

/-- The elements that T.CVT converts, with their source values. -/
def cvtInputs (q : QEntry) (s : State) : List (Ix × Val) :=
  ((q.dst.ixs.filter (q.gate q.dst)).map (fun x => (x, s.cvtSource q x))).map (fun p => (p.1, p.2.1))

theorem cvtInputs_eq (q : QEntry) (s : State) :
    cvtInputs q s = (q.dst.ixs.filter (q.gate q.dst)).map (fun x => (x, (s.cvtSource q x).1)) := by
  simp [cvtInputs, Function.comp_def]

theorem cvtInputs_indices (q : QEntry) (s : State) : (cvtInputs q s).map Prod.fst = q.dst.ixs.filter (q.gate q.dst) := by
  simp [cvtInputs, Function.comp_def]

/-- What T.CVT writes into DST. -/
def cvtElems (q : QEntry) (s : State) : List (Ix × Nat) :=
  if isMX q.dst.fmt then (mxElems q.w (q.sr s) q.dst (cvtInputs q s)).1
  else (flatElems q.w (q.sr s) q.dst (cvtDu q.w) (flatScale q s (cvtInputs q s)).1 (cvtInputs q s)).1

/-- The scale bytes that T.CVT writes into SC. -/
def cvtScales (q : QEntry) (s : State) : List (Ix × Nat) :=
  if isMX q.dst.fmt then (mxElems q.w (q.sr s) q.dst (cvtInputs q s)).2.1
  else if cvtDscl q.w && !(cvtInputs q s).isEmpty then [(⟨0, 0, 0, 0⟩, (flatScale q s (cvtInputs q s)).1)] else []

/-- A conversion into an MX destination writes the elements, then the scale byte of each block. -/
theorem cvtRun_mx {q : QEntry} (s : State) (h : isMX q.dst.fmt = true) : ∃ bad badLine f vs,
    cvtRun q s = (((s.putElems q.dst (cvtElems q s) bad q.w.poisonOk).putScales q.sc (cvtScales q s) badLine q.w.poisonOk).flag f).gather
      q q.dst vs := by
  unfold cvtRun cvtElems cvtScales
  simp only [h, if_true]
  exact ⟨_, _, _, _, rfl⟩

/-- A step made under a condition. -/
def stepIf (c : Bool) (f : State → State) (s : State) : State := if c then f s else s

theorem computes_stepIf {f : State → State} (hf : ∀ s, Computes s (f s)) (c : Bool) (s : State) : Computes s (stepIf c f s) := by
  cases c with
  | false => exact .refl s
  | true => exact hf s

/-- A conversion into any other destination writes the elements, then the scale byte it used where it has one and writes an element. -/
theorem cvtRun_flat {q : QEntry} (s : State) (h : isMX q.dst.fmt = false) : ∃ bad badLine miss f vs,
    cvtRun q s = ((stepIf miss State.fcMissed (stepIf (cvtDscl q.w && !(cvtInputs q s).isEmpty)
      (fun t => t.putScales q.sc [(⟨0, 0, 0, 0⟩, (flatScale q s (cvtInputs q s)).1)] badLine q.w.poisonOk)
      (s.putElems q.dst (cvtElems q s) bad q.w.poisonOk))).flag f).gather q q.dst vs := by
  unfold cvtRun cvtElems
  simp only [h]
  exact ⟨_, _, _, _, _, rfl⟩

theorem computes_fcMissed (s : State) : Computes s s.fcMissed :=
  ⟨rfl, rfl, rfl, rfl, by ext i; simp [State.fcMissed]⟩

theorem computes_putScales (s : State) (p : Desc) (ws : List (Ix × Nat)) (bad : Nat → Bool) (pok : Bool) :
    Computes s (s.putScales p ws bad pok) := computes_store s _ _ _

theorem putScales_putAll (s : State) (p : Desc) (ws : List (Ix × Nat)) (bad : Nat → Bool) (pok : Bool) :
    (s.putScales p ws bad pok).sp.mem = putAll s.sp.mem p ws := State.putLines_mem s p _ bad _ pok

theorem computes_cvtRun (q : QEntry) (s : State) : Computes s (cvtRun q s) := by
  cases h : isMX q.dst.fmt with
  | true =>
    obtain ⟨bad, badLine, f, vs, e⟩ := cvtRun_mx s h
    rw [e]
    exact (((computes_putElems s _ _ _ _).trans (computes_putScales _ _ _ _ _)).trans (computes_flag _ _)).trans (computes_gather _ _ _ _)
  | false =>
    obtain ⟨bad, badLine, miss, f, vs, e⟩ := cvtRun_flat s h
    rw [e]
    exact ((((computes_putElems s _ _ _ _).trans (computes_stepIf (fun t => computes_putScales t _ _ _ _) _ _)).trans
      (computes_stepIf computes_fcMissed _ _)).trans (computes_flag _ _)).trans (computes_gather _ _ _ _)

/-- The memory after T.CVT: its elements are written, then its scale bytes. -/
theorem cvtRun_mem (q : QEntry) (s : State) :
    (cvtRun q s).sp.mem = putAll (putAll s.sp.mem q.dst (cvtElems q s)) q.sc (cvtScales q s) := by
  cases h : isMX q.dst.fmt with
  | true =>
    obtain ⟨bad, badLine, f, vs, e⟩ := cvtRun_mx s h
    rw [e, gather_sp, State.flag_sp, putScales_putAll, putElems_putAll]
  | false =>
    obtain ⟨bad, badLine, miss, f, vs, e⟩ := cvtRun_flat s h
    have hm : ∀ t : State, (stepIf miss State.fcMissed t).sp = t.sp := by intro t; cases miss <;> rfl
    rw [e, gather_sp, State.flag_sp, hm]
    unfold cvtScales
    rw [h, if_neg Bool.false_ne_true]
    cases cvtDscl q.w && !(cvtInputs q s).isEmpty with
    | true => exact (putScales_putAll _ _ _ _ _).trans (by rw [putElems_putAll]; rfl)
    | false => exact putElems_putAll _ _ _ _ _

/-! ### What the checks of T.CVT say of its scale operand -/

/-- What T.CVT's checks say of its destination operands: DST has the word's format, and SC, where the word uses it, is a scale plane of an
MX destination and one byte otherwise (R111, R113). -/
structure CvtOperands (q : QEntry) : Prop where
  fmt : q.w.dfmt.toNat = q.dst.fmt
  plane : isMX q.dst.fmt = true → planeOk q.sc q.dst = true
  byte : isMX q.dst.fmt = false → cvtDscl q.w = true → byteOk q.sc = true

theorem cvtOperands_of_checks {q : QEntry} {s : State} (h : firstFlt (cvtChk q s) = none) : CvtOperands q := by
  have hfmt : (decide (q.w.dfmt ≠ q.dst.format) || decide (q.w.sfmt ≠ q.sa.format)) = false :=
    badShape_false_of_firstFlt_none (w := q.w) h fun _ hf =>
      List.mem_append_left _ (List.mem_append_left _ (List.mem_append_right _ (List.mem_append_left _ hf)))
  have hscale := badShape_false_of_firstFlt_none (w := q.w) h fun _ hf => List.mem_append_left _ (List.mem_append_right _ hf)
  simp only [Bool.or_eq_false_iff, decide_eq_false_iff_not, not_not] at hfmt
  have hd : q.w.dfmt.toNat = q.dst.fmt := congrArg BitVec.toNat hfmt.1
  simp only [Bool.or_eq_false_iff, hd, cvtSc] at hscale
  obtain ⟨-, hsc⟩ := hscale
  exact ⟨hd, fun hm => by simpa [hm] using hsc, fun hm hb => by simpa [hm, hb] using hsc⟩

/-- The block of an element is an index of the scale plane. -/
theorem block_mem_ixs {p d : Desc} (h : planeOk p d = true) {x : Ix} (hx : x ∈ d.ixs) : x.block ∈ p.ixs := by
  unfold planeOk at h
  simp only [Bool.and_eq_true, decide_eq_true_eq, Desc.shape, List.cons.injEq, and_true] at h
  obtain ⟨-, h0, h1, h2, h3⟩ := h
  obtain ⟨x0, x1, x2, x3⟩ := mem_ixsOf.mp hx
  refine mem_ixsOf.mpr ⟨?_, by rw [h1]; exact x1, by rw [h2]; exact x2, by rw [h3]; exact x3⟩
  rw [h0]
  simp only [Ix.block, cdiv]
  omega

theorem width_of_byteOk {p : Desc} (h : byteOk p = true) : p.w = 8 := by
  unfold byteOk at h
  simp only [Bool.and_eq_true, decide_eq_true_eq] at h
  obtain ⟨⟨⟨hf, -⟩, -⟩, -⟩ := h
  unfold Desc.w
  rw [hf]
  rfl

/-! ### What T.CVT writes, element by element -/

theorem flatElems_indices (w : InsWord) (sr : SrCtx) (d : Desc) (du : Bool) (b : Nat) (xs : List (Ix × Val)) :
    (flatElems w sr d du b xs).1.map Prod.fst = xs.map Prod.fst := by
  simp [flatElems, Function.comp_def]

section

variable {q : QEntry} {s : State}

theorem nodup_cvtInputs (q : QEntry) (s : State) : ((cvtInputs q s).map Prod.fst).Nodup := by
  rw [cvtInputs_indices]
  exact (nodup_ixs q.dst).filter _

theorem cvtInputs_mem {i : Ix} (h : i ∈ (cvtInputs q s).map Prod.fst) : i ∈ q.dst.ixs := by
  rw [cvtInputs_indices] at h
  exact (List.mem_filter.mp h).1

theorem nodup_cvtElems (q : QEntry) (s : State) : ((cvtElems q s).map Prod.fst).Nodup := by
  unfold cvtElems
  split
  · exact mxElems_nodup _ _ _ (nodup_cvtInputs q s)
  · rw [flatElems_indices]; exact nodup_cvtInputs q s

theorem cvtElems_mem {p : Ix × Nat} (h : p ∈ cvtElems q s) : p.1 ∈ q.dst.ixs := by
  unfold cvtElems at h
  split at h
  · exact cvtInputs_mem (mxElems_mem h)
  · exact cvtInputs_mem (flatElems_indices q.w _ _ _ _ _ ▸ List.mem_map_of_mem h)

theorem cvtScales_mem (ho : CvtOperands q) {p : Ix × Nat} (h : p ∈ cvtScales q s) : p.1 ∈ q.sc.ixs := by
  unfold cvtScales at h
  split at h
  · next hm =>
    obtain ⟨i, hi, e⟩ := mxElems_block_mem h
    rw [e]
    exact block_mem_ixs (ho.plane hm) (cvtInputs_mem hi)
  · split at h
    · rw [List.mem_singleton.mp h]; exact zero_mem_ixs _
    · cases h

/-- Without a scale operand no scale byte is written. -/
theorem scaled_of_mem_cvtScales {p : Ix × Nat} (h : p ∈ cvtScales q s) : isMX q.dst.fmt = true ∨ cvtDscl q.w = true := by
  unfold cvtScales at h
  split at h
  · next hm => exact .inl hm
  · split at h
    · next hb => exact .inr (Bool.and_eq_true _ _ ▸ hb).1
    · cases h

/-- T.CVT changes no byte outside DST's elements and, where it has a scale operand, SC's. -/
theorem read_cvtRun_other (hw : Memory.wf s.sp.mem = true) (ho : CvtOperands q) {a : Nat}
    (h : outside ([q.oDst] ++ when (isMX q.dst.fmt || cvtDscl q.w) q.oSc) a) : (cvtRun q s).sp.mem.read a = s.sp.mem.read a := by
  have hd : ∀ x ∈ cvtElems q s, 8 * a + 8 ≤ q.dst.bitAddr x.1 ∨ q.dst.bitAddr x.1 + q.dst.w ≤ 8 * a :=
    fun x hx => h q.oDst (by simp) x.1 (cvtElems_mem hx)
  have hs : ∀ x ∈ cvtScales q s, 8 * a + 8 ≤ q.sc.bitAddr x.1 ∨ q.sc.bitAddr x.1 + q.sc.w ≤ 8 * a := by
    intro x hx
    refine h q.oSc ?_ x.1 (cvtScales_mem ho hx)
    simp [when, scaled_of_mem_cvtScales hx]
  rw [cvtRun_mem, read_putAll_other (putAll_wf hw _ _) hs, read_putAll_other hw hd]

/-- The elements written read back, where no scale byte shares a bit with them. -/
theorem raw_cvtRun_elem (hw : Memory.wf s.sp.mem = true) (ho : CvtOperands q) (ha : apart q.dst)
    (hd : isMX q.dst.fmt = true ∨ cvtDscl q.w = true → ∀ x ∈ q.dst.ixs, ∀ y ∈ q.sc.ixs,
      q.sc.bitAddr y + q.sc.w ≤ q.dst.bitAddr x ∨ q.dst.bitAddr x + q.dst.w ≤ q.sc.bitAddr y)
    {p : Ix × Nat} (hp : p ∈ cvtElems q s) : (cvtRun q s).raw q.dst p.1 = p.2 % 2 ^ q.dst.w := by
  unfold State.raw
  rw [cvtRun_mem, readBits_putAll_other (putAll_wf hw _ _) fun y hy =>
    (hd (scaled_of_mem_cvtScales hy) p.1 (cvtElems_mem hp) y.1 (cvtScales_mem ho hy)).symm]
  exact readBits_putAll hw ha (nodup_cvtElems q s) (fun x hx => cvtElems_mem hx) hp

theorem nodup_cvtScales (q : QEntry) (s : State) : ((cvtScales q s).map Prod.fst).Nodup := by
  unfold cvtScales
  split
  · rw [mxElems_blocks]; exact nodup_eraseDups _
  · split
    · exact List.nodup_singleton _
    · exact List.nodup_nil

/-- The scale bytes of a plane read back. -/
theorem raw_cvtRun_scale (hw : Memory.wf s.sp.mem = true) (ho : CvtOperands q) (ha : apart q.sc) {p : Ix × Nat}
    (hp : p ∈ cvtScales q s) : (cvtRun q s).raw q.sc p.1 = p.2 % 2 ^ q.sc.w := by
  unfold State.raw
  rw [cvtRun_mem]
  exact readBits_putAll (putAll_wf hw _ _) ha (nodup_cvtScales q s) (fun x hx => cvtScales_mem ho hx) hp

/-- The one scale byte of a destination that is not MX reads back. -/
theorem raw_cvtRun_byte (hw : Memory.wf s.sp.mem = true) (ho : CvtOperands q) (hm : isMX q.dst.fmt = false) (hb : cvtDscl q.w = true)
    (hx : cvtInputs q s ≠ []) : (cvtRun q s).raw q.sc ⟨0, 0, 0, 0⟩ = (flatScale q s (cvtInputs q s)).1 := by
  have hs : cvtScales q s = [(⟨0, 0, 0, 0⟩, (flatScale q s (cvtInputs q s)).1)] := by
    unfold cvtScales; simp [hm, hb, hx]
  unfold State.raw
  rw [cvtRun_mem, hs]
  have hr := readBits_putAll_single (putAll_wf hw q.dst (cvtElems q s)) q.sc (⟨0, 0, 0, 0⟩, (flatScale q s (cvtInputs q s)).1)
  rw [width_of_byteOk (ho.byte hm hb)] at hr ⊢
  exact hr.trans (Nat.mod_eq_of_lt (flatScale_lt q s _))

/-- An element of a destination that is not MX is its input rounded under the scale byte. -/
theorem flat_mem_cvtElems (hm : isMX q.dst.fmt = false) {p : Ix × Val} (hp : p ∈ cvtInputs q s) :
    (p.1, (roundTo q.dst.fmt (cvtDu q.w) q.w.rnd.toNat q.w.sat q.w.ftz ((q.sr s).bitsFor q.w.rnd.toNat 0 (q.dst.lin p.1))
      (p.2.scale (127 - ((flatScale q s (cvtInputs q s)).1 : Int)))).1) ∈ cvtElems q s := by
  unfold cvtElems flatElems
  rw [hm, if_neg Bool.false_ne_true]
  simp only [List.map_map]
  exact List.mem_map.mpr ⟨p, hp, rfl⟩

end

/-! ### The conversion of a word that starts cleanly -/

theorem toInstr_of_cvt {w : InsWord} (h : w.opc = 0x28) : w.toInstr = .tCvt w := by
  unfold InsWord.toInstr; simp [h]

theorem cvtSource_congr {a b : State} (h : a.sp = b.sp) (q : QEntry) (x : Ix) : a.cvtSource q x = b.cvtSource q x := by
  unfold State.cvtSource State.elem State.raw; rw [h]

theorem cvtInputs_begun (s : State) (w : InsWord) : cvtInputs (readyEntry s w) (begun s w) =
    ((readyEntry s w).dst.ixs.filter ((readyEntry s w).gate (readyEntry s w).dst)).map
      (fun x => (x, (s.cvtSource (readyEntry s w) x).1)) := by
  rw [cvtInputs_eq]
  simp only [cvtSource_congr (begun_sp s w)]

theorem sr_begun (s : State) (w : InsWord) :
    (readyEntry s w).sr (begun s w) = ⟨s.sb.seed, (readyEntry s w).dst.tensorId, s.sb.step⟩ := by
  unfold QEntry.sr; rw [begun_sb]; rfl

theorem policyByte_congr {a b : State} (h : a.ar = b.ar) (pol tid code : Nat) (uns : Bool) :
    a.policyByte pol tid code uns = b.policyByte pol tid code uns := by
  unfold State.policyByte; rw [h]

/-- T.CVT of a word that starts cleanly is its whole effect. -/
theorem exec_cvt {s : State} {w : InsWord} (ho : w.opc = 0x28) (h : startsClean s w cvtOp) :
    exec w.toInstr s = .next (cvtRun (readyEntry s w) (begun s w)) :=
  exec_of_startsClean (chk := cvtChk) h (by rw [toInstr_of_cvt ho]; rfl) rfl fun _ _ _ _ => ⟨rfl, rfl⟩

theorem cvtOperands_readyEntry {s : State} {w : InsWord} (ho : w.opc = 0x28) (h : startsClean s w cvtOp) :
    CvtOperands (readyEntry s w) := by
  obtain ⟨hf, hp, hb⟩ := cvtOperands_of_checks (checks_pass h (chk := cvtChk) (by rw [toInstr_of_cvt ho]; rfl))
  exact ⟨hf, hp, hb⟩

/-- Settles O29: the effect writes the elements of `cvtElems` and then the scale bytes of `cvtScales`; each element belongs to one block and
is written once, so each reads back as the model rounded it. -/
theorem conversionWritesElementsAndScales : Obligations.ConversionWritesElementsAndScales := by
  intro s w hopc hc hok ha q d xs sr
  have hops : CvtOperands q := cvtOperands_readyEntry hopc hc
  have hwf : Memory.wf (begun s w).sp.mem = true := by
    rw [begun_sp]
    simp only [State.memOk, Bool.and_eq_true] at hok
    obtain ⟨⟨hsp, -⟩, -⟩ := hok
    exact hsp
  have hxs : cvtInputs q (begun s w) = xs := cvtInputs_begun s w
  have hsr : q.sr (begun s w) = sr := sr_begun s w
  obtain ⟨⟨-, ⟨-, htq⟩, -⟩, -⟩ := id hc
  refine ⟨_, exec_cvt hopc hc, dataFrame_of_computes htq (computes_cvtRun q _) ?_, fun hd => ⟨?_, ?_, ?_, ?_⟩⟩
  · intro a hout
    rw [read_cvtRun_other hwf hops hout, begun_sp]
  · intro hm p hp
    refine raw_cvtRun_elem hwf hops ha hd ?_
    unfold cvtElems
    rw [hm, if_pos rfl, hxs, hsr]
    exact hp
  · intro hm hsc p hp
    refine raw_cvtRun_scale hwf hops hsc ?_
    unfold cvtScales
    rw [hm, if_pos rfl, hxs, hsr]
    exact hp
  · intro hm hb p hp
    have hr := raw_cvtRun_elem hwf hops ha hd (flat_mem_cvtElems hm (hxs ▸ hp))
    rwa [flatScale_unscaled hb, hsr, show (127 : Int) - ((127 : Nat) : Int) = 0 from rfl, scale_zero] at hr
  · intro hm hb hne b
    have hbyte : b = (flatScale q (begun s w) xs).1 := hxs ▸ raw_cvtRun_byte hwf hops hm hb (hxs ▸ hne)
    refine ⟨fun hp => hbyte.trans (flatScale_current hb _ _ hp), fun hp => ?_, fun hp => hbyte.trans (flatScale_given hb _ _ hp),
      fun p hp => ?_⟩
    · rw [hbyte, flatScale_history hb _ _ hp, policyByte_congr (begun_ar s w)]
      rfl
    · have hr := raw_cvtRun_elem hwf hops ha hd (flat_mem_cvtElems hm (hxs ▸ hp))
      rwa [hxs, hsr, ← hbyte] at hr

end Sys2Proof.Proofs
end

section
/-! PROOFS. Element-wise operations and special functions (04): the effect of the five classes, and what it writes (O25). -/

open Sys2Proof Sys2Proof.Machine Sys2Proof.Claims

namespace Sys2Proof.Proofs

/-! ### The checks of an element-wise word -/

/-- The opcodes of the element-wise classes and the special functions. -/
def ewOpcs : List Nat := [0x10, 0x11, 0x12, 0x13, 0x18]

/-- The rows of the five classes make the checks of Table 4.13. -/
theorem checksOf_of_ewOpc {w : InsWord} (h : w.opc.toNat ∈ ewOpcs) : checksOf w.toInstr = some ewChk := by
  simp only [ewOpcs, List.mem_cons, List.not_mem_nil, or_false] at h
  rcases h with h | h | h | h | h <;> simp only [InsWord.toInstr, h] <;> rfl

/-- An encoding check among the checks that pass holds. -/
theorem illegal_false_of_firstFlt_none {fs : List Flt} (h : firstFlt fs = none) {w : InsWord} {bad : Bool}
    (hs : ∀ f ∈ illegal w bad, f ∈ fs) : bad = false := by
  cases bad with
  | false => rfl
  | true => exact absurd (by simp [hoiOrder]) (not_mem_hoiOrder_of_firstFlt_none h (hs (0x1001, w.low64) (by simp [illegal])))

/-- A format check among the checks that pass holds. -/
theorem badFmt_false_of_firstFlt_none {fs : List Flt} (h : firstFlt fs = none) {w : InsWord} {bad : Bool}
    (hs : ∀ f ∈ badFmt w bad, f ∈ fs) : bad = false := by
  cases bad with
  | false => rfl
  | true => exact absurd (by simp [hoiOrder]) (not_mem_hoiOrder_of_firstFlt_none h (hs (0x1005, w.low64) (by simp [badFmt])))

/-- What the checks of Table 4.13 say of an element-wise instruction: its formats are those of its descriptors (R39), an integer function
neither rounds nor flushes (R166) and saturates only where R178 allows it, and the kinds of its operands agree (R162). -/
structure EwChecked (q : QEntry) : Prop where
  dfmt : q.w.dfmt.toNat = q.dst.fmt
  sfmt : q.w.sfmt.toNat = q.sa.fmt
  exact : ewInt q = true → q.w.rnd = 0 ∧ q.w.ftz = false
  noSat : ewInt q = true → ewNoSat q.w.opc.toNat (fn7 q.w) = true → q.w.sat = false
  kinds : ewBadKind q = false

theorem ewChecked_of_checks {q : QEntry} {s : State} (h : firstFlt (ewChk q s) = none) : EwChecked q := by
  have hfmt : (decide (q.w.dfmt ≠ q.dst.format) || decide (q.w.sfmt ≠ q.sa.format)) = false :=
    badShape_false_of_firstFlt_none (w := q.w) h fun _ hf =>
      List.mem_append_left _ (List.mem_append_left _ (List.mem_append_right _ (List.mem_append_left _ hf)))
  have hill := illegal_false_of_firstFlt_none (w := q.w) h fun _ hf =>
    List.mem_append_left _ (List.mem_append_left _ (List.mem_append_left _ hf))
  have hkind := badFmt_false_of_firstFlt_none (w := q.w) h fun _ hf => List.mem_append_right _ hf
  simp only [Bool.or_eq_false_iff, decide_eq_false_iff_not, not_not] at hfmt hkind
  simp only [Bool.or_eq_false_iff] at hill
  obtain ⟨⟨⟨-, hexact⟩, hsat⟩, -⟩ := hill
  exact ⟨congrArg BitVec.toNat hfmt.1, congrArg BitVec.toNat hfmt.2, fun hi => by simpa [hi] using hexact,
    fun hi hn => by simpa [hi, hn] using hsat, hkind.1.1⟩

theorem ewChecked_readyEntry {s : State} {w : InsWord} (ho : w.opc.toNat ∈ ewOpcs) (hf : failing s w = none) :
    EwChecked (readyEntry s w) := by
  have hchk : firstFlt (ewChk (entryOf s w) s) = none := by simpa [failing, checksOf_of_ewOpc ho] using hf
  obtain ⟨hd, hs, he, hn, hk⟩ := ewChecked_of_checks hchk
  exact ⟨hd, hs, he, hn, hk⟩

/-! ### The effect of an element-wise instruction -/

section

variable (q : QEntry) (s : State)

/-- The result of an element-wise instruction at a destination element: bits, flags, and the value converted. -/
def ewResult (x : Ix) : Nat × Fl × Val :=
  ewElem q.w (q.sr s) (q.dst.lin x) (s.elem q.sa (fnU q.w && isInt q.sa.fmt) q.w.ftz x) (ewOperand s q (ewSb q.w) q.sb q.w.imm32 x)
    (ewOperand s q (ewSc q.w) q.sc (cval q.w) x)

/-- The elements that PRED gates in. -/
def gatedIxs : List Ix := q.dst.ixs.filter (q.gate q.dst)

/-- What an element-wise instruction writes into DST. -/
def ewWrites : List (Ix × Nat) := (gatedIxs q).map (fun x => (x, (ewResult q s x).1))

/-- The destination tile holds an element that reads a poisoned tile (R198). -/
def ewBad (t : Tile) : Bool := (badTiles q.dst (s.badIxs q.dst ((ewOpnds q).map (fun o => (o.d, o.d.bcast))))).contains t

/-- An element-wise instruction writes its elements, sets flags, and appends an amax. -/
theorem ewRun_eq : ∃ f vs, ewRun q s = ((s.putElems q.dst (ewWrites q s) (ewBad q s) q.w.poisonOk).flag f).gather q q.dst vs := by
  unfold ewRun ewWrites ewBad
  simp only [List.map_map]
  exact ⟨_, _, rfl⟩

theorem computes_ewRun : Computes s (ewRun q s) := by
  obtain ⟨f, vs, e⟩ := ewRun_eq q s
  rw [e]
  exact ((computes_putElems s _ _ _ _).trans (computes_flag _ _)).trans (computes_gather _ _ _ _)

/-- The scratchpad after an element-wise instruction. -/
theorem ewRun_sp : (ewRun q s).sp = (s.putElems q.dst (ewWrites q s) (ewBad q s) q.w.poisonOk).sp := by
  obtain ⟨f, vs, e⟩ := ewRun_eq q s
  rw [e, gather_sp, State.flag_sp]

theorem ewRun_mem : (ewRun q s).sp.mem = putAll s.sp.mem q.dst (ewWrites q s) := by
  rw [ewRun_sp, putElems_putAll]

theorem ewWrites_indices : (ewWrites q s).map Prod.fst = gatedIxs q := by
  simp [ewWrites, Function.comp_def]

end

section

variable {q : QEntry} {s : State}

theorem mem_gatedIxs {x : Ix} : x ∈ gatedIxs q ↔ x ∈ q.dst.ixs ∧ q.gate q.dst x = true := List.mem_filter

theorem ewWrites_mem {p : Ix × Nat} (h : p ∈ ewWrites q s) : p.1 ∈ q.dst.ixs ∧ q.gate q.dst p.1 = true :=
  mem_gatedIxs.mp (ewWrites_indices q s ▸ List.mem_map_of_mem h)

/-- A gated element reads back its result. -/
theorem raw_ewRun_gated (hw : Memory.wf s.sp.mem = true) (ha : apart q.dst) {x : Ix} (hx : x ∈ q.dst.ixs) (hg : q.gate q.dst x = true) :
    (ewRun q s).raw q.dst x = (ewResult q s x).1 % 2 ^ q.dst.w := by
  unfold State.raw
  rw [ewRun_mem]
  exact readBits_putAll hw ha (x := (x, (ewResult q s x).1)) (by rw [ewWrites_indices]; exact (nodup_ixs q.dst).filter _)
    (fun p hp => (ewWrites_mem hp).1) (List.mem_map_of_mem (mem_gatedIxs.mpr ⟨hx, hg⟩))

/-- An element that PRED gates out keeps its bits. -/
theorem raw_ewRun_ungated (hw : Memory.wf s.sp.mem = true) (ha : apart q.dst) {x : Ix} (hx : x ∈ q.dst.ixs)
    (hg : q.gate q.dst x = false) : (ewRun q s).raw q.dst x = s.raw q.dst x := by
  unfold State.raw
  rw [ewRun_mem]
  refine readBits_putAll_other hw fun p hp => ?_
  obtain ⟨hi, hp'⟩ := ewWrites_mem hp
  exact ha x hx p.1 hi (by rintro rfl; simp [hg] at hp')

/-- No byte outside DST's elements changes. -/
theorem read_ewRun_other (hw : Memory.wf s.sp.mem = true) {a : Nat} (h : outside [q.oDst] a) :
    (ewRun q s).sp.mem.read a = s.sp.mem.read a := by
  rw [ewRun_mem]
  exact read_putAll_other hw fun p hp => h q.oDst (by simp) p.1 (ewWrites_mem hp).1

end

/-! ### An element-wise word that starts cleanly -/

section

variable {s : State} {w : InsWord}

theorem linesFromSpad_ewOp : LinesFromSpad ewOp := fun _ _ _ _ => ⟨rfl, rfl⟩

theorem exec_ew (ho : w.opc.toNat ∈ ewOpcs) (h : startsClean s w ewOp) :
    exec w.toInstr s = .next (ewRun (readyEntry s w) (begun s w)) :=
  exec_of_startsClean h (checksOf_of_ewOpc ho) rfl linesFromSpad_ewOp

theorem raw_begun (s : State) (w : InsWord) (d : Desc) (x : Ix) : (begun s w).raw d x = s.raw d x := by
  unfold State.raw; rw [begun_sp]

theorem elem_begun (s : State) (w : InsWord) (d : Desc) (uns ftz : Bool) (x : Ix) :
    (begun s w).elem d uns ftz x = s.elem d uns ftz x := by
  unfold State.elem; rw [raw_begun]

theorem ewOperand_begun (s : State) (w : InsWord) (q : QEntry) (t : Bool) (d : Desc) (sc : W32) (x : Ix) :
    ewOperand (begun s w) q t d sc x = ewOperand s q t d sc x := by
  unfold ewOperand; rw [elem_begun]

theorem memOk_begun (h : s.memOk = true) : Memory.wf (begun s w).sp.mem = true := by
  rw [begun_sp]
  simp only [State.memOk, Bool.and_eq_true] at h
  obtain ⟨⟨hsp, -⟩, -⟩ := h
  exact hsp

/-- The result of an element as the word and the state before it give it. -/
theorem ewResult_begun (x : Ix) : ewResult (readyEntry s w) (begun s w) x =
    ewElem w ⟨s.sb.seed, (readyEntry s w).dst.tensorId, s.sb.step⟩ ((readyEntry s w).dst.lin x)
      (s.elem (readyEntry s w).sa (fnU w && isInt (readyEntry s w).sa.fmt) w.ftz x)
      (ewOperand s (readyEntry s w) (ewSb w) (readyEntry s w).sb w.imm32 x)
      (ewOperand s (readyEntry s w) (ewSc w) (readyEntry s w).sc (cval w) x) := by
  unfold ewResult
  rw [sr_begun, elem_begun, ewOperand_begun, ewOperand_begun]
  rfl

end

/-- Settles O25: the effect writes the results of the elements that PRED gates in, no two of which share a bit, and nothing else. -/
theorem elementwiseWritesGatedElements : Obligations.ElementwiseWritesGatedElements := by
  intro s w hopc hc hok ha q d
  have hwf : Memory.wf (begun s w).sp.mem = true := memOk_begun hok
  obtain ⟨⟨-, ⟨-, htq⟩, -⟩, -⟩ := id hc
  refine ⟨_, exec_ew hopc hc, dataFrame_of_computes htq (computes_ewRun q _) fun a hout => ?_, fun x hx hg => ?_, fun x hx hg => ?_⟩
  · rw [read_ewRun_other hwf hout, begun_sp]
  · exact (raw_ewRun_ungated hwf ha hx hg).trans (raw_begun s w d x)
  · rw [raw_ewRun_gated hwf ha hx hg, ewResult_begun]

end Sys2Proof.Proofs
end

section
/-! PROOFS. Poison of the element-wise classes (04 R198, R199; 08 R357): tile by tile (O28). -/

open Sys2Proof Sys2Proof.Machine Sys2Proof.Claims

namespace Sys2Proof.Proofs

/-! ### Poison bits of lines -/

/-- The poison bit of a line after one is set. -/
theorem psn_setPsn (sp : Spad) (k l : Nat) (b : Bool) : (sp.setPsn k b).psn l = if k = l then b else sp.psn l := by
  unfold Spad.psn Spad.setPsn
  cases b with
  | true =>
    rw [if_pos rfl, AL.getD_put]
    split <;> rfl
  | false =>
    rw [if_neg Bool.false_ne_true]
    unfold AL.getD
    rw [AL.get?_del]
    by_cases h : k = l
    · subst h; simp [majority]
    · simp [h, Ne.symm h]

/-- The poison bit of a line after those of several lines are set, each to its value. -/
theorem psn_foldl_setPsn (f : Nat → Bool) (ls : List Nat) (sp : Spad) (l : Nat) :
    (ls.foldl (fun sp k => sp.setPsn k (f k)) sp).psn l = if l ∈ ls then f l else sp.psn l := by
  induction ls generalizing sp with
  | nil => simp
  | cons k ks ih =>
    rw [List.foldl_cons, ih, psn_setPsn]
    by_cases hk : k = l
    · subst hk; simp
    · simp [hk, Ne.symm hk]

theorem mem_insNat {a k : Nat} {ls : List Nat} : a ∈ insNat ls k ↔ a = k ∨ a ∈ ls := by
  induction ls with
  | nil => simp [insNat]
  | cons x r ih =>
    unfold insNat
    split
    · simp
    · split
      · next h => subst h; simp
      · rw [List.mem_cons, ih, List.mem_cons]; tauto

theorem mem_foldl_insNat {a : Nat} {ks ls : List Nat} : a ∈ ks.foldl insNat ls ↔ a ∈ ks ∨ a ∈ ls := by
  induction ks generalizing ls with
  | nil => simp
  | cons k ks ih => rw [List.foldl_cons, ih, mem_insNat, List.mem_cons]; tauto

/-- Where no ECC word holds an error, a store sets the poison bit of each line that it writes. -/
theorem psn_store {s : State} (hd : s.sp.decay = []) {ws : List BitW} (bit orOld : Nat → Bool) {l : Nat} (hl : l ∈ ws.flatMap BitW.lines) :
    (s.store ws bit orOld).psn l = (bit l || (s.psn l && orOld l)) := by
  have hpsn : ∀ (sp : Spad) (m : Mem) (d : List (Nat × Bool)) (wb : List Nat),
      ({ sp with mem := m, decay := d, wb := wb } : Spad).psn l = sp.psn l := fun _ _ _ _ => rfl
  unfold State.psn State.store
  simp only [hd, List.filter_nil, List.map_nil, List.foldl_nil, List.contains_nil, Bool.or_false, hpsn]
  rw [psn_foldl_setPsn, if_pos (mem_foldl_insNat.mpr (.inl hl))]

/-! ### Lines of an element -/

theorem width_pos (d : Desc) : 0 < d.w := by
  unfold Desc.w fmtWidth
  split <;> decide

/-- The lines that a write of an element touches are those that hold it. -/
theorem mem_lines_iff_holds {d : Desc} {x : Ix} {v l : Nat} : l ∈ (d.bitW x v).lines ↔ holds d x l := by
  have hw := width_pos d
  unfold BitW.lines holds strided Desc.bitW
  simp only [Nat.ne_of_gt hw, if_false, List.mem_map, List.mem_range, exists_exists_and_eq_and]
  constructor
  · rintro ⟨i, hi, rfl⟩
    omega
  · rintro ⟨hl, hlo, hhi⟩
    exact ⟨l / 128 - d.bitAddr x / 1024, by omega, by omega⟩

/-- A line shares a bit with an element exactly where it holds one. -/
theorem overlap_pos_iff_holds {d : Desc} {x : Ix} {v l : Nat} (hl : l % 128 = 0) :
    0 < (d.bitW x v).overlap (8 * l) (8 * l + 1024) ↔ holds d x l := by
  have hw := width_pos d
  unfold BitW.overlap holds Desc.bitW
  dsimp only
  omega

/-- A sum over the elements that pass a test falls short of the whole sum exactly where an element that fails it counts. -/
theorem sum_filter_lt_sum_iff {α : Type} (p : α → Bool) (f : α → Nat) (l : List α) :
    ((l.filter p).map f).sum < (l.map f).sum ↔ ∃ x ∈ l, p x = false ∧ 0 < f x := by
  have hle : ∀ l : List α, ((l.filter p).map f).sum ≤ (l.map f).sum := fun l =>
    (List.filter_sublist.map f).sum_le_sum (fun _ _ => Nat.zero_le _)
  induction l with
  | nil => simp
  | cons a r ih =>
    have hr := hle r
    cases hp : p a with
    | true =>
      simp only [List.filter_cons, hp, if_true, List.map_cons, List.sum_cons, Nat.add_lt_add_iff_left, ih, List.mem_cons,
        exists_eq_or_imp, Bool.true_eq_false, false_and, false_or]
    | false =>
      simp only [List.filter_cons, hp, Bool.false_eq_true, if_false, List.map_cons, List.sum_cons, List.mem_cons, exists_eq_or_imp,
        true_and, ← ih]
      omega

/-- The tiles that hold an element of the tensor are tiles of the tensor. -/
theorem tilesOf_subset_tiles {d : Desc} {x : Ix} (hx : x ∈ d.ixs) {t : Tile} (ht : t ∈ d.tilesOf x) : t ∈ d.tiles := by
  obtain ⟨h0, h1, h2, h3⟩ := mem_ixsOf.mp hx
  have hw := width_pos d
  have hrow : x.i1 / 32 < d.tileRows := by unfold Desc.tileRows cdiv; omega
  suffices h : t.tr = x.i1 / 32 ∧ t.i2 = x.i2 ∧ t.i3 = x.i3 ∧ t.tc < (if d.layout = 1 then d.tileCols else cdiv (d.n 0 * d.w) 1024) by
    obtain ⟨hr, e2, e3, hc⟩ := h
    exact List.mem_map.mpr ⟨⟨t.tc, t.tr, t.i2, t.i3⟩, mem_ixsOf.mpr ⟨hc, hr ▸ hrow, e2 ▸ h2, e3 ▸ h3⟩, rfl⟩
  unfold Desc.tilesOf at ht
  by_cases hl : d.layout = 1
  · rw [if_pos hl, List.mem_singleton] at ht
    subst ht
    rw [if_pos hl]
    have he : 0 < d.eRow := by unfold Desc.eRow; split <;> decide
    refine ⟨rfl, rfl, rfl, ?_⟩
    unfold Desc.tileCols cdiv
    rw [Nat.div_lt_iff_lt_mul he]
    have := Nat.lt_div_mul_add (a := d.n 0 + d.eRow - 1) he
    omega
  · rw [if_neg hl] at ht ⊢
    have hlast : (d.w * x.i0 + d.w - 1) / 1024 < cdiv (d.n 0 * d.w) 1024 := by
      have hm : d.w * x.i0 + d.w ≤ d.n 0 * d.w := by
        calc d.w * x.i0 + d.w = (x.i0 + 1) * d.w := by ring
          _ ≤ d.n 0 * d.w := Nat.mul_le_mul_right _ h0
      unfold cdiv
      omega
    have hfirst : d.w * x.i0 / 1024 ≤ (d.w * x.i0 + d.w - 1) / 1024 := Nat.div_le_div_right (by omega)
    dsimp only at ht
    split at ht
    · obtain rfl := List.mem_singleton.mp ht
      exact ⟨rfl, rfl, rfl, by dsimp only; omega⟩
    · simp only [List.mem_cons, List.not_mem_nil, or_false] at ht
      rcases ht with rfl | rfl
      · exact ⟨rfl, rfl, rfl, by dsimp only; omega⟩
      · exact ⟨rfl, rfl, rfl, hlast⟩

/-! ### The poison bits that an element-wise instruction writes -/

section

variable {q : QEntry} {s : State}

theorem elemPsn_iff {d : Desc} {x : Ix} :
    s.elemPsn d x = true ↔ ∃ t ∈ d.tilesOf x, ∃ l ∈ d.tileLines t, l ∈ s.sp.psnLines := by
  simp only [State.elemPsn, State.tilePsn, List.any_eq_true, List.contains_iff_mem]
  exact exists_congr fun t => and_congr_right fun _ => exists_congr fun l => and_comm

/-- The model's test of an element is R198's. -/
theorem mem_badIxs_iff {x : Ix} : x ∈ s.badIxs q.dst ((ewOpnds q).map (fun o => (o.d, o.d.bcast))) ↔ x ∈ q.dst.ixs ∧ readsPoison s q x := by
  unfold State.badIxs readsPoison
  cases hp : s.sp.psnLines with
  | nil => simp
  | cons l ls =>
    rw [← hp]
    simp [hp, elemPsn_iff]

/-- A destination tile is bad where it holds an element that reads a poisoned tile. -/
theorem ewBad_iff {t : Tile} : ewBad q s t = true ↔ ∃ y ∈ q.dst.ixs, t ∈ q.dst.tilesOf y ∧ readsPoison s q y := by
  simp only [ewBad, badTiles, List.contains_iff_mem, List.mem_eraseDups, List.mem_flatMap, mem_badIxs_iff]
  exact exists_congr fun y => by tauto

/-- The lines that the instruction writes as poisoned: those of a bad tile that holds an element it writes. -/
def badLines (q : QEntry) (s : State) : List Nat :=
  (((ewWrites q s).flatMap (fun p => q.dst.tilesOf p.1)).eraseDups.filter (ewBad q s)).flatMap q.dst.tileLines

theorem mem_badLines_iff {l : Nat} : l ∈ badLines q s ↔ ∃ t ∈ q.dst.tiles, l ∈ q.dst.tileLines t
    ∧ (∃ y ∈ q.dst.ixs, t ∈ q.dst.tilesOf y ∧ readsPoison s q y)
    ∧ ∃ z ∈ q.dst.ixs, t ∈ q.dst.tilesOf z ∧ q.gate q.dst z = true := by
  simp only [badLines, List.mem_flatMap, List.mem_filter, List.mem_eraseDups, ewBad_iff, ewWrites, List.mem_map, mem_gatedIxs]
  constructor
  · rintro ⟨t, ⟨⟨-, ⟨z, ⟨hz, hg⟩, rfl⟩, ht⟩, hb⟩, hl⟩
    exact ⟨t, tilesOf_subset_tiles hz ht, hl, hb, z, hz, ht, hg⟩
  · rintro ⟨t, -, hl, hb, z, hz, ht, hg⟩
    exact ⟨t, ⟨⟨_, ⟨z, ⟨hz, hg⟩, rfl⟩, ht⟩, hb⟩, hl⟩

/-- The bit writes of the instruction. -/
def ewBits (q : QEntry) (s : State) : List BitW := (ewWrites q s).map (fun p => q.dst.bitW p.1 p.2)

/-- A line is written in part where PRED keeps an element on it unwritten (R357). -/
theorem coverOn_lt_bitsOn_iff {l : Nat} (hl : l % 128 = 0) : coverOn (ewBits q s) l < q.dst.bitsOn l
    ↔ ∃ y ∈ q.dst.ixs, holds q.dst y l ∧ q.gate q.dst y = false := by
  have hcover : coverOn (ewBits q s) l
      = ((q.dst.ixs.filter (q.gate q.dst)).map (fun x => (q.dst.bitW x 0).overlap (8 * l) (8 * l + 1024))).sum := by
    unfold coverOn ewBits ewWrites gatedIxs
    simp only [List.map_map]
    rfl
  rw [hcover, Desc.bitsOn, sum_filter_lt_sum_iff]
  simp only [overlap_pos_iff_holds hl]
  exact exists_congr fun y => and_congr_right fun _ => and_comm

/-- The poison bit of a line that holds an element written. -/
theorem psn_ewRun (hd : s.sp.decay = []) {x : Ix} (hx : x ∈ q.dst.ixs) (hg : q.gate q.dst x = true) {l : Nat} (hl : holds q.dst x l) :
    (ewRun q s).psn l = true ↔ q.w.poisonOk = false ∧
      (l ∈ badLines q s ∨ (s.psn l = true ∧ ∃ y ∈ q.dst.ixs, holds q.dst y l ∧ q.gate q.dst y = false)) := by
  have hmem : l ∈ (ewBits q s).flatMap BitW.lines :=
    List.mem_flatMap.mpr ⟨_, List.mem_map_of_mem (List.mem_map_of_mem (mem_gatedIxs.mpr ⟨hx, hg⟩)), mem_lines_iff_holds.mpr hl⟩
  have hstore := psn_store hd (fun l => (badLines q s).contains l && !q.w.poisonOk) (fun l => !q.w.poisonOk
    && (decide (0 + coverOn (ewBits q s) l < q.dst.bitsOn l) || (decide (0 < 0) && s.decayLeft q.dst (ewBits q s) l))) hmem
  have hrun : (ewRun q s).psn l = _ := (congrArg (fun sp : Spad => sp.psn l) (ewRun_sp q s)).trans hstore
  rw [hrun, ← coverOn_lt_bitsOn_iff (s := s) hl.1]
  cases q.w.poisonOk <;> simp

end

/-! ### The start of an element-wise instruction beside poison -/

/-- Without COMMIT the effect of an instruction comes after what only notes that poison was read (R43). -/
theorem work_uncommitted {u : State} {op : TOp} {q : QEntry} (hc : q.w.commit = false)
    (hs : u.sp.suspects.filter (fun l => (op.reads q u).any (fun p => p.has l)) = [])
    (hm : q.misread (op.srcs q) (op.outs q) = false) : ∃ v, v.sp = u.sp ∧ u.work op q = op.run q v := by
  have hread : u.readLines (fun l => (op.reads q u).any (fun p => p.has l)) = u := by
    unfold State.readLines; rw [hs]; rfl
  unfold State.work
  dsimp only
  rw [hread]
  simp only [hc, Bool.false_and, hm, Bool.false_eq_true, if_false]
  refine ⟨_, ?_, rfl⟩
  split
  · rfl
  · split
    · exact State.noteOkReads_sp _ _ _
    · rfl

/-- An uncommitted instruction that nothing but poison can hold back is at work as it starts. -/
theorem exec_of_startsBut {s : State} {w : InsWord} {op : TOp} {chk : QEntry → State → List Flt} (h : startsBut s w op)
    (hcom : w.commit = false) (hc : checksOf w.toInstr = some chk)
    (hhold : op.hold (entryOf s w) (holding (counted s) (entryOf s w)) = false) (hl : LinesFromSpad op) :
    exec w.toInstr s = .next ((begun s w).work op (readyEntry s w)) := by
  obtain ⟨his, ⟨hfl, htq⟩, hroom, hop, hfail, hstart, hhold', hscrub, hpres, hfirst, -⟩ := h
  have hchk : firstFlt (chk (entryOf s w) s) = none := by simpa [failing, hc] using hfail
  have hbad : s.nextBad = false := decide_eq_false (by unfold room at hroom; omega)
  have hissued : s.issued (entryOf s w) = holding (counted s) (entryOf s w) := by
    unfold State.issued; rw [htq]; rfl
  have hnow : (entryOf s w).startAt = none := by simp [entryOf, State.entry, hstart]
  have htry : (holding (counted s) (entryOf s w)).tryStart op = (counted s).startTensor op (readyEntry s w) :=
    tryStart_holding (u := counted s) hfl htq rfl hnow rfl hhold hhold'
      (List.filter_eq_nil_iff.mpr fun p hp hlt => Nat.not_lt.mpr (hpres p hp) (of_decide_eq_true hlt))
  rw [exec_tensorRow (word?_toInstr w) hc hop,
    tensorRow_issued rfl ((canIssue_iff_issues s).mpr his) hchk hbad (by rw [htq]; decide), if_pos (by rw [htq]; rfl),
    ← startTensor_counted hl hfirst hfl (by simp [hcom]) hscrub, ← htry, ← hissued]
  rfl

/-- An element reads the same tiles in a state with the same scratchpad. -/
theorem readsPoison_congr {a b : State} (h : a.sp = b.sp) (q : QEntry) (x : Ix) : readsPoison a q x ↔ readsPoison b q x := by
  unfold readsPoison; rw [h]

/-- Settles O28: a store sets the poison bit of each line that it writes to whether the line lies in a bad tile, and keeps the old bit of
a line that it does not write in full. -/
theorem poisonFollowsElementTiles : Obligations.PoisonFollowsElementTiles := by
  intro s w hopc hb hcom hdecay _ q d
  obtain ⟨-, -, -, -, -, -, -, -, -, -, hsus, hapart⟩ := id hb
  obtain ⟨v, hv, hwork⟩ := work_uncommitted (op := ewOp) (u := begun s w) (q := q) hcom (by rw [begun_sp]; exact hsus) hapart
  rw [begun_sp] at hv
  refine ⟨_, (exec_of_startsBut hb hcom (checksOf_of_ewOpc hopc) rfl linesFromSpad_ewOp).trans (congrArg Host.Outcome.next hwork), ?_⟩
  intro x hx hg l hl
  have hpsn : v.psn l = s.psn l := congrArg (fun sp : Spad => sp.psn l) hv
  refine (psn_ewRun (hv.symm ▸ hdecay) hx hg hl).trans ?_
  rw [mem_badLines_iff, hpsn]
  simp only [readsPoison_congr hv]
  rfl

end Sys2Proof.Proofs
end

section
/-! PROOFS. Integer element-wise functions (04 R166, R174 to R179): exact, placed once in the destination's width (O26). -/

open Sys2Proof Sys2Proof.Machine Sys2Proof.Claims

namespace Sys2Proof.Proofs

/-! ### Integer formats -/

theorem isInt_iff_kindOf (c : Nat) : isInt c = true ↔ kindOf c = .int := by
  unfold isInt kindOf
  rw [decide_eq_true_iff]
  split
  · simp; omega
  · split
    · simp; omega
    · split <;> simp <;> omega

/-- An integer format is no floating format, and no MX format. -/
theorem ffmt_of_isInt {c : Nat} (h : isInt c = true) : ffmt c = none ∧ c ≠ 10 := by
  have hc : 11 ≤ c ∧ c ≤ 14 := of_decide_eq_true h
  obtain rfl | rfl | rfl | rfl : c = 11 ∨ c = 12 ∨ c = 13 ∨ c = 14 := by omega
  all_goals exact ⟨rfl, by decide⟩

theorem raw_lt (s : State) (d : Desc) (x : Ix) : s.raw d x < 2 ^ d.w := Nat.mod_lt _ (Nat.two_pow_pos _)

theorem toInt_ofInt (i : Int) : (Val.ofInt i).toInt = i := by
  unfold Val.ofInt Val.toInt
  simp only [decide_eq_true_eq]
  split <;> omega

/-- An integer encoding decodes to the integer that its bits stand for. -/
theorem toInt_decodeElem {c : Nat} (h : isInt c = true) (uns ftz : Bool) {bits : Nat} (hb : bits < 2 ^ fmtWidth c) :
    (decodeElem c uns ftz bits).toInt = intOf uns (fmtWidth c) bits := by
  obtain ⟨hf, h10⟩ := ffmt_of_isInt h
  have hw : fmtWidth c ≠ 0 := by unfold fmtWidth; split <;> decide
  unfold decodeElem intOf
  simp only [hf, h10, if_false]
  cases uns with
  | true => simp [toInt_ofInt, Nat.mod_eq_of_lt hb]
  | false =>
    rw [if_neg Bool.false_ne_true, toInt_ofInt, sextNat, Nat.mod_eq_of_lt hb]
    simp [hw]

/-! ### The exact result and its place in the destination -/

theorem placed_lt (uns sat : Bool) (w : Nat) (r : Int) : placed uns sat w r < 2 ^ w := by
  unfold placed
  dsimp only
  generalize (if sat = true then _ else r : Int) = v
  have hp : (0 : Int) < 2 ^ w := by positivity
  have hm := Int.emod_lt_of_pos v hp
  have h0 := Int.emod_nonneg v hp.ne'
  zify
  rwa [Int.toNat_of_nonneg h0]

theorem placed_unsaturated (uns : Bool) (w : Nat) (r : Int) : placed uns false w r = wrapInt r w := rfl

/-- The least integer of a format is at most its greatest. -/
theorem intMin_le_intMax {w : Nat} (uns : Bool) : intMin w uns ≤ intMax w uns := by
  have h1 : (1 : Int) ≤ 2 ^ (w - 1) := one_le_pow₀ (by decide)
  have h2 : (1 : Int) ≤ 2 ^ w := one_le_pow₀ (by decide)
  unfold intMin intMax
  cases uns with
  | true => simpa using h2
  | false => simp only [Bool.false_eq_true, if_false]; omega

/-- The integer row of Table 3.5 clamps under SAT and wraps otherwise. -/
theorem placeInt_eq_placed (w : Nat) (uns sat : Bool) (i : Int) : (placeInt w uns sat i).1 = placed uns sat w i := by
  have hle : intMin w uns ≤ intMax w uns := intMin_le_intMax uns
  have hp : placed uns sat w i = wrapInt (if sat then max (intMin w uns) (min (intMax w uns) i) else i) w := rfl
  rw [hp]
  unfold placeInt
  cases sat with
  | false => split <;> [skip; split] <;> rfl
  | true =>
    simp only [if_true]
    split
    · next h => rw [min_eq_right (by omega), max_eq_left (by omega)]
    · split
      · rw [min_eq_left (by omega), max_eq_right hle]
      · rw [min_eq_right (by omega), max_eq_right (by omega)]

/-- An integer needs no rounding: it is placed as it is. -/
theorem roundTo_ofInt {c : Nat} (h : isInt c = true) (uns : Bool) (rnd : Nat) (sat ftz : Bool) (rb : Nat) (i : Int) :
    (roundTo c uns rnd sat ftz rb (Val.ofInt i)).1 = placed uns sat (fmtWidth c) i := by
  obtain ⟨hf, h10⟩ := ffmt_of_isInt h
  have hround : roundAt ⟨decide (i < 0), i.natAbs, 0, false⟩ 0 rnd rb = (i.natAbs, false, false) := by simp [roundAt, pow2]
  have hsign : (if decide (i < 0) = true then -((i.natAbs + 0 : Nat) : Int) else ((i.natAbs + 0 : Nat) : Int)) = i := by
    simp only [decide_eq_true_eq]; split <;> omega
  unfold roundTo roundInt Val.ofInt
  simp only [hf, h10, if_false, hround, Bool.false_eq_true]
  rw [hsign]
  exact placeInt_eq_placed _ _ _ _

/-! ### The integer functions -/

/-- The functions whose low bits are written as they are, among those whose result is a number. -/
def cutFn (opc fn : Nat) : Prop := opc = 0x10 ∧ (fn = 12 ∨ fn = 13)

theorem sign_eq_ite (a : Int) : a.sign = if a < 0 then -1 else if a = 0 then 0 else 1 := by
  obtain h | rfl | h := lt_trichotomy a 0
  · simp [h, Int.sign_eq_neg_one_of_neg h]
  · rfl
  · simp [h.not_gt, h.ne', Int.sign_eq_one_of_pos h]

/-- The model computes the exact result (Tables 4.3 to 4.5), and cuts that of SHR and MULHI alone. -/
theorem intFn_of_intExact {opc fn w : Nat} {a b c r : Int} (h : intExact opc fn w a b c = some r) :
    (intFn opc fn w a b c).1 = r ∧ ((intFn opc fn w a b c).2 = true → cutFn opc fn) := by
  have hn : wrapInt b 6 = (b % 64).toNat := rfl
  unfold intExact at h
  split at h
  all_goals cases h
  all_goals simp [intFn, hn, cutFn, sign_eq_ite]

/-- The function takes integer operands: it is of integer kind, or of the kind of its operands. -/
def takesInts (w : InsWord) : Prop := (ewKind w).1 = .fi ∨ (ewKind w).1 = .i

/-- A function with such a result takes integers. -/
theorem takesInts_of_intExact {w : InsWord} {n : Nat} {a b c r : Int} (h : intExact w.opc.toNat (fn7 w) n a b c = some r) :
    takesInts w := by
  suffices ht : ∀ opc fn, intExact opc fn n a b c = some r → ∃ k m, ewTable opc fn = some (k, m) ∧ (k = .fi ∨ k = .i) by
    obtain ⟨k, m, e, hk⟩ := ht _ _ h
    simpa [takesInts, ewKind, e] using hk
  intro opc fn h
  unfold intExact at h
  split at h
  all_goals cases h
  all_goals exact ⟨_, _, rfl, by simp⟩

/-- The result of an integer function at an element. -/
theorem ewElem_int {w : InsWord} (hk : takesInts w) (hs : isInt w.sfmt.toNat = true) (sr : SrCtx) (ix : Nat)
    (a b c : Val) : (ewElem w sr ix a b c).1 =
      if (intFn w.opc.toNat (fn7 w) (fmtWidth w.sfmt.toNat) a.toInt b.toInt c.toInt).2 then
        wrapInt (intFn w.opc.toNat (fn7 w) (fmtWidth w.sfmt.toNat) a.toInt b.toInt c.toInt).1 (fmtWidth w.dfmt.toNat)
      else (roundTo w.dfmt.toNat (fnU w && isInt w.dfmt.toNat) w.rnd.toNat w.sat w.ftz (sr.bitsFor w.rnd.toNat 0 ix)
        (Val.ofInt (intFn w.opc.toNat (fn7 w) (fmtWidth w.sfmt.toNat) a.toInt b.toInt c.toInt).1)).1 := by
  have hi : kindOf w.sfmt.toNat = .int := (isInt_iff_kindOf _).mp hs
  unfold ewElem
  obtain hk | hk := hk <;> simp only [hk, hi, if_true] <;> split <;> rfl

/-- SHR and MULHI do not saturate (R178). -/
theorem ewNoSat_of_cutFn {opc fn : Nat} (h : cutFn opc fn) : ewNoSat opc fn = true := by
  obtain ⟨rfl, rfl | rfl⟩ := h <;> rfl

/-- The exact result is clamped or wrapped into the destination's width. -/
theorem ewElem_intExact {w : InsWord} (hs : isInt w.sfmt.toNat = true) (hd : isInt w.dfmt.toNat = true)
    (hn : ewNoSat w.opc.toNat (fn7 w) = true → w.sat = false) (sr : SrCtx) (ix : Nat) {a b c : Val} {r : Int}
    (hr : intExact w.opc.toNat (fn7 w) (fmtWidth w.sfmt.toNat) a.toInt b.toInt c.toInt = some r) :
    (ewElem w sr ix a b c).1 = placed (fnU w) w.sat (fmtWidth w.dfmt.toNat) r := by
  obtain ⟨hval, hcut⟩ := intFn_of_intExact hr
  rw [ewElem_int (takesInts_of_intExact hr) hs, hval]
  split
  · next hlow => rw [hn (ewNoSat_of_cutFn (hcut hlow)), placed_unsaturated]
  · rw [roundTo_ofInt hd, hd, Bool.and_true]

/-! ### The operands of an integer function -/

section

variable {q : QEntry} (hk : takesInts q.w) (hi : isInt q.w.sfmt.toNat = true)
include hk hi

theorem ewInt_of_kind : ewInt q = true := by
  have := (isInt_iff_kindOf _).mp hi
  unfold ewInt
  obtain hk | hk := hk <;> simp [hk, this]

theorem ewScalarInt_of_kind : ewScalarInt q = true := by
  have := (isInt_iff_kindOf _).mp hi
  unfold ewScalarInt
  obtain hk | hk := hk <;> simp [hk, this]

/-- The tensor operands of an integer function have integer formats (R162). -/
theorem isInt_operands (hc : EwChecked q) :
    (ewSb q.w = true → isInt q.sb.fmt = true) ∧ (ewSc q.w = true → isInt q.sc.fmt = true) := by
  have hs := (isInt_iff_kindOf _).mp hi
  have hbad := hc.kinds
  simp only [isInt_iff_kindOf]
  unfold ewBadKind at hbad
  obtain hk | hk := hk <;> simp only [hk, hs, when] at hbad <;> constructor <;> intro ht <;>
    simp only [ht, if_true, Bool.not_eq_eq_eq_not, Bool.not_false, Bool.and_eq_true, List.all_append, List.map_cons, List.map_nil,
      List.all_cons, List.all_nil, Bool.and_true, decide_eq_true_eq, QEntry.oSb, QEntry.oSc] at hbad <;> tauto

end

/-- An element of an integer tensor as an integer. -/
theorem toInt_elem {u ftz : Bool} {d : Desc} (h : isInt d.fmt = true) (s : State) (x : Ix) :
    (s.elem d (u && isInt d.fmt) ftz x).toInt = intOf u d.w (s.raw d x) := by
  rw [State.elem, toInt_decodeElem h _ _ (raw_lt s d x), h, Bool.and_true]
  rfl

/-- An operand of an integer function as an integer. -/
theorem toInt_ewOperand {q : QEntry} {t : Bool} {d : Desc} (ht : t = true → isInt d.fmt = true) (hs : ewScalarInt q = true) (s : State)
    (sc : W32) (x : Ix) : (ewOperand s q t d sc x).toInt = intOperand s q.w t d sc x := by
  unfold ewOperand intOperand
  cases t with
  | true => exact toInt_elem (ht rfl) s _
  | false =>
    simp only [Bool.false_eq_true, if_false, scalarVal, hs, if_true, toInt_ofInt]

/-- Settles O26: a result of the functions with a number for a result is the exact integer, and `placeInt` clamps or wraps it. -/
theorem elementwiseIntegersAreExact : Obligations.ElementwiseIntegersAreExact := by
  intro s w hopc hc hok ha hsi hdi q d
  have hew : w.opc.toNat ∈ ewOpcs := by
    simp only [ewOpcs, List.mem_cons, List.not_mem_nil, or_false] at hopc ⊢
    tauto
  obtain ⟨⟨-, -, -, -, hfail, -⟩, -⟩ := id hc
  have hchk : EwChecked q := ewChecked_readyEntry hew hfail
  refine ⟨_, exec_ew hew hc, fun x hx hg r hr => ?_⟩
  have hk : takesInts w := takesInts_of_intExact hr
  have hsc : ewScalarInt q = true := ewScalarInt_of_kind hk hsi
  obtain ⟨hib, hic⟩ := isInt_operands (q := q) hk hsi hchk
  have hva : (s.elem q.sa (fnU w && isInt q.sa.fmt) w.ftz x).toInt = intOf (fnU w) q.sa.w (s.raw q.sa x) := toInt_elem (hchk.sfmt ▸ hsi) s x
  have hvb : (ewOperand s q (ewSb w) q.sb w.imm32 x).toInt = _ := toInt_ewOperand hib hsc s w.imm32 x
  have hvc : (ewOperand s q (ewSc w) q.sc (cval w) x).toInt = _ := toInt_ewOperand hic hsc s (cval w) x
  have hsw : fmtWidth w.sfmt.toNat = q.sa.w := congrArg fmtWidth hchk.sfmt
  have hdw : fmtWidth w.dfmt.toNat = d.w := congrArg fmtWidth hchk.dfmt
  have hns : ewNoSat w.opc.toNat (fn7 w) = true → w.sat = false := hchk.noSat (ewInt_of_kind hk hsi)
  rw [raw_ewRun_gated (memOk_begun hok) ha hx hg, ewResult_begun,
    ewElem_intExact hsi hdi hns _ _ (by rw [hva, hvb, hvc, hsw]; exact hr), hdw]
  exact Nat.mod_eq_of_lt (placed_lt _ _ _ _)

end Sys2Proof.Proofs
end

section
/-! SUPPORT. Floating formats with infinities (03 R105, R119 to R121): the magnitudes of their encodings in order, what an encoding decodes
to, and `round_to` as the encoding below the exact value and whether it goes up from there. -/

open Sys2Proof Sys2Proof.Machine Sys2Proof.Claims

namespace Sys2Proof.Proofs

/-! ### Magnitudes of encodings -/

/-- The sign of a value as a factor. -/
def sgn (neg : Bool) : ℚ := if neg then -1 else 1

/-- The step from the magnitude that `z` encodes to the next. -/
def ulp (F : FFmt) (z : Nat) : ℚ := 2 ^ (max (z / 2 ^ F.fb : Int) 1 - F.bias - F.fb)

/-- The significand of a magnitude encoding, with the hidden bit of a normal one. -/
def sig (F : FFmt) (z : Nat) : Nat := if z < 2 ^ F.fb then z else 2 ^ F.fb + z % 2 ^ F.fb

/-- The magnitude that `z` encodes, as if the exponent field had no bound. -/
def magOf (F : FFmt) (z : Nat) : ℚ := sig F z * ulp F z

theorem ulp_pos (F : FFmt) (z : Nat) : 0 < ulp F z := by unfold ulp; positivity

/-- A subnormal encoding. -/
theorem ulp_of_lt {F : FFmt} {z : Nat} (h : z < 2 ^ F.fb) : ulp F z = 2 ^ (1 - F.bias - F.fb) := by
  have h0 : (z / 2 ^ F.fb : Int) = 0 := by exact_mod_cast Nat.div_eq_of_lt h
  unfold ulp
  rw [h0]
  rfl

theorem magOf_of_lt {F : FFmt} {z : Nat} (h : z < 2 ^ F.fb) : magOf F z = z * 2 ^ (1 - F.bias - F.fb) := by
  unfold magOf sig
  rw [ulp_of_lt h, if_pos h]

/-- A normal encoding with exponent field `E` and fraction `f`. -/
theorem ulp_normal {F : FFmt} {E f : Nat} (hE : 1 ≤ E) (hf : f < 2 ^ F.fb) :
    ulp F (E * 2 ^ F.fb + f) = 2 ^ ((E : Int) - F.bias - F.fb) := by
  have hd : ((E * 2 ^ F.fb + f : Nat) / 2 ^ F.fb : Int) = E := by
    have h : (E * 2 ^ F.fb + f) / 2 ^ F.fb = E := by
      rw [Nat.mul_comm, Nat.mul_add_div (Nat.two_pow_pos _), Nat.div_eq_of_lt hf, Nat.add_zero]
    exact_mod_cast h
  unfold ulp
  rw [hd, max_eq_left (by exact_mod_cast hE)]

theorem magOf_normal {F : FFmt} {E f : Nat} (hE : 1 ≤ E) (hf : f < 2 ^ F.fb) :
    magOf F (E * 2 ^ F.fb + f) = (2 ^ F.fb + f : Nat) * 2 ^ ((E : Int) - F.bias - F.fb) := by
  have hge : ¬ E * 2 ^ F.fb + f < 2 ^ F.fb := by nlinarith [Nat.two_pow_pos F.fb]
  unfold magOf sig
  rw [ulp_normal hE hf, if_neg hge, Nat.mul_comm, Nat.mul_add_mod, Nat.mod_eq_of_lt hf]

/-- Every encoding is subnormal or normal. -/
theorem encoding_cases (F : FFmt) (z : Nat) : z < 2 ^ F.fb ∨ ∃ E f, 1 ≤ E ∧ f < 2 ^ F.fb ∧ z = E * 2 ^ F.fb + f := by
  by_cases h : z < 2 ^ F.fb
  · exact .inl h
  · refine .inr ⟨z / 2 ^ F.fb, z % 2 ^ F.fb, ?_, Nat.mod_lt _ (Nat.two_pow_pos _), (Nat.div_add_mod' z _).symm⟩
    exact (Nat.one_le_div_iff (Nat.two_pow_pos _)).mpr (Nat.not_lt.mp h)

/-- The next encoding has the next magnitude, also across a binade. -/
theorem magOf_succ (F : FFmt) (z : Nat) : magOf F (z + 1) = magOf F z + ulp F z := by
  have hp : 0 < 2 ^ F.fb := Nat.two_pow_pos _
  obtain h | ⟨E, f, hE, hf, rfl⟩ := encoding_cases F z
  · rw [magOf_of_lt h, ulp_of_lt h]
    obtain h1 | h1 : z + 1 < 2 ^ F.fb ∨ z + 1 = 1 * 2 ^ F.fb + 0 := by omega
    · rw [magOf_of_lt h1]; push_cast; ring
    · have hz : (2 ^ F.fb + 0 : Nat) = z + 1 := by omega
      rw [h1, magOf_normal le_rfl hp, hz]
      push_cast; ring
  · rw [magOf_normal hE hf, ulp_normal hE hf]
    obtain h1 | h1 : f + 1 < 2 ^ F.fb ∨ f + 1 = 2 ^ F.fb := by omega
    · rw [Nat.add_assoc, magOf_normal hE h1]; push_cast; ring
    · have hz : E * 2 ^ F.fb + f + 1 = (E + 1) * 2 ^ F.fb + 0 := by rw [Nat.add_assoc, h1]; ring
      have he : ((E + 1 : Nat) : Int) - F.bias - F.fb = (E : Int) - F.bias - F.fb + 1 := by push_cast; ring
      have hq : ((2 : ℚ) ^ F.fb) = f + 1 := by exact_mod_cast h1.symm
      rw [hz, magOf_normal (by omega) hp, he, zpow_add_one₀ (by norm_num)]
      push_cast
      rw [hq]
      ring

theorem magOf_zero (F : FFmt) : magOf F 0 = 0 := by
  rw [magOf_of_lt (Nat.two_pow_pos _)]; simp

theorem magOf_strictMono (F : FFmt) : StrictMono (magOf F) :=
  strictMono_nat_of_lt_succ fun z => by rw [magOf_succ]; linarith [ulp_pos F z]

theorem magOf_nonneg (F : FFmt) (z : Nat) : 0 ≤ magOf F z := magOf_zero F ▸ (magOf_strictMono F).monotone (Nat.zero_le z)

/-! ### Decoding -/

/-- Infinity's encoding leaves the sign bit free. -/
theorem infEnc_lt (F : FFmt) : F.infEnc < 2 ^ (F.eb + F.fb) := by
  unfold FFmt.infEnc
  rw [pow_add]
  exact Nat.mul_lt_mul_of_pos_right (Nat.sub_lt (Nat.two_pow_pos _) Nat.one_pos) (Nat.two_pow_pos _)

/-- The fields of an encoding. -/
theorem fields_enc (F : FFmt) (neg : Bool) {z : Nat} (hz : z < 2 ^ (F.eb + F.fb)) : bitOf (F.enc neg z) (F.eb + F.fb) = neg
    ∧ bitsOf (F.enc neg z) F.fb F.eb = z / 2 ^ F.fb ∧ bitsOf (F.enc neg z) 0 F.fb = z % 2 ^ F.fb := by
  have hE : z / 2 ^ F.fb < 2 ^ F.eb := by
    rw [Nat.div_lt_iff_lt_mul (Nat.two_pow_pos _), ← pow_add]; exact hz
  have hs : F.signBit = 2 ^ F.fb * 2 ^ F.eb := by unfold FFmt.signBit; rw [pow_add, Nat.mul_comm]
  unfold bitOf bitsOf FFmt.enc
  cases neg with
  | false => simp [Nat.div_eq_of_lt hz, Nat.mod_eq_of_lt hE]
  | true =>
    refine ⟨?_, ?_, ?_⟩
    · simp only [if_true, FFmt.signBit]
      rw [Nat.add_div_left _ (Nat.two_pow_pos _), Nat.div_eq_of_lt hz]
      rfl
    · rw [if_pos rfl, hs, Nat.mul_add_div (Nat.two_pow_pos _), Nat.add_mod_left, Nat.mod_eq_of_lt hE]
    · rw [if_pos rfl, hs, pow_zero, Nat.div_one, Nat.mul_add_mod]

/-- An encoding takes the format's width, and its top bit is its sign. -/
theorem enc_lt (F : FFmt) (neg : Bool) {z : Nat} (hz : z < 2 ^ (F.eb + F.fb)) : F.enc neg z < 2 ^ (F.eb + F.fb + 1) := by
  rw [pow_succ]
  unfold FFmt.enc FFmt.signBit
  split <;> omega

theorem testBit_enc (F : FFmt) (neg : Bool) {z : Nat} (hz : z < 2 ^ (F.eb + F.fb)) : (F.enc neg z).testBit (F.eb + F.fb) = neg := by
  obtain ⟨hn, -⟩ := fields_enc F neg hz
  rw [Nat.testBit_eq_decide_div_mod_eq]
  exact hn

/-- A format with infinities, in which the encoding after the largest finite magnitude is infinity's. -/
structure HasInf (F : FFmt) : Prop where
  spec : F.spec = .ieee
  next : F.maxEnc + 1 = F.infEnc
  frac : 1 ≤ F.fb

section

variable {F : FFmt} (hF : HasInf F)
include hF

/-- A finite encoding decodes to its sign and its magnitude. -/
theorem decode_finite (neg : Bool) {z : Nat} (hz : z ≤ F.maxEnc) :
    ∃ r, F.decode false (F.enc neg z) = .fin r ∧ rat r = sgn neg * magOf F z := by
  have hinf : z < F.infEnc := by have := hF.next; omega
  obtain ⟨hn, hE, hf⟩ := fields_enc F neg (hinf.trans (infEnc_lt F))
  have hE' : z / 2 ^ F.fb < 2 ^ F.eb - 1 := by
    rw [Nat.div_lt_iff_lt_mul (Nat.two_pow_pos _)]; exact hinf
  unfold FFmt.decode
  simp only [hn, hE, hf, hF.spec, hE'.ne, if_false, Bool.false_eq_true, or_false]
  obtain h | ⟨E, f, h1, hf', rfl⟩ := encoding_cases F z
  · rw [if_pos (Nat.div_eq_of_lt h), Nat.mod_eq_of_lt h]
    split
    · next h0 => exact ⟨_, rfl, by rw [h0, magOf_zero]; simp [rat]⟩
    · exact ⟨_, rfl, by rw [magOf_of_lt h]; simp only [rat, sgn]; ring⟩
  · have hd : (E * 2 ^ F.fb + f) / 2 ^ F.fb = E := by
      rw [Nat.mul_comm, Nat.mul_add_div (Nat.two_pow_pos _), Nat.div_eq_of_lt hf', Nat.add_zero]
    have hm : (E * 2 ^ F.fb + f) % 2 ^ F.fb = f := by rw [Nat.mul_comm, Nat.mul_add_mod, Nat.mod_eq_of_lt hf']
    rw [hd, hm, if_neg (by omega)]
    exact ⟨_, rfl, by rw [magOf_normal h1 hf']; simp only [rat, sgn]; ring⟩

/-- Infinity's encoding decodes to infinity. -/
theorem decode_infEnc (neg : Bool) : F.decode false (F.enc neg F.infEnc) = .inf neg := by
  obtain ⟨hn, hE, hf⟩ := fields_enc F neg (infEnc_lt F)
  have hd : F.infEnc / 2 ^ F.fb = 2 ^ F.eb - 1 := Nat.mul_div_cancel _ (Nat.two_pow_pos _)
  have hm : F.infEnc % 2 ^ F.fb = 0 := Nat.mul_mod_left _ _
  unfold FFmt.decode
  simp only [hn, hE, hf, hd, hm, hF.spec, if_true]

/-- Every encoding that decodes to a number is a finite one. -/
theorem finite_of_decode {e : Nat} (he : e < 2 ^ (F.eb + F.fb + 1)) {y : Dy} (h : F.decode false e = .fin y) :
    ∃ neg z, z ≤ F.maxEnc ∧ rat y = sgn neg * magOf F z := by
  obtain ⟨neg, z, hz, rfl⟩ : ∃ neg z, z < 2 ^ (F.eb + F.fb) ∧ e = F.enc neg z := by
    rw [pow_succ] at he
    by_cases hs : e < 2 ^ (F.eb + F.fb)
    · exact ⟨false, e, hs, rfl⟩
    · exact ⟨true, e - 2 ^ (F.eb + F.fb), by omega, by unfold FFmt.enc FFmt.signBit; rw [if_pos rfl]; omega⟩
  have hle : z ≤ F.maxEnc := by
    by_contra hgt
    have hinf : (2 ^ F.eb - 1) * 2 ^ F.fb ≤ z := by have := hF.next; unfold FFmt.infEnc at this; omega
    obtain ⟨hn, hE, hf⟩ := fields_enc F neg hz
    have hE' : z / 2 ^ F.fb = 2 ^ F.eb - 1 := by
      apply Nat.le_antisymm
      · have : z / 2 ^ F.fb < 2 ^ F.eb := by rw [Nat.div_lt_iff_lt_mul (Nat.two_pow_pos _), ← pow_add]; exact hz
        omega
      · exact (Nat.le_div_iff_mul_le (Nat.two_pow_pos _)).mpr hinf
    unfold FFmt.decode at h
    simp only [hE, hE', hF.spec, if_true] at h
    split at h <;> cases h
  obtain ⟨r, hr, hrat⟩ := decode_finite hF neg hle
  obtain rfl : r = y := by rw [hr] at h; exact Val.fin.inj h
  exact ⟨neg, z, hle, hrat⟩

/-- The sign bit does not count for the parity of an encoding. -/
theorem enc_mod_two (neg : Bool) (z : Nat) : F.enc neg z % 2 = z % 2 := by
  unfold FFmt.enc FFmt.signBit
  have := hF.frac
  obtain ⟨k, hk⟩ : ∃ k, F.eb + F.fb = k + 1 := ⟨F.eb + F.fb - 1, by omega⟩
  split
  · rw [hk, pow_succ]; omega
  · rfl

/-- The largest finite magnitude has an odd encoding. -/
theorem maxEnc_odd : F.maxEnc % 2 = 1 := by
  have h := hF.next
  have := hF.frac
  obtain ⟨k, hk⟩ : ∃ k, F.fb = k + 1 := ⟨F.fb - 1, by omega⟩
  have : F.infEnc % 2 = 0 := by unfold FFmt.infEnc; rw [hk, pow_succ, ← Nat.mul_assoc]; exact Nat.mul_mod_left _ _
  omega

end

end Sys2Proof.Proofs
end

section
/-! SUPPORT. `round_to` into a format with infinities (03 R119 to R121, R123): the encoding at or below the exact magnitude, and the rule by
which the result goes up from there. -/

open Sys2Proof Sys2Proof.Machine Sys2Proof.Claims

namespace Sys2Proof.Proofs

/-! ### Exact numbers -/

/-- The magnitude of an exact number. -/
def magnitude (d : Dy) : ℚ := d.n * 2 ^ d.e

theorem rat_eq (d : Dy) : rat d = sgn d.neg * magnitude d := by
  unfold rat sgn magnitude; ring

theorem magnitude_pos {d : Dy} (h : d.n ≠ 0) : 0 < magnitude d := by
  unfold magnitude
  have : (0 : ℚ) < d.n := by exact_mod_cast Nat.pos_of_ne_zero h
  positivity

/-- A number lies in the binade that its exponent names. -/
theorem floorLog2_bounds {d : Dy} (h : d.n ≠ 0) : (2 : ℚ) ^ d.floorLog2 ≤ magnitude d ∧ magnitude d < 2 ^ (d.floorLog2 + 1) := by
  have he : (0 : ℚ) < 2 ^ d.e := by positivity
  have hlo : ((2 : ℚ) ^ Nat.log2 d.n) ≤ d.n := by exact_mod_cast Nat.log2_self_le h
  have hhi : (d.n : ℚ) < 2 ^ (Nat.log2 d.n + 1) := by exact_mod_cast Nat.lt_log2_self
  unfold Dy.floorLog2 magnitude
  rw [show (Nat.log2 d.n : Int) + d.e + 1 = ((Nat.log2 d.n + 1 : Nat) : Int) + d.e by push_cast; ring,
    zpow_add₀ (by norm_num), zpow_add₀ (by norm_num), zpow_natCast, zpow_natCast]
  exact ⟨mul_le_mul_of_nonneg_right hlo he.le, mul_lt_mul_of_pos_right hhi he⟩

/-! ### Going up -/

/-- Whether the rounding goes up from the encoding `k`, the exact magnitude being the fraction `f` of a step above it (Table 3.5). -/
def roundsUp (rnd : Nat) (neg : Bool) (k : Nat) (f : ℚ) (rb : Nat) : Bool :=
  if rnd = rNE then decide (1 / 2 < f) || (decide (f = 1 / 2) && decide (k % 2 = 1))
  else if rnd = rTZ then false
  else if rnd = rDN then neg && decide (0 < f)
  else if rnd = rUP then !neg && decide (0 < f)
  else decide (2 ^ 16 ≤ ⌊f * 2 ^ 16⌋₊ + rb)

theorem roundsUp_exact (rnd : Nat) (neg : Bool) (k : Nat) {rb : Nat} (h : rb < 2 ^ 16) : roundsUp rnd neg k 0 rb = false := by
  have hhalf : ¬ (1 : ℚ) / 2 < 0 := by norm_num
  have htie : ¬ (0 : ℚ) = 1 / 2 := by norm_num
  have hsr : ¬ 2 ^ 16 ≤ ⌊(0 : ℚ) * 2 ^ 16⌋₊ + rb := by simpa using h
  unfold roundsUp
  simp only [hhalf, htie, hsr, lt_irrefl, decide_false, Bool.and_false, Bool.false_and, Bool.or_false, ite_self]

/-- `roundAt` splits an exact magnitude into whole steps and a fraction of one, and goes up by the fraction. -/
theorem roundAt_spec {d : Dy} (hst : d.st = false) (q : Int) (rnd : Nat) {rb : Nat} (hrb : rb < 2 ^ 16) :
    ∃ f : ℚ, 0 ≤ f ∧ f < 1 ∧ magnitude d = ((roundAt d q rnd rb).1 + f) * 2 ^ q
      ∧ (roundAt d q rnd rb).2.1 = roundsUp rnd d.neg (roundAt d q rnd rb).1 f rb := by
  unfold roundAt magnitude
  dsimp only
  split
  · next hsh =>
    refine ⟨0, le_rfl, one_pos, ?_, ?_⟩
    · have hp : ((pow2 (-(q - d.e)) : Nat) : ℚ) = 2 ^ (d.e - q) := by
        unfold pow2
        rw [Nat.cast_pow, ← zpow_natCast, Int.toNat_of_nonneg (by omega)]
        norm_num
      rw [add_zero, Nat.cast_mul, hp, mul_assoc, ← zpow_add₀ (by norm_num)]
      congr 2
      ring
    · rw [roundsUp_exact _ _ _ hrb]; simp [hst]
  · next hsh =>
    have hp : ((pow2 (q - d.e) : Nat) : ℚ) = 2 ^ (q - d.e) := by
      unfold pow2
      rw [Nat.cast_pow, ← zpow_natCast, Int.toNat_of_nonneg (by omega)]
      norm_num
    have hp0 : 0 < pow2 (q - d.e) := Nat.two_pow_pos _
    generalize hP : pow2 (q - d.e) = p at hp hp0 ⊢
    have hpQ : (0 : ℚ) < p := by exact_mod_cast hp0
    have hr : d.n % p < p := Nat.mod_lt _ hp0
    have hrQ : ((d.n % p : Nat) : ℚ) < p := by exact_mod_cast hr
    refine ⟨(d.n % p : Nat) / p, by positivity, (div_lt_one hpQ).mpr hrQ, ?_, ?_⟩
    · have hn : (d.n : ℚ) = p * (d.n / p : Nat) + (d.n % p : Nat) := by exact_mod_cast (Nat.div_add_mod d.n p).symm
      have hpow : (2 : ℚ) ^ q = p * 2 ^ d.e := by rw [hp, ← zpow_add₀ (by norm_num)]; congr 1; ring
      rw [hpow, ← mul_assoc, add_mul, div_mul_cancel₀ _ hpQ.ne', hn]
      ring
    · generalize d.n % p = r
      have hgt : (1 / 2 : ℚ) < r / p ↔ p < 2 * r := by
        rw [div_lt_div_iff₀ (by norm_num) hpQ, one_mul, mul_comm (r : ℚ)]; exact_mod_cast Iff.rfl
      have htie : (r / p : ℚ) = 1 / 2 ↔ 2 * r = p := by
        rw [div_eq_div_iff hpQ.ne' (by norm_num), one_mul, mul_comm (r : ℚ)]; exact_mod_cast Iff.rfl
      have hpos : (0 : ℚ) < r / p ↔ r ≠ 0 := by
        rw [div_pos_iff_of_pos_right hpQ, Nat.cast_pos, Nat.pos_iff_ne_zero]
      have hfl : ⌊(r / p : ℚ) * 2 ^ 16⌋₊ = r * 2 ^ 16 / p := by
        rw [div_mul_eq_mul_div, ← Nat.floor_div_eq_div (K := ℚ)]
        push_cast
        rfl
      unfold roundsUp
      simp only [hgt, htie, hpos, hfl, hst]
      simp [rNE, rTZ, rDN, rUP]

/-! ### From whole steps to an encoding -/

/-- The encoding of `m` steps of size 2^q. -/
def encodeAt (F : FFmt) (q : Int) (m : Nat) : Nat :=
  if m < 2 ^ F.fb then m else (q + F.fb + F.bias).toNat * 2 ^ F.fb + (m - 2 ^ F.fb)

/-- Up to twice the hidden bit, steps of the size of the binade are encoded in order. -/
theorem encodeAt_spec {F : FFmt} (hfb : 1 ≤ F.fb) {q : Int} {k : Nat} (hk : k < 2 ^ (F.fb + 1))
    (hq : q = 1 - F.bias - F.fb ∨ (2 ^ F.fb ≤ k ∧ 1 - F.bias - F.fb ≤ q)) :
    magOf F (encodeAt F q k) = k * 2 ^ q ∧ ulp F (encodeAt F q k) = 2 ^ q ∧ encodeAt F q (k + 1) = encodeAt F q k + 1
      ∧ encodeAt F q k % 2 = k % 2 := by
  rw [pow_succ] at hk
  unfold encodeAt
  by_cases h : k < 2 ^ F.fb
  · obtain rfl : q = 1 - F.bias - F.fb := hq.resolve_right (by omega)
    have hone : ((1 : Int) - F.bias - F.fb + F.fb + F.bias).toNat = 1 := by
      rw [show (1 : Int) - F.bias - F.fb + F.fb + F.bias = 1 by ring]; rfl
    rw [if_pos h, hone]
    refine ⟨magOf_of_lt h, ulp_of_lt h, ?_, rfl⟩
    split <;> omega
  · obtain ⟨E, hE⟩ : ∃ E : Nat, q + F.fb + F.bias = E := ⟨(q + F.fb + F.bias).toNat, by omega⟩
    have hE1 : 1 ≤ E := by omega
    have hf : k - 2 ^ F.fb < 2 ^ F.fb := by omega
    have hqE : (E : Int) - F.bias - F.fb = q := by omega
    obtain ⟨j, hj⟩ : ∃ j, F.fb = j + 1 := ⟨F.fb - 1, by omega⟩
    rw [if_neg h, if_neg (by omega), hE, Int.toNat_natCast, magOf_normal hE1 hf, ulp_normal hE1 hf, hqE,
      Nat.add_sub_cancel' (Nat.not_lt.mp h)]
    refine ⟨rfl, rfl, by omega, ?_⟩
    have heven : E * 2 ^ F.fb % 2 = 0 ∧ 2 ^ F.fb % 2 = 0 := by
      rw [hj, pow_succ, ← Nat.mul_assoc]; exact ⟨Nat.mul_mod_left _ _, Nat.mul_mod_left _ _⟩
    omega

/-! ### `round_to` of an exact number -/

/-- `z` encodes the greatest magnitude up to `u`. -/
structure Below (F : FFmt) (z : Nat) (u : ℚ) : Prop where
  le : magOf F z ≤ u
  lt : u < magOf F z + ulp F z

/-- The fraction of a step by which `u` lies above the magnitude that `z` encodes. -/
def above (F : FFmt) (z : Nat) (u : ℚ) : ℚ := (u - magOf F z) / ulp F z

/-- What is stored for the magnitude encoding `m`: past the largest finite one, what Table 3.5 has for an overflow. -/
def stored (F : FFmt) (neg : Bool) (rnd m : Nat) : Nat := if F.maxEnc < m then F.overflow neg rnd false else F.enc neg m

/-- `round_to` without SAT and FTZ stores the encoding below the magnitude, or the next where the rounding goes up. -/
theorem round_fin {F : FFmt} (hfb : 1 ≤ F.fb) {d : Dy} (hst : d.st = false) (hn : d.n ≠ 0) (rnd : Nat) {rb : Nat} (hrb : rb < 2 ^ 16) :
    ∃ z, Below F z (magnitude d) ∧ (F.round rnd false false rb (.fin d)).1
      = stored F d.neg rnd (z + (roundsUp rnd d.neg z (above F z (magnitude d)) rb).toNat) := by
  obtain ⟨hlo, hhi⟩ := floorLog2_bounds hn
  set q := max d.floorLog2 (1 - F.bias) - F.fb with hq
  obtain ⟨f, hf0, hf1, hu, hup⟩ := roundAt_spec hst q rnd hrb
  have hround : (F.round rnd false false rb (.fin d)).1
      = stored F d.neg rnd (encodeAt F q ((roundAt d q rnd rb).1 + (roundAt d q rnd rb).2.1.toNat)) := by
    have hto : ∀ b : Bool, (if b = true then 1 else 0) = b.toNat := by decide
    unfold FFmt.round stored encodeAt
    simp only [hn, if_false, Bool.false_eq_true, false_and, ← hq, hto]
    exact apply_ite Prod.fst _ _ _
  rw [hround, hup]
  generalize (roundAt d q rnd rb).1 = k at hu ⊢
  have hq0 : (0 : ℚ) < 2 ^ q := by positivity
  have hkle : (k : ℚ) * 2 ^ q ≤ magnitude d := by rw [hu]; nlinarith
  have hklt : magnitude d < (k + 1 : ℚ) * 2 ^ q := by rw [hu]; nlinarith
  have hk : k < 2 ^ (F.fb + 1) := by
    have h : (k : ℚ) * 2 ^ q < 2 ^ (F.fb + 1) * 2 ^ q := by
      refine (hkle.trans_lt hhi).trans_le ?_
      rw [← zpow_natCast, ← zpow_add₀ (by norm_num)]
      refine zpow_le_zpow_right₀ (by norm_num) ?_
      push_cast; omega
    exact_mod_cast lt_of_mul_lt_mul_right h hq0.le
  have hqk : q = 1 - F.bias - F.fb ∨ (2 ^ F.fb ≤ k ∧ 1 - F.bias - F.fb ≤ q) := by
    by_cases hL : d.floorLog2 ≤ 1 - F.bias
    · exact .inl (by omega)
    · refine .inr ⟨?_, by omega⟩
      have h : (2 : ℚ) ^ F.fb * 2 ^ q < (k + 1) * 2 ^ q := by
        refine lt_of_le_of_lt (le_trans ?_ hlo) hklt
        rw [← zpow_natCast, ← zpow_add₀ (by norm_num)]
        refine zpow_le_zpow_right₀ (by norm_num) ?_
        omega
      have h' : 2 ^ F.fb < k + 1 := by exact_mod_cast lt_of_mul_lt_mul_right h hq0.le
      omega
  obtain ⟨hmag, hulp, hsucc, hpar⟩ := encodeAt_spec hfb hk hqk
  have habove : above F (encodeAt F q k) (magnitude d) = f := by
    unfold above
    rw [hmag, hulp, hu]
    field_simp
    ring
  refine ⟨encodeAt F q k, ⟨by rw [hmag]; exact hkle, by rw [hmag, hulp]; linarith⟩, ?_⟩
  have hsame : roundsUp rnd d.neg (encodeAt F q k) f rb = roundsUp rnd d.neg k f rb := by unfold roundsUp; rw [hpar]
  rw [habove, hsame]
  cases roundsUp rnd d.neg k f rb with
  | false => rfl
  | true => exact congrArg _ hsucc

end Sys2Proof.Proofs
end

section
/-! SUPPORT. FP32, BF16 and FP16 (03 R119 to R124, Table 3.5): what `round_to` stores is the exact value rounded once, under each mode. -/

open Sys2Proof Sys2Proof.Machine Sys2Proof.Claims

namespace Sys2Proof.Proofs

/-! ### FP32, BF16 and FP16 -/

/-- The largest finite value of FP32, BF16 and FP16. -/
def topOf (code : Nat) : ℚ :=
  match code with
  | 0 => (2 - 2 ^ (-23 : Int)) * 2 ^ (127 : Int) | 1 => (2 - 2 ^ (-7 : Int)) * 2 ^ (127 : Int) | _ => (2 - 2 ^ (-10 : Int)) * 2 ^ (15 : Int)

/-- Half the step below it. -/
def halfOf (code : Nat) : ℚ := match code with | 0 => 2 ^ (103 : Int) | 1 => 2 ^ (119 : Int) | _ => 2 ^ (4 : Int)

section

variable {code : Nat} {F : FFmt} (hc : code ≤ 2) (hf : ffmt code = some F)
include hc hf

theorem hasInf_of_wide : HasInf F := by
  interval_cases code <;> cases hf <;> exact ⟨rfl, by norm_num [FFmt.infEnc], by norm_num⟩

theorem fmtWidth_of_wide : fmtWidth code = F.eb + F.fb + 1 := by
  interval_cases code <;> cases hf <;> rfl

theorem topOf_eq : topOf code = magOf F F.maxEnc := by
  interval_cases code <;> cases hf <;> norm_num [topOf, magOf, sig, ulp]

theorem halfOf_eq : halfOf code = ulp F F.maxEnc / 2 := by
  interval_cases code <;> cases hf <;> norm_num [halfOf, ulp]

end

/-! ### The encodings below and above an exact magnitude -/

theorem above_pos_iff (F : FFmt) (z : Nat) (u : ℚ) : 0 < above F z u ↔ magOf F z < u := by
  unfold above
  rw [div_pos_iff_of_pos_right (ulp_pos F z), sub_pos]

theorem half_lt_above_iff (F : FFmt) (z : Nat) (u : ℚ) : 1 / 2 < above F z u ↔ magOf F z + ulp F z / 2 < u := by
  unfold above
  rw [lt_div_iff₀ (ulp_pos F z)]
  constructor <;> intro h <;> linarith

theorem above_eq_half_iff (F : FFmt) (z : Nat) (u : ℚ) : above F z u = 1 / 2 ↔ u = magOf F z + ulp F z / 2 := by
  unfold above
  rw [div_eq_iff (ulp_pos F z).ne']
  constructor <;> intro h <;> linarith

/-- Whether the rounding to nearest goes up. -/
def nearestUp (F : FFmt) (z : Nat) (u : ℚ) : Bool :=
  decide (1 / 2 < above F z u) || (decide (above F z u = 1 / 2) && decide (z % 2 = 1))

/-- Where it goes up, `u` is past the middle, or in the middle above an odd encoding. -/
theorem nearestUp_cases (F : FFmt) (z : Nat) (u : ℚ) :
    (nearestUp F z u = true ∧ magOf F z + ulp F z / 2 ≤ u ∧ (u = magOf F z + ulp F z / 2 → z % 2 = 1))
    ∨ (nearestUp F z u = false ∧ u ≤ magOf F z + ulp F z / 2 ∧ (u = magOf F z + ulp F z / 2 → z % 2 = 0)) := by
  unfold nearestUp
  simp only [half_lt_above_iff, above_eq_half_iff]
  obtain h | h | h := lt_trichotomy u (magOf F z + ulp F z / 2)
  · exact .inr ⟨by simp [h.not_gt, h.ne], h.le, fun e => absurd e h.ne⟩
  · obtain hz | hz := Nat.mod_two_eq_zero_or_one z
    · exact .inr ⟨by simp [h, hz], h.le, fun _ => hz⟩
    · exact .inl ⟨by simp [h, hz], h.ge, fun _ => hz⟩
  · exact .inl ⟨by simp [h], h.le, fun e => absurd e h.ne'⟩

section

variable {F : FFmt} {z : Nat} {u : ℚ} (hb : Below F z u)
include hb

theorem le_of_magOf_le {k : Nat} (h : magOf F k ≤ u) : k ≤ z := by
  by_contra hk
  have : magOf F (z + 1) ≤ magOf F k := (magOf_strictMono F).monotone (by omega)
  rw [magOf_succ] at this
  linarith [hb.lt]

/-- Toward zero: the greatest finite magnitude up to `u`. -/
theorem truncated (M : Nat) : magOf F (min z M) ≤ u ∧ ∀ k ≤ M, magOf F k ≤ u → magOf F k ≤ magOf F (min z M) := by
  refine ⟨((magOf_strictMono F).monotone (min_le_left z M)).trans hb.le, fun k hk h => ?_⟩
  exact (magOf_strictMono F).monotone (le_min (le_of_magOf_le hb h) hk)

/-- Away from zero: the least magnitude from `u` on. -/
theorem raised : u ≤ magOf F (z + (decide (0 < above F z u)).toNat)
    ∧ ∀ k, u ≤ magOf F k → magOf F (z + (decide (0 < above F z u)).toNat) ≤ magOf F k := by
  have hlt := hb.lt
  by_cases h : magOf F z < u
  · rw [decide_eq_true ((above_pos_iff F z u).mpr h)]
    refine ⟨by rw [Bool.toNat_true, magOf_succ]; exact hlt.le, fun k hk => (magOf_strictMono F).monotone ?_⟩
    exact (magOf_strictMono F).lt_iff_lt.mp (h.trans_le hk)
  · rw [decide_eq_false (fun hp => h ((above_pos_iff F z u).mp hp))]
    exact ⟨not_lt.mp h, fun k hk => hb.le.trans hk⟩

/-- To nearest: no magnitude is closer to `u`, and of two that are as close the even encoding is taken. -/
theorem nearest (k : Nat) : |magOf F (z + (nearestUp F z u).toNat) - u| ≤ |magOf F k - u|
    ∧ (|magOf F (z + (nearestUp F z u).toNat) - u| = |magOf F k - u| → magOf F k ≠ magOf F (z + (nearestUp F z u).toNat) →
      (z + (nearestUp F z u).toNat) % 2 = 0) := by
  have hlo := hb.le
  have hhi := hb.lt
  have hsucc := magOf_succ F z
  have hmono := (magOf_strictMono F).monotone
  have hk : (k ≤ z ∧ |magOf F k - u| = u - magOf F k ∧ magOf F k ≤ magOf F z)
      ∨ (z + 1 ≤ k ∧ |magOf F k - u| = magOf F k - u ∧ magOf F (z + 1) ≤ magOf F k) := by
    obtain h | h : k ≤ z ∨ z + 1 ≤ k := by omega
    · have := hmono h
      exact .inl ⟨h, by rw [abs_of_nonpos (by linarith)]; ring, this⟩
    · have := hmono h
      exact .inr ⟨h, abs_of_nonneg (by linarith), this⟩
  obtain ⟨hup, hmid, htie⟩ | ⟨hup, hmid, htie⟩ := nearestUp_cases F z u
  · rw [hup, Bool.toNat_true, abs_of_nonneg (by linarith : (0 : ℚ) ≤ magOf F (z + 1) - u)]
    obtain ⟨-, he, hle⟩ | ⟨-, he, hle⟩ := hk <;> rw [he]
    · exact ⟨by linarith, fun e _ => by have := htie (by linarith); omega⟩
    · exact ⟨by linarith, fun e hne => absurd (by linarith) hne⟩
  · rw [hup, Bool.toNat_false, Nat.add_zero, abs_of_nonpos (by linarith : magOf F z - u ≤ 0)]
    obtain ⟨-, he, hle⟩ | ⟨-, he, hle⟩ := hk <;> rw [he]
    · exact ⟨by linarith, fun e hne => absurd (by linarith) hne⟩
    · exact ⟨by linarith, fun e _ => htie (by linarith)⟩

/-- The rounding to nearest passes the largest finite magnitude exactly from half a step above it on. -/
theorem nearest_overflows_iff {M : Nat} (hM : M % 2 = 1) :
    M < z + (nearestUp F z u).toNat ↔ magOf F M + ulp F M / 2 ≤ u := by
  have hlo := hb.le
  have hhi := hb.lt
  have hpos := ulp_pos F M
  obtain h | rfl | h : z + 1 ≤ M ∨ z = M ∨ M + 1 ≤ z := by omega
  · have hle : magOf F (z + 1) ≤ magOf F M := (magOf_strictMono F).monotone h
    rw [magOf_succ] at hle
    have : (nearestUp F z u).toNat ≤ 1 := Bool.toNat_le _
    exact ⟨fun hm => by omega, fun hm => by linarith⟩
  · obtain ⟨hup, hmid, -⟩ | ⟨hup, hmid, htie⟩ := nearestUp_cases F z u <;> rw [hup]
    · simpa using hmid
    · have : u ≠ magOf F z + ulp F z / 2 := fun e => by have := htie e; omega
      have := lt_of_le_of_ne hmid this
      simpa using this
  · have hle : magOf F (M + 1) ≤ magOf F z := (magOf_strictMono F).monotone h
    rw [magOf_succ] at hle
    exact ⟨fun _ => by linarith, fun _ => by omega⟩

end

/-! ### Signed values -/

theorem sgn_mul_self (a : Bool) : sgn a * sgn a = 1 := by cases a <;> norm_num [sgn]

theorem abs_sgn_mul (a : Bool) {m : ℚ} (hm : 0 ≤ m) : |sgn a * m| = m := by
  cases a <;> simp [sgn, abs_of_nonneg hm]

/-- The distance of two values by their signs. -/
theorem abs_sgn_sub (a b : Bool) {m u : ℚ} (hm : 0 ≤ m) (hu : 0 ≤ u) : |sgn a * m - sgn b * u| = if a = b then |m - u| else m + u := by
  have hneg : |-m - u| = m + u := by rw [← neg_add', abs_neg, abs_of_nonneg (by linarith)]
  cases a <;> cases b <;> simp [sgn]
  · linarith
  · exact hneg
  · rw [← abs_neg (m - u)]; congr 1; ring

/-- A value of a finite encoding. -/
def finiteIn (F : FFmt) (y : ℚ) : Prop := ∃ neg z, z ≤ F.maxEnc ∧ y = sgn neg * magOf F z

theorem finiteIn_neg {F : FFmt} {y : ℚ} (h : finiteIn F y) : finiteIn F (-y) := by
  obtain ⟨a, k, hk, rfl⟩ := h
  exact ⟨!a, k, hk, by cases a <;> simp [sgn]⟩

section

variable {F : FFmt} {z : Nat} {u y : ℚ} (hb : Below F z u) (hy : finiteIn F y)
include hb hy

/-- The greatest finite magnitude up to `u` is the greatest finite value up to it. -/
theorem le_truncated (h : y ≤ u) : y ≤ magOf F (min z F.maxEnc) := by
  obtain ⟨a, k, hk, rfl⟩ := hy
  cases a with
  | false => simpa [sgn] using (truncated hb F.maxEnc).2 k hk (by simpa [sgn] using h)
  | true =>
    have := magOf_nonneg F k
    have := magOf_nonneg F (min z F.maxEnc)
    simp only [sgn, if_true]
    linarith

/-- The least magnitude from `u` on is the least value from it on. -/
theorem raised_le (hu : 0 < u) (h : u ≤ y) : magOf F (z + (decide (0 < above F z u)).toNat) ≤ y := by
  obtain ⟨a, k, hk, rfl⟩ := hy
  cases a with
  | false => simpa [sgn] using (raised hb).2 k (by simpa [sgn] using h)
  | true =>
    have := magOf_nonneg F k
    simp only [sgn, if_true] at h
    linarith

end

/-! ### One rounding -/

theorem decodeElem_of_ffmt {code : Nat} {F : FFmt} (hf : ffmt code = some F) (bits : Nat) :
    decodeElem code false false bits = F.decode false bits := by
  unfold decodeElem; rw [hf]

section

variable {code : Nat} {F : FFmt} (hc : code ≤ 2) (hf : ffmt code = some F)
include hc hf

/-- An infinity stands for a value past the range. -/
theorem rounded_inf {rnd : Nat} (hr : rnd ≤ 3) {v : ℚ} {neg : Bool} (hs : if neg then v < 0 else 0 < v)
    (h0 : rnd = 0 → magOf F F.maxEnc + ulp F F.maxEnc / 2 ≤ |v|) (h1 : rnd ≠ 1) (h2 : rnd = 2 → v < -magOf F F.maxEnc)
    (h3 : rnd = 3 → magOf F F.maxEnc < v) : rounded code rnd v (F.enc neg F.infEnc) := by
  rw [← topOf_eq hc hf] at h0 h2 h3
  rw [← halfOf_eq hc hf] at h0
  unfold rounded
  refine ⟨by rw [fmtWidth_of_wide hc hf]; exact enc_lt F neg (infEnc_lt F), ?_⟩
  rw [decodeElem_of_ffmt hf, decode_infEnc (hasInf_of_wide hc hf)]
  refine ⟨hs, ?_⟩
  interval_cases rnd
  exacts [h0 rfl, h1 rfl, h2 rfl, h3 rfl]

/-- A finite result is the value that the mode takes among those of the format. -/
theorem rounded_finite {rnd : Nat} (hr : rnd ≤ 3) {v x : ℚ} {neg : Bool} {z : Nat} (hz : z ≤ F.maxEnc) (hx : x = sgn neg * magOf F z)
    (h0 : rnd = 0 → |v| < magOf F F.maxEnc + ulp F F.maxEnc / 2
      ∧ ∀ y, finiteIn F y → |x - v| ≤ |y - v| ∧ (|x - v| = |y - v| → y ≠ x → z % 2 = 0))
    (h1 : rnd = 1 → |x| ≤ |v| ∧ 0 ≤ x * v ∧ ∀ y, finiteIn F y → |y| ≤ |v| → 0 ≤ y * v → |y| ≤ |x|)
    (h2 : rnd = 2 → x ≤ v ∧ ∀ y, finiteIn F y → y ≤ v → y ≤ x)
    (h3 : rnd = 3 → v ≤ x ∧ ∀ y, finiteIn F y → v ≤ y → x ≤ y) : rounded code rnd v (F.enc neg z) := by
  have hF := hasInf_of_wide hc hf
  have hw := fmtWidth_of_wide hc hf
  have hinf := infEnc_lt F
  have hnext := hF.next
  rw [← topOf_eq hc hf, ← halfOf_eq hc hf] at h0
  obtain ⟨r, hr', hrat⟩ := decode_finite hF neg hz
  rw [← hx] at hrat
  subst hrat
  unfold rounded
  refine ⟨by rw [hw]; exact enc_lt F neg (by omega), ?_⟩
  rw [decodeElem_of_ffmt hf, hr']
  intro e he y hy
  rw [hw] at he
  rw [decodeElem_of_ffmt hf] at hy
  have hfin : finiteIn F (rat y) := finite_of_decode hF he hy
  interval_cases rnd
  · obtain ⟨hlt, h⟩ := h0 rfl
    obtain ⟨hle, htie⟩ := h _ hfin
    exact ⟨hlt, hle, fun h1 h2 => (enc_mod_two hF neg z).trans (htie h1 h2)⟩
  · obtain ⟨hle, hs, h⟩ := h1 rfl
    exact ⟨hle, hs, h _ hfin⟩
  · obtain ⟨hle, h⟩ := h2 rfl
    exact ⟨hle, h _ hfin⟩
  · obtain ⟨hle, h⟩ := h3 rfl
    exact ⟨hle, h _ hfin⟩

end

/-- Whether an overflow stops at the largest finite value (Table 3.5): the mode goes toward zero for that sign. -/
def towardZero (neg : Bool) (rnd : Nat) : Bool := rnd = rTZ || (rnd = rDN && !neg) || (rnd = rUP && neg)

theorem roundsUp_towardZero {neg : Bool} {rnd : Nat} (h : towardZero neg rnd = true) (z : Nat) (f : ℚ) (rb : Nat) :
    roundsUp rnd neg z f rb = false := by
  unfold towardZero at h
  unfold roundsUp
  simp only [Bool.or_eq_true, Bool.and_eq_true, decide_eq_true_eq, Bool.not_eq_true'] at h
  obtain (rfl | ⟨rfl, rfl⟩) | ⟨rfl, rfl⟩ := h <;> simp [rNE, rTZ, rDN, rUP]

theorem stored_towardZero {F : FFmt} {neg : Bool} {rnd : Nat} (h : towardZero neg rnd = true) (m : Nat) :
    stored F neg rnd m = F.enc neg (min m F.maxEnc) := by
  have hover : F.overflow neg rnd false = F.enc neg F.maxEnc := by
    unfold FFmt.overflow
    simp only [Bool.false_or]
    exact if_pos h
  unfold stored
  rw [hover]
  split
  · next hm => rw [min_eq_right hm.le]
  · next hm => rw [min_eq_left (not_lt.mp hm)]

theorem stored_pastRange {F : FFmt} (hF : HasInf F) {neg : Bool} {rnd : Nat} (h : towardZero neg rnd = false) (m : Nat) :
    stored F neg rnd m = F.enc neg (min m F.infEnc) := by
  have hover : F.overflow neg rnd false = F.enc neg F.infEnc := by
    unfold FFmt.overflow
    simp only [Bool.false_or, hF.spec]
    exact if_neg (by rw [Bool.not_eq_true]; exact h)
  have := hF.next
  unfold stored
  rw [hover]
  split
  · next hm => rw [min_eq_right (by omega)]
  · next hm => rw [min_eq_left (by omega)]

section

variable {code : Nat} {F : FFmt} (hc : code ≤ 2) (hf : ffmt code = some F) {z : Nat} {u : ℚ} (hb : Below F z u) (hu : 0 < u)
include hc hf hb hu

/-- A mode that goes toward zero takes the greatest finite magnitude up to the exact one. -/
theorem rounded_towardZero {neg : Bool} {rnd : Nat} (hr : rnd ≤ 3) (h : towardZero neg rnd = true) :
    rounded code rnd (sgn neg * u) (F.enc neg (min z F.maxEnc)) := by
  obtain ⟨hle, hmax⟩ := truncated hb F.maxEnc
  have hm := magOf_nonneg F (min z F.maxEnc)
  refine rounded_finite hc hf hr (min_le_right _ _) rfl ?_ ?_ ?_ ?_
  · rintro rfl; simp [towardZero, rTZ, rDN, rUP] at h
  · rintro rfl
    rw [abs_sgn_mul neg hm, abs_sgn_mul neg hu.le]
    refine ⟨hle, ?_, ?_⟩
    · rw [mul_mul_mul_comm, sgn_mul_self, one_mul]; positivity
    · rintro y ⟨a, k, hk, rfl⟩ hy -
      rw [abs_sgn_mul a (magOf_nonneg F k)] at hy ⊢
      exact hmax k hk hy
  · rintro rfl
    obtain rfl : neg = false := by simpa [towardZero, rTZ, rDN, rUP] using h
    simp only [sgn, Bool.false_eq_true, if_false, one_mul]
    exact ⟨hle, fun y hy => le_truncated hb hy⟩
  · rintro rfl
    obtain rfl : neg = true := by simpa [towardZero, rTZ, rDN, rUP] using h
    simp only [sgn, if_true, neg_one_mul]
    exact ⟨neg_le_neg hle, fun y hy h => neg_le.mp (le_truncated hb (finiteIn_neg hy) (neg_le.mp h))⟩

/-- The mode to nearest. -/
theorem rounded_nearest (neg : Bool) : rounded code 0 (sgn neg * u) (F.enc neg (min (z + (nearestUp F z u).toNat) F.infEnc)) := by
  have hF := hasInf_of_wide hc hf
  have hnext := hF.next
  have hover := nearest_overflows_iff hb (maxEnc_odd hF)
  by_cases hM : F.maxEnc < z + (nearestUp F z u).toNat
  · rw [min_eq_right (by omega)]
    refine rounded_inf hc hf (by decide) ?_ (fun _ => ?_) (by decide) (by simp) (by simp)
    · cases neg <;> simpa [sgn] using hu
    · rw [abs_sgn_mul neg hu.le]; exact hover.mp hM
  · rw [min_eq_left (by omega)]
    refine rounded_finite hc hf (by decide) (not_lt.mp hM) rfl (fun _ => ?_) (by simp) (by simp) (by simp)
    rw [abs_sgn_mul neg hu.le]
    refine ⟨not_le.mp fun h => hM (hover.mpr h), ?_⟩
    rintro y ⟨a, k, hk, rfl⟩
    have hm := magOf_nonneg F (z + (nearestUp F z u).toNat)
    have hk0 := magOf_nonneg F k
    obtain ⟨hle, htie⟩ := nearest hb k
    rw [abs_sgn_sub neg neg hm hu.le, if_pos rfl, abs_sgn_sub a neg hk0 hu.le]
    split
    · next ha => exact ⟨hle, fun e hne => htie e fun h => hne (by rw [ha, h])⟩
    · -- A value of the other sign is no closer than zero, which has both.
      obtain ⟨hle0, htie0⟩ := nearest hb 0
      rw [magOf_zero, zero_sub, abs_neg, abs_of_pos hu] at hle0 htie0
      refine ⟨by linarith, fun e hne => htie0 (by linarith) fun h => hne ?_⟩
      have hk' : magOf F k = 0 := by linarith
      rw [hk', ← h, mul_zero, mul_zero]

/-- A directed mode that goes away from zero. -/
theorem rounded_away {neg : Bool} {rnd : Nat} (h : rnd = 2 ∧ neg = true ∨ rnd = 3 ∧ neg = false) :
    rounded code rnd (sgn neg * u) (F.enc neg (min (z + (decide (0 < above F z u)).toNat) F.infEnc)) := by
  have hF := hasInf_of_wide hc hf
  have hnext := hF.next
  obtain ⟨hge, hmin⟩ := raised hb
  have hleast : ∀ y, finiteIn F y → u ≤ y → _ := fun y hy => raised_le hb hy hu
  generalize z + (decide (0 < above F z u)).toNat = m at hge hmin hleast ⊢
  by_cases hM : F.maxEnc < m
  · have htop : magOf F F.maxEnc < u := by
      by_contra hle
      exact absurd ((magOf_strictMono F).le_iff_le.mp (hmin _ (not_lt.mp hle))) (by omega)
    rw [min_eq_right (by omega)]
    obtain ⟨rfl, rfl⟩ | ⟨rfl, rfl⟩ := h <;> simp only [sgn, if_true, Bool.false_eq_true, if_false, neg_one_mul, one_mul]
    · exact rounded_inf hc hf (by decide) (neg_lt_zero.mpr hu) (by simp) (by decide) (fun _ => neg_lt_neg htop) (by simp)
    · exact rounded_inf hc hf (by decide) hu (by simp) (by decide) (by simp) (fun _ => htop)
  · rw [min_eq_left (by omega)]
    refine rounded_finite hc hf (by omega) (not_lt.mp hM) rfl ?_ ?_ ?_ ?_ <;> rintro rfl
    · omega
    · omega
    · obtain rfl : neg = true := by simpa using h
      simp only [sgn, if_true, neg_one_mul]
      exact ⟨neg_le_neg hge, fun y hy h => le_neg.mp (hleast _ (finiteIn_neg hy) (le_neg.mp h))⟩
    · obtain rfl : neg = false := by simpa using h
      simp only [sgn, Bool.false_eq_true, if_false, one_mul]
      exact ⟨hge, hleast⟩

/-- What is stored is the value rounded once under the mode. -/
theorem rounded_stored (neg : Bool) {rnd : Nat} (hr : rnd ≤ 3) (rb : Nat) :
    rounded code rnd (sgn neg * u) (stored F neg rnd (z + (roundsUp rnd neg z (above F z u) rb).toNat)) := by
  have hF := hasInf_of_wide hc hf
  cases h : towardZero neg rnd with
  | true =>
    rw [roundsUp_towardZero h, Bool.toNat_false, Nat.add_zero, stored_towardZero h]
    exact rounded_towardZero hc hf hb hu hr h
  | false =>
    rw [stored_pastRange hF h]
    interval_cases rnd
    · exact rounded_nearest hc hf hb hu neg
    · simp [towardZero, rTZ] at h
    · obtain rfl : neg = true := by simpa [towardZero, rTZ, rDN, rUP] using h
      exact rounded_away hc hf hb hu (.inl ⟨rfl, rfl⟩)
    · obtain rfl : neg = false := by simpa [towardZero, rTZ, rDN, rUP] using h
      exact rounded_away hc hf hb hu (.inr ⟨rfl, rfl⟩)

end

/-- What is stored takes the format's width, under the sign of the value. -/
theorem stored_sign {code : Nat} {F : FFmt} (hc : code ≤ 2) (hf : ffmt code = some F) (neg : Bool) (rnd m : Nat) :
    stored F neg rnd m < 2 ^ fmtWidth code ∧ (stored F neg rnd m).testBit (fmtWidth code - 1) = neg := by
  have hF := hasInf_of_wide hc hf
  have hinf := infEnc_lt F
  have hnext := hF.next
  obtain ⟨k, hk, e⟩ : ∃ k < 2 ^ (F.eb + F.fb), stored F neg rnd m = F.enc neg k := by
    cases h : towardZero neg rnd with
    | true => exact ⟨_, (min_le_right _ _).trans_lt (by omega), stored_towardZero h m⟩
    | false => exact ⟨_, (min_le_right _ _).trans_lt hinf, stored_pastRange hF h m⟩
  rw [e, fmtWidth_of_wide hc hf, Nat.add_sub_cancel]
  exact ⟨enc_lt F neg hk, testBit_enc F neg hk⟩

/-! ### Stochastic rounding -/

/-- Infinity's encoding, as if it were a magnitude. -/
theorem magOf_infEnc (F : FFmt) (h : 2 ≤ F.eb) : magOf F F.infEnc = 2 ^ (((2 ^ F.eb - 2 : Nat) : Int) + 1 - F.bias) := by
  have hE : 2 ^ 2 ≤ 2 ^ F.eb := Nat.pow_le_pow_right (by decide) h
  have he : F.infEnc = (2 ^ F.eb - 1) * 2 ^ F.fb + 0 := rfl
  rw [he, magOf_normal (by omega) (Nat.two_pow_pos _), Nat.add_zero, Nat.cast_pow, Nat.cast_ofNat, ← zpow_natCast,
    ← zpow_add₀ (by norm_num)]
  congr 1
  omega

section

variable {code : Nat} {F : FFmt} (hc : code ≤ 2) (hf : ffmt code = some F)
include hc hf

/-- An encoding is its sign bit and its magnitude. -/
theorem enc_eq_sign_add (neg : Bool) (m : Nat) : F.enc neg m = (if neg then 2 ^ (fmtWidth code - 1) else 0) + m := by
  rw [fmtWidth_of_wide hc hf, Nat.add_sub_cancel]
  cases neg <;> simp [FFmt.enc, FFmt.signBit]

/-- A stochastic rounding, said of the encodings of the format. -/
theorem roundedSR_of_encodings {v : ℚ} {rb bits : Nat} (hbig : magOf F F.infEnc ≤ |v| → bits = F.enc (decide (v < 0)) F.infEnc)
    (hsmall : |v| < magOf F F.infEnc → ∃ z ≤ F.maxEnc, Below F z |v|
      ∧ bits = F.enc (decide (v < 0)) (z + if 2 ^ 16 ≤ ⌊above F z |v| * 2 ^ 16⌋₊ + rb then 1 else 0)) : roundedSR code v rb bits := by
  have hF := hasInf_of_wide hc hf
  simp only [enc_eq_sign_add hc hf, decide_eq_true_eq] at hbig hsmall
  have hsplit : roundedSR code v rb bits ↔ if magOf F F.infEnc ≤ |v| then bits = (if v < 0 then 2 ^ (fmtWidth code - 1) else 0) + F.infEnc
      else ∃ z y, z < F.infEnc ∧ decodeElem code false false z = .fin y ∧ rat y ≤ |v| ∧ |v| < rat y + ulp F z
        ∧ bits = (if v < 0 then 2 ^ (fmtWidth code - 1) else 0) + z
          + (if 2 ^ 16 ≤ ⌊(|v| - rat y) / ulp F z * 2 ^ 16⌋₊ + rb then 1 else 0) := by
    rw [magOf_infEnc F (by interval_cases code <;> cases hf <;> decide)]
    interval_cases code <;> cases hf <;> exact Iff.rfl
  rw [hsplit]
  split
  · next h => exact hbig h
  · next h =>
    obtain ⟨z, hz, ⟨hle, hlt⟩, hbits⟩ := hsmall (not_le.mp h)
    obtain ⟨y, hy, hrat⟩ := decode_finite hF false hz
    have hy' : rat y = magOf F z := by rw [hrat]; simp [sgn]
    have := hF.next
    refine ⟨z, y, by omega, by rw [decodeElem_of_ffmt hf]; exact hy, by rwa [hy'], by rwa [hy'], ?_⟩
    rw [hbits, hy', Nat.add_assoc]
    rfl

end

theorem toNat_decide (p : Prop) [Decidable p] : (decide p).toNat = if p then 1 else 0 := by
  split <;> simp [*]

/-- A value that is not zero is negative exactly where its sign is. -/
theorem sgn_mul_neg_iff (neg : Bool) {u : ℚ} (hu : 0 < u) : sgn neg * u < 0 ↔ neg = true := by
  cases neg <;> simp [sgn, hu, hu.le]

section

variable {code : Nat} {F : FFmt} (hc : code ≤ 2) (hf : ffmt code = some F) {z : Nat} {u : ℚ} (hb : Below F z u) (hu : 0 < u)
include hc hf hb hu

/-- Under SR the value is rounded by its fraction and the random bits. -/
theorem roundedSR_stored (neg : Bool) (rb : Nat) :
    roundedSR code (sgn neg * u) rb (stored F neg 4 (z + (roundsUp 4 neg z (above F z u) rb).toNat)) := by
  have hF := hasInf_of_wide hc hf
  have hnext := hF.next
  have hto : (roundsUp 4 neg z (above F z u) rb).toNat = if 2 ^ 16 ≤ ⌊above F z u * 2 ^ 16⌋₊ + rb then 1 else 0 := toNat_decide _
  have hsign : decide (sgn neg * u < 0) = neg := by simp [sgn_mul_neg_iff neg hu]
  rw [stored_pastRange hF (by simp [towardZero, rTZ, rDN, rUP]), hto]
  refine roundedSR_of_encodings hc hf ?_ ?_ <;> rw [abs_sgn_mul neg hu.le, hsign] <;> intro h
  · have hz : F.infEnc ≤ z := le_of_magOf_le hb h
    rw [min_eq_right (by omega)]
  · have hz : z < F.infEnc := (magOf_strictMono F).lt_iff_lt.mp (hb.le.trans_lt h)
    refine ⟨z, by omega, hb, ?_⟩
    rw [min_eq_left (by split <;> omega)]

end

/-! ### `round_to` of an exact number -/

/-- What one rounding of the value `v` stores, a zero with the sign `neg`. -/
structure RoundedOnce (code rnd rb : Nat) (v : ℚ) (neg : Bool) (bits : Nat) : Prop where
  lt : bits < 2 ^ fmtWidth code
  nearest : v ≠ 0 → rnd ≤ 3 → rounded code rnd v bits
  stochastic : v ≠ 0 → rnd = 4 → roundedSR code v rb bits
  sign : v ≠ 0 → bits.testBit (fmtWidth code - 1) = decide (v < 0)
  zero : v = 0 → bits = if neg then 2 ^ (fmtWidth code - 1) else 0

theorem rat_eq_zero_iff (d : Dy) : rat d = 0 ↔ d.n = 0 := by
  have h2 : (2 : ℚ) ^ d.e ≠ 0 := by positivity
  unfold rat
  cases d.neg <;> simp [h2]

/-- `round_to` rounds an exact number once. -/
theorem roundedOnce_roundTo {code : Nat} (hc : code ≤ 2) {d : Dy} (hst : d.st = false) (rnd : Nat) {rb : Nat} (hrb : rb < 2 ^ 16) :
    RoundedOnce code rnd rb (rat d) d.neg (roundTo code false rnd false false rb (.fin d)).1 := by
  obtain ⟨F, hf⟩ : ∃ F, ffmt code = some F := by interval_cases code <;> exact ⟨_, rfl⟩
  have hfrac := (hasInf_of_wide hc hf).frac
  have hto : roundTo code false rnd false false rb (.fin d) = F.round rnd false false rb (.fin d) := by
    unfold roundTo; rw [hf]
  rw [hto]
  by_cases hn : d.n = 0
  · have hz : rat d = 0 := (rat_eq_zero_iff d).mpr hn
    have hbits : (F.round rnd false false rb (.fin d)).1 = F.enc d.neg 0 := by simp [FFmt.round, hn]
    rw [hbits]
    refine ⟨?_, fun h => absurd hz h, fun h => absurd hz h, fun h => absurd hz h, fun _ => enc_eq_sign_add hc hf d.neg 0⟩
    rw [fmtWidth_of_wide hc hf]
    exact enc_lt F d.neg (Nat.two_pow_pos _)
  · have hu := magnitude_pos hn
    obtain ⟨z, hb, hbits⟩ := round_fin hfrac hst hn rnd hrb
    obtain ⟨hlt, hsign⟩ := stored_sign hc hf d.neg rnd (z + (roundsUp rnd d.neg z (above F z (magnitude d)) rb).toNat)
    rw [hbits, rat_eq]
    refine ⟨hlt, fun _ hr => rounded_stored hc hf hb hu d.neg hr rb, ?_, fun _ => ?_, fun h => ?_⟩
    · rintro - rfl
      exact roundedSR_stored hc hf hb hu d.neg rb
    · rw [hsign]
      simp [sgn_mul_neg_iff d.neg hu]
    · exact absurd ((rat_eq_zero_iff d).mp ((rat_eq d).trans h)) hn

end Sys2Proof.Proofs
end

section
/-! PROOFS. ADD, SUB and MUL of floats (04 R164; 03 R118 to R124): one rounding of the exact result, and the sign of a zero (O27). -/

open Sys2Proof Sys2Proof.Machine Sys2Proof.Claims

namespace Sys2Proof.Proofs

/-! ### Exact sums and products -/

/-- The signed numerator at a lower exponent. -/
theorem numAt_mul_pow (d : Dy) {e : Int} (h : e ≤ d.e) : (d.numAt e : ℚ) * 2 ^ e = rat d := by
  have hp : ((pow2 (d.e - e) : Nat) : ℚ) * 2 ^ e = 2 ^ d.e := by
    unfold pow2
    rw [Nat.cast_pow, ← zpow_natCast, Int.toNat_of_nonneg (by omega), Nat.cast_ofNat, ← zpow_add₀ (by norm_num)]
    congr 1; ring
  unfold Dy.numAt rat
  cases d.neg
  · simp [mul_assoc, hp]
  · simp [mul_assoc, hp]

theorem sum_numAt (a b : Dy) : ((a.numAt (min a.e b.e) + b.numAt (min a.e b.e) : Int) : ℚ) * 2 ^ min a.e b.e = rat a + rat b := by
  rw [Int.cast_add, add_mul, numAt_mul_pow a (min_le_left _ _), numAt_mul_pow b (min_le_right _ _)]

theorem rat_ofNumerator (v e : Int) : rat ⟨decide (v < 0), v.natAbs, e, false⟩ = v * 2 ^ e := by
  unfold rat
  obtain h | h := lt_or_ge v 0
  · have hv : ((v.natAbs : Nat) : ℚ) = -v := by rw [Nat.cast_natAbs, abs_of_neg h, Int.cast_neg]
    simp [h, hv]
  · have hv : ((v.natAbs : Nat) : ℚ) = v := by rw [Nat.cast_natAbs, abs_of_nonneg h]
    simp [h.not_gt, hv]

theorem add_st (rdn : Bool) (a b : Dy) : (Dy.add rdn a b).st = false := by
  unfold Dy.add
  dsimp only
  split
  · rfl
  · split <;> rfl

/-- The sum is exact. -/
theorem rat_add (rdn : Bool) (a b : Dy) : rat (Dy.add rdn a b) = rat a + rat b := by
  have hsum := sum_numAt a b
  unfold Dy.add
  dsimp only
  split
  · next h =>
    rw [(rat_eq_zero_iff a).mpr h.1, (rat_eq_zero_iff b).mpr h.2]
    simp [rat]
  · split
    · next h =>
      rw [h, Int.cast_zero, zero_mul] at hsum
      rw [← hsum, rat_eq_zero_iff]
    · rw [rat_ofNumerator, hsum]

/-- Two numbers of one sign have the sum zero only as zeros. -/
theorem zeros_of_add_eq_zero {a b : Dy} (hs : a.neg = b.neg) (h : rat a + rat b = 0) : a.n = 0 ∧ b.n = 0 := by
  have hm : ∀ d : Dy, 0 ≤ magnitude d := fun d => by unfold magnitude; positivity
  have h' : magnitude a + magnitude b = 0 := by
    rw [rat_eq, rat_eq, ← hs, ← mul_add] at h
    calc magnitude a + magnitude b = sgn a.neg * (sgn a.neg * (magnitude a + magnitude b)) := by rw [← mul_assoc, sgn_mul_self, one_mul]
      _ = 0 := by rw [h, mul_zero]
  have ha := hm a
  have hb := hm b
  rw [← rat_eq_zero_iff, ← rat_eq_zero_iff, rat_eq, rat_eq, show magnitude a = 0 by linarith, show magnitude b = 0 by linarith]
  exact ⟨mul_zero _, mul_zero _⟩

/-- The sign of a zero sum (R118). -/
theorem add_neg_of_zero (rdn : Bool) {a b : Dy} (h : rat a + rat b = 0) :
    (Dy.add rdn a b).neg = if a.neg = b.neg then a.neg else rdn := by
  have hsum := sum_numAt a b
  have h2 : (2 : ℚ) ^ min a.e b.e ≠ 0 := by positivity
  rw [h, mul_eq_zero, or_iff_left h2, Int.cast_eq_zero] at hsum
  unfold Dy.add
  dsimp only
  split
  · rfl
  · next hn => simp [show a.neg ≠ b.neg from fun hs => hn (zeros_of_add_eq_zero hs h)]

theorem rat_neg (b : Dy) : rat { b with neg := !b.neg } = -rat b := by
  unfold rat
  cases b.neg <;> simp

theorem sgn_bne (a b : Bool) : sgn (a != b) = sgn a * sgn b := by cases a <;> cases b <;> norm_num [sgn]

/-- The product is exact. -/
theorem rat_mul (a b : Dy) : rat ⟨a.neg != b.neg, a.n * b.n, a.e + b.e, false⟩ = rat a * rat b := by
  rw [rat_eq, rat_eq, rat_eq, sgn_bne]
  unfold magnitude
  rw [zpow_add₀ (by norm_num), Nat.cast_mul]
  ring

/-! ### ADD, SUB and MUL -/

/-- The exact result of ADD, SUB (as a + (−b), log 97) or MUL of two numbers. -/
def exactDy (fn : Byte) (rdn : Bool) (a b : Dy) : Dy :=
  if fn = 0 then Dy.add rdn a b else if fn = 1 then Dy.add rdn a { b with neg := !b.neg } else ⟨a.neg != b.neg, a.n * b.n, a.e + b.e, false⟩

theorem floatFn_finite {fn : Byte} (h : fn.toNat ≤ 2) (rdn : Bool) (a b : Dy) (c : Val) :
    floatFn 0x10 fn.toNat rdn (.fin a) (.fin b) c = (.fin (exactDy fn rdn a b), 0) := by
  obtain rfl | rfl | rfl : fn = 0 ∨ fn = 1 ∨ fn = 2 := by bv_omega
  all_goals rfl

theorem exactDy_st (fn : Byte) (rdn : Bool) (a b : Dy) : (exactDy fn rdn a b).st = false := by
  unfold exactDy
  split
  · exact add_st _ _ _
  · split
    · exact add_st _ _ _
    · rfl

theorem rat_exactDy (fn : Byte) (rdn : Bool) (a b : Dy) :
    rat (exactDy fn rdn a b) = if fn = 0 then rat a + rat b else if fn = 1 then rat a - rat b else rat a * rat b := by
  unfold exactDy
  split
  · exact rat_add _ _ _
  · split
    · rw [rat_add, rat_neg, sub_eq_add_neg]
    · exact rat_mul a b

/-- The sign of a zero difference: that of the sum of a and −b. -/
theorem sub_neg_of_zero (rdn : Bool) {a b : Dy} (h : rat a - rat b = 0) :
    (Dy.add rdn a { b with neg := !b.neg }).neg = if a.neg = b.neg then rdn else a.neg := by
  rw [add_neg_of_zero rdn (by rw [rat_neg, ← sub_eq_add_neg]; exact h)]
  cases a.neg <;> cases b.neg <;> rfl

/-- ADD, SUB and MUL of finite operands round their exact value once. -/
theorem ewElem_finite {w : InsWord} (ho : w.opc = 0x10) (hfn : w.fn.toNat ≤ 2) (hs : w.sfmt.toNat ≤ 2) (hd : w.dfmt.toNat ≤ 2)
    (hsat : w.sat = false) (hftz : w.ftz = false) (sr : SrCtx) (ix : Nat) (a b : Dy) (c : Val) :
    (ewElem w sr ix (.fin a) (.fin b) c).1 = (roundTo w.dfmt.toNat false w.rnd.toNat false false (sr.bitsFor w.rnd.toNat 0 ix)
      (.fin (exactDy w.fn (w.rnd.toNat = rDN) a b))).1 := by
  have hopc : w.opc.toNat = 0x10 := congrArg BitVec.toNat ho
  have hf7 : fn7 w = w.fn.toNat := Nat.mod_eq_of_lt (by omega)
  have hk : (ewKind w).1 = .fi := by
    unfold ewKind ewTable
    rw [hopc, hf7]
    simp [show w.fn.toNat ≤ 4 by omega]
  have hkind : kindOf w.sfmt.toNat ≠ .int := by
    unfold kindOf; rw [if_pos (by omega)]; decide
  have hdu : isInt w.dfmt.toNat = false := decide_eq_false (by omega)
  unfold ewElem
  simp only [hk, hkind, hopc, hf7, hsat, hftz, hdu, Bool.and_false, floatFn_finite hfn, if_false]
  simp

/-- The random bits of a rounding are 16. -/
theorem bitsFor_lt (sr : SrCtx) (rnd k ix : Nat) : sr.bitsFor rnd k ix < 2 ^ 16 := by
  unfold SrCtx.bitsFor
  split
  · exact Nat.mod_lt _ (by decide)
  · decide

theorem bitsFor_rSR (sr : SrCtx) (k ix : Nat) : sr.bitsFor rSR k ix = sr.rbits k ix := if_pos rfl

/-- What ADD, SUB and MUL store for finite operands. -/
theorem roundedOnce_ewRun {s : State} {w : InsWord} (ho : w.opc = 0x10) (hfn : w.fn.toNat ≤ 2) (hc : startsClean s w ewOp)
    (hok : s.memOk = true) (ha : apart (readyEntry s w).dst) (hdf : w.dfmt.toNat ≤ 2) (hsf : w.sfmt.toNat ≤ 2) (hsat : w.sat = false)
    (hftz : w.ftz = false) {x : Ix} (hx : x ∈ (readyEntry s w).dst.ixs) (hg : (readyEntry s w).gate (readyEntry s w).dst x = true)
    {a b : Dy} (hva : s.elem (readyEntry s w).sa false false x = .fin a)
    (hvb : ewOperand s (readyEntry s w) (ewSb w) (readyEntry s w).sb w.imm32 x = .fin b) :
    RoundedOnce w.dfmt.toNat w.rnd.toNat ((⟨s.sb.seed, (readyEntry s w).dst.tensorId, s.sb.step⟩ : SrCtx).bitsFor w.rnd.toNat 0
        ((readyEntry s w).dst.lin x)) (rat (exactDy w.fn (w.rnd.toNat = rDN) a b)) (exactDy w.fn (w.rnd.toNat = rDN) a b).neg
      ((ewRun (readyEntry s w) (begun s w)).raw (readyEntry s w).dst x) := by
  have hone := roundedOnce_roundTo hdf (exactDy_st w.fn (w.rnd.toNat = rDN) a b) w.rnd.toNat
    (bitsFor_lt ⟨s.sb.seed, (readyEntry s w).dst.tensorId, s.sb.step⟩ w.rnd.toNat 0 ((readyEntry s w).dst.lin x))
  obtain ⟨⟨-, -, -, -, hfail, -⟩, -⟩ := id hc
  have hchk : EwChecked (readyEntry s w) := ewChecked_readyEntry (by rw [ho]; decide) hfail
  have hdw : fmtWidth w.dfmt.toNat = (readyEntry s w).dst.w := congrArg fmtWidth hchk.dfmt
  have hsa : isInt (readyEntry s w).sa.fmt = false := hchk.sfmt ▸ decide_eq_false fun h => by
    have h11 : 11 ≤ w.sfmt.toNat := h.1
    omega
  have hres : (ewRun (readyEntry s w) (begun s w)).raw (readyEntry s w).dst x = _ % 2 ^ fmtWidth w.dfmt.toNat :=
    (raw_ewRun_gated (memOk_begun hok) ha hx hg).trans (by rw [← hdw])
  rw [hres, ewResult_begun, hsa, hftz, Bool.and_false, hva, hvb, ewElem_finite ho hfn hsf hdf hsat hftz, Nat.mod_eq_of_lt hone.lt]
  exact hone

/-- Settles O27: the exact result is a number, the encodings of the format are in the order of their magnitudes, and `round_to` finds the
encoding below the exact magnitude and goes up from there as the mode says. -/
theorem floatResultsRoundOnce : Obligations.FloatResultsRoundOnce := by
  intro s w ho hfn hc hok ha hdf hsf _ hsat hftz q d zero
  have hew : w.opc.toNat ∈ ewOpcs := by rw [ho]; decide
  obtain ⟨⟨-, -, -, -, hfail, -⟩, -⟩ := id hc
  have hdw : fmtWidth w.dfmt.toNat = d.w := congrArg fmtWidth (ewChecked_readyEntry hew hfail).dfmt
  have hrdn : decide (w.rnd.toNat = rDN) = decide (w.rnd = 2) := decide_eq_decide.mpr (by rw [BitVec.toNat_eq]; exact Iff.rfl)
  refine ⟨_, exec_ew hew hc, ?_⟩
  intro x hx hg a b hva hvb v
  obtain ⟨-, hnear, hsr, hsign, hzero⟩ := roundedOnce_ewRun ho hfn hc hok ha hdf hsf hsat hftz hx hg hva hvb
  rw [rat_exactDy, hdw] at hsign hzero
  rw [rat_exactDy] at hnear hsr
  rw [hrdn] at hzero
  refine ⟨hnear, fun hv h4 => ?_, hsign, fun hv h0 => ?_, fun hv h1 => ?_, fun hv h2 => ?_⟩
  · have h4' : w.rnd.toNat = rSR := congrArg BitVec.toNat h4
    have h := hsr hv h4'
    rw [h4', bitsFor_rSR] at h
    exact h
  · have hs : rat a + rat b = 0 := by simpa [v, h0] using hv
    rw [hzero hv, h0]
    exact congrArg zero (add_neg_of_zero _ hs)
  · have hs : rat a - rat b = 0 := by simpa [v, h1] using hv
    rw [hzero hv, h1]
    exact congrArg zero (sub_neg_of_zero _ hs)
  · rw [hzero hv, h2]
    rfl

end Sys2Proof.Proofs
end

section
/-! PROOFS. The reduction tree (05 R202, R203): its levels build the tree that splits at powers of 2 (O31). -/

open Sys2Proof Sys2Proof.Machine Sys2Proof.Claims

namespace Sys2Proof.Proofs

/-! ### One level of the tree on present leaves -/

/-- Neighbours combine, and an odd last leaf passes up. -/
def pairUp {α : Type} (f : α → α → α) : List α → List α
  | [] => []
  | [a] => [a]
  | a :: b :: r => f a b :: pairUp f r

section

variable {α : Type}

theorem treeLevel_some (op : α → α → α × Fl) (l : List α) :
    (treeLevel op (l.map some)).1 = (pairUp (fun a b => (op a b).1) l).map some := by
  match l with
  | [] => rfl
  | [_] => rfl
  | a :: b :: r =>
    have hr := treeLevel_some op r
    simpa only [List.map_cons, treeLevel, pairUp, List.cons.injEq, true_and] using hr

theorem length_pairUp (f : α → α → α) (l : List α) : (pairUp f l).length = (l.length + 1) / 2 := by
  match l with
  | [] => simp [pairUp]
  | [_] => simp [pairUp]
  | a :: b :: r =>
    have hr := length_pairUp f r
    simp only [pairUp, List.length_cons, hr]
    omega

/-- The first nodes of a level are made of as many pairs of leaves, unless they are all there are. -/
theorem pairUp_eq_append {f : α → α → α} {l m₁ m₂ : List α} (h : pairUp f l = m₁ ++ m₂) (hm : m₂ ≠ []) :
    ∃ l₁ l₂, l = l₁ ++ l₂ ∧ pairUp f l₁ = m₁ ∧ pairUp f l₂ = m₂ ∧ l₁.length = 2 * m₁.length := by
  induction m₁ generalizing l with
  | nil => exact ⟨[], l, rfl, rfl, h, rfl⟩
  | cons c m ih =>
    match l with
    | [] => cases h
    | [_] =>
      rw [pairUp, List.cons_append, List.cons.injEq, List.nil_eq, List.append_eq_nil_iff] at h
      obtain ⟨-, -, hnil⟩ := h
      exact absurd hnil hm
    | a :: b :: r =>
      rw [pairUp, List.cons_append, List.cons.injEq] at h
      obtain ⟨rfl, hr⟩ := h
      obtain ⟨l₁, l₂, rfl, h₁, h₂, hlen⟩ := ih hr
      exact ⟨a :: b :: l₁, l₂, rfl, by rw [pairUp, h₁], h₂, by simp only [List.length_cons, hlen]; omega⟩

/-- A level made of one node has one leaf or two. -/
theorem treeOf_of_pairUp_singleton {f : α → α → α} {l : List α} {v : α} (h : pairUp f l = [v]) : TreeOf f l v := by
  match l with
  | [] => cases h
  | [a] => cases h; exact .leaf _
  | a :: b :: r =>
    rw [pairUp, List.cons.injEq] at h
    obtain ⟨hv, hr⟩ := h
    have hlen := length_pairUp f r
    rw [hr, List.length_nil] at hlen
    obtain rfl : r = [] := List.eq_nil_of_length_eq_zero (by omega)
    rw [← hv]
    exact .node [a] [b] a b 0 rfl le_rfl le_rfl (.leaf a) (.leaf b)

/-- The tree on a level's nodes is the tree on its leaves: a split at 2^k nodes is one at 2^(k+1) leaves. -/
theorem treeOf_of_pairUp {f : α → α → α} {l m : List α} {v : α} (h : TreeOf f m v) (hm : pairUp f l = m) : TreeOf f l v := by
  induction h generalizing l with
  | leaf a => exact treeOf_of_pairUp_singleton hm
  | node m₁ m₂ a b k hlen hpos hle _ _ ih₁ ih₂ =>
    obtain ⟨l₁, l₂, rfl, h₁, h₂, hl₁⟩ := pairUp_eq_append hm (List.ne_nil_of_length_pos hpos)
    have hl₂ := length_pairUp f l₂
    rw [h₂] at hl₂
    exact .node l₁ l₂ a b (k + 1) (by rw [hl₁, hlen, pow_succ, mul_comm]) (by omega) (by rw [pow_succ]; omega) (ih₁ h₁) (ih₂ h₂)

/-! ### The levels together -/

/-- With fuel for its leaves, the model's tree on present leaves is R202's. -/
theorem treeN_some (op : α → α → α × Fl) {n : Nat} {l : List α} (hne : l ≠ []) (hn : l.length ≤ n) :
    ∃ v, (treeN op n (l.map some)).1 = some v ∧ TreeOf (fun a b => (op a b).1) l v := by
  induction n generalizing l with
  | zero => exact absurd (List.eq_nil_of_length_eq_zero (Nat.le_zero.mp hn)) hne
  | succ n ih =>
    match l with
    | [] => exact absurd rfl hne
    | [a] => exact ⟨a, rfl, .leaf a⟩
    | a :: b :: r =>
      have hlen := length_pairUp (fun a b => (op a b).1) (a :: b :: r)
      simp only [List.length_cons] at hlen hn
      obtain ⟨v, hv, ht⟩ := ih (l := pairUp (fun a b => (op a b).1) (a :: b :: r))
        (List.ne_nil_of_length_pos (by omega)) (by omega)
      refine ⟨v, ?_, treeOf_of_pairUp ht rfl⟩
      rw [← treeLevel_some] at hv
      exact hv

end

/-- Settles O31: each level pairs neighbours, so a tree that splits its nodes at 2^k splits the leaves below them at 2^(k+1). -/
theorem reductionTreeFollowsPositions : Obligations.ReductionTreeFollowsPositions := by
  intro op l hl
  exact treeN_some op hl (List.length_map some).ge

end Sys2Proof.Proofs
end

section
/-! SUPPORT. Instructions whose effect is a list of elements of DST, written once each, with flags and an amax: what they write reads back. -/

open Sys2Proof Sys2Proof.Machine Sys2Proof.Claims

namespace Sys2Proof.Proofs

/-! ### Elements of a tensor, written once -/

/-- An effect that computes on the scratchpad and writes the elements `ws` of `d` in order. -/
structure Writes (d : Desc) (ws : List (Ix × Nat)) (s t : State) : Prop where
  computes : Computes s t
  mem : t.sp.mem = putAll s.sp.mem d ws

/-- The writes name elements of the tensor, none of them twice. -/
structure Once (d : Desc) (ws : List (Ix × Nat)) : Prop where
  nodup : (ws.map Prod.fst).Nodup
  inside : ∀ p ∈ ws, p.1 ∈ d.ixs

section

variable {d : Desc} {ws : List (Ix × Nat)} {s t : State}

theorem writes_putElems (s : State) (d : Desc) (ws : List (Ix × Nat)) (bad : Tile → Bool) (pok : Bool) :
    Writes d ws s (s.putElems d ws bad pok) := ⟨computes_putElems s d ws bad pok, putElems_putAll s d ws bad pok⟩

theorem Writes.flag (h : Writes d ws s t) (f : Fl) : Writes d ws s (t.flag f) :=
  ⟨h.computes.trans (computes_flag t f), by rw [State.flag_sp, h.mem]⟩

theorem Writes.gather (h : Writes d ws s t) (q : QEntry) (e : Desc) (vs : List Val) : Writes d ws s (t.gather q e vs) :=
  ⟨h.computes.trans (computes_gather t q e vs), by rw [gather_sp, h.mem]⟩

/-- What is written once reads back. -/
theorem Writes.raw (h : Writes d ws s t) (hw : Memory.wf s.sp.mem = true) (ha : apart d) (ho : Once d ws) {p : Ix × Nat} (hp : p ∈ ws) :
    t.raw d p.1 = p.2 % 2 ^ d.w := by
  unfold State.raw
  rw [h.mem]
  exact readBits_putAll hw ha ho.nodup ho.inside hp

/-- A byte outside the tensor's elements keeps its value. -/
theorem Writes.read_other (h : Writes d ws s t) (hw : Memory.wf s.sp.mem = true) (hi : ∀ p ∈ ws, p.1 ∈ d.ixs) {a : Nat}
    (ho : ∀ x ∈ d.ixs, 8 * a + 8 ≤ d.bitAddr x ∨ d.bitAddr x + d.w ≤ 8 * a) : t.sp.mem.read a = s.sp.mem.read a := by
  rw [h.mem]
  exact read_putAll_other hw fun p hp => ho p.1 (hi p hp)

end

/-! ### A word of such a class that starts cleanly -/

section

variable {s : State} {w : InsWord} {srcs outs : QEntry → List Opnd} {run : QEntry → State → State}
  {chk : QEntry → State → List Flt}

/-- A class without start checks, holds or line lists of its own has its whole effect as it starts. -/
theorem exec_plainOp (h : startsClean s w (plainOp srcs outs run)) (hc : checksOf w.toInstr = some chk) :
    exec w.toInstr s = .next (run (readyEntry s w) (begun s w)) :=
  exec_of_startsClean h hc rfl fun _ _ _ _ => ⟨rfl, rfl⟩

/-- Of a class that writes elements of DST alone, each once, all that it writes reads back and nothing else changes. -/
theorem exec_writes (h : startsClean s w (plainOp srcs outs run)) (hc : checksOf w.toInstr = some chk) (hok : s.memOk = true)
    (ha : apart (readyEntry s w).dst) {ws : List (Ix × Nat)}
    (hw : Writes (readyEntry s w).dst ws (begun s w) (run (readyEntry s w) (begun s w))) (ho : Once (readyEntry s w).dst ws) :
    ∃ t, exec w.toInstr s = .next t ∧ dataFrame s w t [(readyEntry s w).oDst] ∧
      ∀ p ∈ ws, t.raw (readyEntry s w).dst p.1 = p.2 % 2 ^ (readyEntry s w).dst.w := by
  have hwf : Memory.wf (begun s w).sp.mem = true := memOk_begun hok
  obtain ⟨⟨-, ⟨-, htq⟩, -⟩, -⟩ := id h
  refine ⟨_, exec_plainOp h hc, dataFrame_of_computes htq hw.computes fun a hout => ?_, fun p hp => hw.raw hwf ha ho hp⟩
  exact (hw.read_other hwf ho.inside (hout (readyEntry s w).oDst (List.mem_singleton_self _))).trans
    (congrArg (fun sp : Spad => sp.mem.read a) (begun_sp s w))

end

/-! ### Values that PRED gates in, rounded into DST -/

/-- The candidates that PRED gates in, each rounded into DST at its index. -/
def placedElems (q : QEntry) (s : State) (cs : List (Ix × Val)) : List (Ix × Nat) :=
  (cs.filter (fun p => q.gate q.dst p.1)).map (fun p => (p.1, (s.placeAt q q.dst p.1 p.2).1))

/-- The effect rounds the candidates `cs` into DST, sets flags and appends an amax. -/
def PlacesElems (q : QEntry) (s t : State) (cs : List (Ix × Val)) : Prop :=
  ∃ bad f vs, t = ((s.putElems q.dst (placedElems q s cs) bad q.w.poisonOk).flag f).gather q q.dst vs

section

variable {q : QEntry} {s t : State} {cs : List (Ix × Val)}

theorem PlacesElems.writes (h : PlacesElems q s t cs) : Writes q.dst (placedElems q s cs) s t := by
  obtain ⟨bad, f, vs, rfl⟩ := h
  exact ((writes_putElems s q.dst _ bad _).flag f).gather q q.dst vs

theorem once_placedElems (hn : (cs.map Prod.fst).Nodup) (hi : ∀ p ∈ cs, p.1 ∈ q.dst.ixs) : Once q.dst (placedElems q s cs) := by
  unfold placedElems
  refine ⟨?_, fun p hp => ?_⟩
  · rw [List.map_map]
    exact hn.sublist (List.filter_sublist.map _)
  · obtain ⟨c, hc, rfl⟩ := List.mem_map.mp hp
    exact hi c (List.mem_filter.mp hc).1

theorem mem_placedElems {p : Ix × Val} (hp : p ∈ cs) (hg : q.gate q.dst p.1 = true) :
    (p.1, (s.placeAt q q.dst p.1 p.2).1) ∈ placedElems q s cs :=
  List.mem_map.mpr ⟨p, List.mem_filter.mpr ⟨hp, hg⟩, rfl⟩

end

/-- PRED is read as it stands when the instruction is issued (log 54). -/
theorem gate_readyEntry (s : State) (w : InsWord) (d : Desc) (x : Ix) :
    (readyEntry s w).gate d x = (s.getP w.pred.toNat).getLsbD (d.lane x) := rfl

/-- Of a class that rounds candidates into DST, each gated candidate reads back rounded and nothing else changes. -/
theorem exec_placesElems {s : State} {w : InsWord} {srcs outs : QEntry → List Opnd} {run : QEntry → State → State}
    {chk : QEntry → State → List Flt} (h : startsClean s w (plainOp srcs outs run)) (hc : checksOf w.toInstr = some chk)
    (hok : s.memOk = true) (ha : apart (readyEntry s w).dst) {cs : List (Ix × Val)}
    (hp : PlacesElems (readyEntry s w) (begun s w) (run (readyEntry s w) (begun s w)) cs) (hn : (cs.map Prod.fst).Nodup)
    (hi : ∀ p ∈ cs, p.1 ∈ (readyEntry s w).dst.ixs) :
    ∃ t, exec w.toInstr s = .next t ∧ dataFrame s w t [(readyEntry s w).oDst] ∧
      ∀ p ∈ cs, (s.getP w.pred.toNat).getLsbD ((readyEntry s w).dst.lane p.1) = true →
        t.raw (readyEntry s w).dst p.1 = ((begun s w).placeAt (readyEntry s w) (readyEntry s w).dst p.1 p.2).1 % 2 ^ (readyEntry s w).dst.w := by
  obtain ⟨t, ht, hframe, hraw⟩ := exec_writes h hc hok ha hp.writes (once_placedElems hn hi)
  exact ⟨t, ht, hframe, fun p hp hg => hraw (p.1, _) (mem_placedElems hp ((gate_readyEntry s w _ p.1).trans hg))⟩

/-- A list zipped with another keeps its order, and may lose its end. -/
theorem map_fst_zip_sublist {α β : Type} (l : List α) (m : List β) : ((l.zip m).map Prod.fst).Sublist l := by
  rw [List.zip_eq_zip_take_min, List.map_fst_zip (by simp)]
  exact List.take_sublist _ _

/-- Sets of elements that share none, each element with a value: no element stands twice. -/
theorem nodup_flatMap_zip {β : Type} {keys : List Ix} {ids : Ix → List Ix} (vals : Ix → List β) (g : Ix → Ix) (hk : keys.Nodup)
    (hn : ∀ k ∈ keys, (ids k).Nodup) (hg : ∀ k ∈ keys, ∀ x ∈ ids k, g x = k) :
    ((keys.flatMap (fun k => (ids k).zip (vals k))).map Prod.fst).Nodup := by
  have hmem : ∀ k, ∀ x ∈ ((ids k).zip (vals k)).map Prod.fst, x ∈ ids k := by
    intro k x hx
    obtain ⟨p, hp, rfl⟩ := List.mem_map.mp hx
    exact (List.of_mem_zip hp).1
  rw [List.map_flatMap, List.nodup_flatMap]
  refine ⟨fun k hk => ?_, hk.imp_of_mem ?_⟩
  · exact (hn k hk).sublist (map_fst_zip_sublist _ _)
  · intro a b ha hb hne x hxa hxb
    exact hne ((hg a ha x (hmem a x hxa)).symm.trans (hg b hb x (hmem b x hxb)))

end Sys2Proof.Proofs
end

section
/-! PROOFS. Reductions, softmax and normalisation (05) and the contraction lattice (06): what they write (O30). -/

open Sys2Proof Sys2Proof.Machine Sys2Proof.Claims

namespace Sys2Proof.Proofs

/-! ### Indices by axis -/

theorem ix_ext_get {x y : Ix} (h : ∀ a < 4, x.get a = y.get a) : x = y := by
  obtain ⟨_, _, _, _⟩ := x
  obtain ⟨_, _, _, _⟩ := y
  cases h 0 (by decide); cases h 1 (by decide); cases h 2 (by decide); cases h 3 (by decide)
  rfl

theorem get_ofFn (f : Nat → Nat) {a : Nat} (ha : a < 4) : (Ix.ofFn f).get a = f a := by
  match a, ha with
  | 0, _ => rfl
  | 1, _ => rfl
  | 2, _ => rfl
  | 3, _ => rfl

theorem mem_ixsOf_iff_get {m : Nat → Nat} {x : Ix} : x ∈ ixsOf (m 0) (m 1) (m 2) (m 3) ↔ ∀ a < 4, x.get a < m a := by
  rw [mem_ixsOf]
  constructor
  · rintro ⟨h0, h1, h2, h3⟩ a ha
    match a, ha with
    | 0, _ => exact h0
    | 1, _ => exact h1
    | 2, _ => exact h2
    | 3, _ => exact h3
  · exact fun h => ⟨h 0 (by decide), h 1 (by decide), h 2 (by decide), h 3 (by decide)⟩

/-- A tensor of a given shape has that shape's indices. -/
theorem ixs_of_shape {d : Desc} {m : Nat → Nat} (h : d.shape = [0, 1, 2, 3].map m) : d.ixs = ixsOf (m 0) (m 1) (m 2) (m 3) := by
  simp only [Desc.shape, List.map_cons, List.map_nil, List.cons.injEq, and_true] at h
  obtain ⟨h0, h1, h2, h3⟩ := h
  unfold Desc.ixs
  rw [h0, h1, h2, h3]

/-! ### Reduction sets -/

/-- The key of the set that an element belongs to: its index along the axes that stay. -/
def redKeyOf (axes : Nat) (x : Ix) : Ix := Ix.ofFn (fun a => if axisOn axes a then 0 else x.get a)

section

variable {sa : Desc} {axes : Nat} {k x : Ix}

theorem mem_redKeys : k ∈ redKeys sa axes ↔ ∀ a < 4, k.get a < if axisOn axes a then 1 else sa.n a :=
  mem_ixsOf_iff_get (m := fun a => if axisOn axes a then 1 else sa.n a)

theorem mem_redIxs : x ∈ redIxs sa axes k ↔ ∃ r : Ix, (∀ a < 4, r.get a < if axisOn axes a then sa.n a else 1)
    ∧ Ix.ofFn (fun a => if axisOn axes a then r.get a else k.get a) = x := by
  unfold redIxs
  rw [List.mem_map]
  exact exists_congr fun r => and_congr_left fun _ => mem_ixsOf_iff_get (m := fun a => if axisOn axes a then sa.n a else 1)

theorem nodup_redKeys (sa : Desc) (axes : Nat) : (redKeys sa axes).Nodup := nodup_ixsOf _ _ _ _

/-- The elements of a set are different: along an axis that stays there is one position. -/
theorem nodup_redIxs (sa : Desc) (axes : Nat) (k : Ix) : (redIxs sa axes k).Nodup := by
  refine (nodup_ixsOf _ _ _ _).map_on fun r hr r' hr' he => ix_ext_get fun a ha => ?_
  have hlt := mem_ixsOf_iff_get (m := fun a => if axisOn axes a then sa.n a else 1) |>.mp hr a ha
  have hlt' := mem_ixsOf_iff_get (m := fun a => if axisOn axes a then sa.n a else 1) |>.mp hr' a ha
  have hget := congrArg (fun x : Ix => x.get a) he
  simp only [get_ofFn _ ha] at hget
  cases hon : axisOn axes a with
  | true => simpa only [hon, if_true] using hget
  | false =>
    simp only [hon, Bool.false_eq_true, if_false] at hlt hlt'
    omega

/-- An element of a set has the set's key. -/
theorem redKeyOf_of_mem_redIxs (hk : k ∈ redKeys sa axes) (hx : x ∈ redIxs sa axes k) : redKeyOf axes x = k := by
  obtain ⟨r, -, rfl⟩ := mem_redIxs.mp hx
  refine ix_ext_get fun a ha => ?_
  have hlt := mem_redKeys.mp hk a ha
  rw [redKeyOf, get_ofFn _ ha, get_ofFn _ ha]
  cases hon : axisOn axes a with
  | true =>
    simp only [hon, if_true] at hlt ⊢
    omega
  | false => rfl

/-- The elements of a set are elements of the source. -/
theorem mem_ixs_of_mem_redIxs (hk : k ∈ redKeys sa axes) (hx : x ∈ redIxs sa axes k) : x ∈ sa.ixs := by
  obtain ⟨r, hr, rfl⟩ := mem_redIxs.mp hx
  refine mem_ixsOf_iff_get (m := sa.n) |>.mpr fun a ha => ?_
  have hlt := mem_redKeys.mp hk a ha
  have hr := hr a ha
  rw [get_ofFn _ ha]
  cases hon : axisOn axes a with
  | true => simpa only [hon, if_true] using hr
  | false => simpa only [hon, Bool.false_eq_true, if_false] using hlt

end

/-! ### The effects of T.RED, LSE and SMAX -/

/-- The value of each reduction set, at the set's key. -/
def setValues (q : QEntry) (s : State) (value : List (Option Val) → Val) : List (Ix × Val) :=
  (redKeys q.sa (redAxes q.w)).map (fun k => (k, value (s.leaves q (redMask q.w) (redIxs q.sa (redAxes q.w) k))))

/-- The value of each element of the source, set by set. -/
def softValues (q : QEntry) (s : State) : List (Ix × Val) :=
  (redKeys q.sa (redAxes q.w)).flatMap (fun k =>
    (redIxs q.sa (redAxes q.w) k).zip (smaxValues (s.leaves q (redMask q.w) (redIxs q.sa (redAxes q.w) k))).1)

theorem placesElems_tRedRun (q : QEntry) (s : State) :
    PlacesElems q s (tRedRun q s) (setValues q s (fun ls => (redValue q.w ls).1)) := by
  unfold PlacesElems placedElems setValues tRedRun
  simp only [List.filter_map, List.map_map]
  exact ⟨_, _, _, rfl⟩

theorem placesElems_lseRun (q : QEntry) (s : State) :
    PlacesElems q s (lseRun q s) (setValues q s (fun ls => (lseValue (q.w.rnd.toNat = rDN) ls).1)) := by
  unfold PlacesElems placedElems setValues lseRun
  simp only [List.filter_map, List.map_map]
  exact ⟨_, _, _, rfl⟩

theorem placesElems_smaxRun (q : QEntry) (s : State) : PlacesElems q s (smaxRun q s) (softValues q s) := by
  unfold PlacesElems placedElems softValues smaxRun
  simp only [List.flatMap_map, List.map_map]
  exact ⟨_, _, _, rfl⟩

section

variable {known : Bool} {badKind badInt : QEntry → Bool} {q : QEntry} {s : State}

/-- The shape of DST that Tables 5.2 and 5.8 ask for: the source's, or one position along each reduced axis. -/
theorem shape_of_redChk {same : Bool} (h : firstFlt (redChk known same badKind badInt q s) = none) :
    q.dst.shape = [0, 1, 2, 3].map (fun a => if axisOn (redAxes q.w) a && !same then 1 else q.sa.n a) := by
  have hshape := badShape_false_of_firstFlt_none (w := q.w) h fun _ hf => List.mem_append_left _ (List.mem_append_right _ hf)
  simp only [Bool.or_eq_false_iff, decide_eq_false_iff_not, not_not] at hshape
  exact hshape.2

theorem ixs_of_redChk_sets (h : firstFlt (redChk known false badKind badInt q s) = none) :
    q.dst.ixs = redKeys q.sa (redAxes q.w) := by
  rw [ixs_of_shape (shape_of_redChk h)]
  simp [redKeys]

theorem ixs_of_redChk_source (h : firstFlt (redChk known true badKind badInt q s) = none) : q.dst.ixs = q.sa.ixs := by
  rw [ixs_of_shape (shape_of_redChk h)]
  simp [Desc.ixs]

end

theorem leaves_begun (s : State) (w : InsWord) (q : QEntry) (m : Bool) (ids : List Ix) :
    (begun s w).leaves q m ids = s.leaves q m ids := by
  unfold State.leaves State.kept
  simp only [elem_begun]

theorem toInstr_of_tRed {w : InsWord} (h : w.opc = 0x20) : w.toInstr = .tRed w := by
  unfold InsWord.toInstr; simp [h]

theorem toInstr_of_tNorm {w : InsWord} (h : w.opc = 0x21) : w.toInstr = .tNorm w := by
  unfold InsWord.toInstr; simp [h]

theorem toInstr_of_tDot {w : InsWord} (h : w.opc = 0x30) : w.toInstr = .tDot w := by
  unfold InsWord.toInstr; simp [h]

theorem rdn_iff (r : BitVec 3) : decide (r.toNat = rDN) = decide (r = 2) :=
  decide_eq_decide.mpr (by rw [BitVec.toNat_eq]; exact Iff.rfl)

/-- A word has one class. -/
theorem op_of_startsClean {s : State} {w : InsWord} {op op' : TOp} (h : startsClean s w op) (ho : opOf w.toInstr = some op') : op' = op := by
  obtain ⟨⟨-, -, -, hop, -⟩, -⟩ := h
  exact Option.some.inj (ho.symm.trans hop)

section

variable {s : State} {w : InsWord} {op : TOp}

/-- Of a class that writes one value for each reduction set. -/
theorem exec_setValues {srcs outs : QEntry → List Opnd} {run : QEntry → State → State} {chk : QEntry → State → List Flt}
    (hs : startsClean s w (plainOp srcs outs run)) (hc : checksOf w.toInstr = some chk)
    (hixs : (readyEntry s w).dst.ixs = redKeys (readyEntry s w).sa (redAxes w)) (hok : s.memOk = true) (ha : apart (readyEntry s w).dst)
    {value : List (Option Val) → Val}
    (hp : PlacesElems (readyEntry s w) (begun s w) (run (readyEntry s w) (begun s w)) (setValues (readyEntry s w) (begun s w) value)) :
    let q := readyEntry s w
    ∃ t, exec w.toInstr s = .next t ∧ dataFrame s w t [q.oDst] ∧
      ∀ k ∈ redKeys q.sa (redAxes w), (s.getP w.pred.toNat).getLsbD (q.dst.lane k) = true → k ∈ q.dst.ixs →
        t.raw q.dst k = ((begun s w).placeAt q q.dst k (value (s.leaves q (redMask w) (redIxs q.sa (redAxes w) k)))).1 % 2 ^ q.dst.w := by
  intro q
  have hfst : (setValues q (begun s w) value).map Prod.fst = redKeys q.sa (redAxes w) := by
    simp only [setValues, List.map_map, Function.comp_def, List.map_id']
    rfl
  obtain ⟨t, ht, hframe, hraw⟩ := exec_placesElems hs hc hok ha hp (by rw [hfst]; exact nodup_redKeys _ _)
    (fun p hp => by rw [hixs, ← hfst]; exact List.mem_map_of_mem hp)
  refine ⟨t, ht, hframe, fun k hk hg _ => ?_⟩
  rw [← leaves_begun s w]
  exact hraw (k, _) (List.mem_map_of_mem hk) hg

/-- T.RED writes the value of each gated set. -/
theorem exec_tRed (ho : w.opc = 0x20) (hs : startsClean s w op) (hok : s.memOk = true) (ha : apart (readyEntry s w).dst) :
    let q := readyEntry s w
    ∃ t, exec w.toInstr s = .next t ∧ dataFrame s w t [q.oDst] ∧
      ∀ k ∈ redKeys q.sa (redAxes w), (s.getP w.pred.toNat).getLsbD (q.dst.lane k) = true → k ∈ q.dst.ixs →
        t.raw q.dst k = ((begun s w).placeAt q q.dst k
          (redValue w (s.leaves q (redMask w) (redIxs q.sa (redAxes w) k))).1).1 % 2 ^ q.dst.w := by
  have hi := toInstr_of_tRed ho
  obtain rfl : tRedOp = op := op_of_startsClean hs (by rw [hi]; rfl)
  have hc : checksOf w.toInstr = some tRedChk := by rw [hi]; rfl
  have hchk : firstFlt (tRedChk (entryOf s w) s) = none := checks_pass hs hc
  exact exec_setValues (value := fun ls => (redValue w ls).1) hs hc (ixs_of_redChk_sets hchk :) hok ha
    (placesElems_tRedRun (readyEntry s w) (begun s w))

/-- LSE writes the value of each gated set. -/
theorem exec_lse (hi : w.toInstr = .lse w) (hs : startsClean s w op) (hok : s.memOk = true) (ha : apart (readyEntry s w).dst) :
    let q := readyEntry s w
    ∃ t, exec w.toInstr s = .next t ∧ dataFrame s w t [q.oDst] ∧
      ∀ k ∈ redKeys q.sa (redAxes w), (s.getP w.pred.toNat).getLsbD (q.dst.lane k) = true → k ∈ q.dst.ixs →
        t.raw q.dst k = ((begun s w).placeAt q q.dst k
          (lseValue (w.rnd = 2) (s.leaves q (redMask w) (redIxs q.sa (redAxes w) k))).1).1 % 2 ^ q.dst.w := by
  obtain rfl : lseOp = op := op_of_startsClean hs (by rw [hi]; rfl)
  have hc : checksOf w.toInstr = some lseChk := by rw [hi]; rfl
  have hchk : firstFlt (lseChk (entryOf s w) s) = none := checks_pass hs hc
  have hrun := placesElems_lseRun (readyEntry s w) (begun s w)
  rw [rdn_iff] at hrun
  exact exec_setValues (value := fun ls => (lseValue (w.rnd = 2) ls).1) hs hc (ixs_of_redChk_sets hchk :) hok ha hrun

/-- SMAX writes a value for each gated element. -/
theorem exec_smax (hi : w.toInstr = .smax w) (hs : startsClean s w op) (hok : s.memOk = true) (ha : apart (readyEntry s w).dst) :
    let q := readyEntry s w
    ∃ t, exec w.toInstr s = .next t ∧ dataFrame s w t [q.oDst] ∧ ∀ k ∈ redKeys q.sa (redAxes w),
      let ids := redIxs q.sa (redAxes w) k
      ∀ p ∈ ids.zip (smaxValues (s.leaves q (redMask w) ids)).1, (s.getP w.pred.toNat).getLsbD (q.dst.lane p.1) = true →
        t.raw q.dst p.1 = ((begun s w).placeAt q q.dst p.1 p.2).1 % 2 ^ q.dst.w := by
  intro q
  obtain rfl : smaxOp = op := op_of_startsClean hs (by rw [hi]; rfl)
  have hc : checksOf w.toInstr = some smaxChk := by rw [hi]; rfl
  have hchk : firstFlt (smaxChk (entryOf s w) s) = none := checks_pass hs hc
  have hixs : q.dst.ixs = q.sa.ixs := (ixs_of_redChk_source hchk :)
  have hn : ((softValues q (begun s w)).map Prod.fst).Nodup := nodup_flatMap_zip _ (redKeyOf (redAxes w)) (nodup_redKeys _ _)
    (fun k _ => nodup_redIxs _ _ _) (fun k hk x hx => redKeyOf_of_mem_redIxs hk hx)
  have hin : ∀ p ∈ softValues q (begun s w), p.1 ∈ q.dst.ixs := by
    intro p hp
    obtain ⟨k, hk, hp⟩ := List.mem_flatMap.mp hp
    rw [hixs]
    exact mem_ixs_of_mem_redIxs hk (List.of_mem_zip hp).1
  obtain ⟨t, ht, hframe, hraw⟩ := exec_placesElems hs hc hok ha (placesElems_smaxRun q (begun s w)) hn hin
  refine ⟨t, ht, hframe, fun k hk => ?_⟩
  intro ids p hp
  rw [← leaves_begun s w] at hp
  exact hraw p (List.mem_flatMap.mpr ⟨k, hk, hp⟩)

end

/-! ### T.DOT -/

/-- What T.DOT writes into DST. -/
def dotWrites (q : QEntry) (s : State) : List (Ix × Nat) := (gatedIxs q).map (fun x => (x, (s.dotElem q x).1))

theorem writes_dotRun (q : QEntry) (s : State) : Writes q.dst (dotWrites q s) s (dotRun q s) := by
  have h : ∃ bad f, dotRun q s = (s.putElems q.dst (dotWrites q s) bad q.w.poisonOk).flag f := by
    unfold dotRun dotWrites gatedIxs
    simp only [List.map_map]
    exact ⟨_, _, rfl⟩
  obtain ⟨bad, f, e⟩ := h
  rw [e]
  exact (writes_putElems s q.dst _ bad _).flag f

theorem once_dotWrites (q : QEntry) (s : State) : Once q.dst (dotWrites q s) := by
  have hfst : (dotWrites q s).map Prod.fst = gatedIxs q := by simp [dotWrites, Function.comp_def]
  refine ⟨by rw [hfst]; exact (nodup_ixs q.dst).filter _, fun p hp => ?_⟩
  have hp' : p.1 ∈ gatedIxs q := by rw [← hfst]; exact List.mem_map_of_mem hp
  exact (mem_gatedIxs.mp hp').1

theorem dotElem_congr {a b : State} (h : a.sp = b.sp) (q : QEntry) (x : Ix) : a.dotElem q x = b.dotElem q x := by
  unfold State.dotElem State.dotF19 State.dotMXChunk State.elem State.raw
  rw [h]

/-- T.DOT writes each gated element of DST. -/
theorem exec_tDot {s : State} {w : InsWord} {op : TOp} (ho : w.opc = 0x30) (hs : startsClean s w op) (hok : s.memOk = true)
    (ha : apart (readyEntry s w).dst) :
    let q := readyEntry s w
    ∃ t, exec w.toInstr s = .next t ∧ dataFrame s w t [q.oDst] ∧
      ∀ x ∈ q.dst.ixs, (s.getP w.pred.toNat).getLsbD (q.dst.lane x) = true → t.raw q.dst x = (s.dotElem q x).1 % 2 ^ q.dst.w := by
  intro q
  have hi := toInstr_of_tDot ho
  obtain rfl : dotOp = op := op_of_startsClean hs (by rw [hi]; rfl)
  have hc : checksOf w.toInstr = some dotChk := by rw [hi]; rfl
  obtain ⟨t, ht, hframe, hraw⟩ := exec_writes hs hc hok ha (writes_dotRun q (begun s w)) (once_dotWrites q _)
  refine ⟨t, ht, hframe, fun x hx hg => ?_⟩
  rw [← dotElem_congr (begun_sp s w)]
  exact hraw (x, _) (List.mem_map_of_mem (mem_gatedIxs.mpr ⟨hx, hg⟩))

/-! ### T.NORM -/

/-- The elements of DST's row `r`. -/
def rowIxs (q : QEntry) (r : Ix) : List Ix := (List.range (q.dst.n 0)).map (fun i => { r with i0 := i })

/-- The rows of DST, each by its first element. -/
def dstRows (q : QEntry) : List Ix := ixsOf 1 (q.dst.n 1) (q.dst.n 2) (q.dst.n 3)

section

variable {q : QEntry} {r x : Ix}

theorem nodup_rowIxs (q : QEntry) (r : Ix) : (rowIxs q r).Nodup := List.nodup_range.map fun _ _ h => congrArg Ix.i0 h

theorem i0_of_mem_dstRows (h : r ∈ dstRows q) : r.i0 = 0 := Nat.lt_one_iff.mp (mem_ixsOf.mp h).1

/-- An element of a row, with its first coordinate cleared, is the row. -/
theorem row_of_mem_rowIxs (hr : r ∈ dstRows q) (hx : x ∈ rowIxs q r) : ({ x with i0 := 0 } : Ix) = r := by
  obtain ⟨i, -, rfl⟩ := List.mem_map.mp hx
  rw [← i0_of_mem_dstRows hr]

theorem mem_ixs_of_mem_rowIxs (hr : r ∈ dstRows q) (hx : x ∈ rowIxs q r) : x ∈ q.dst.ixs := by
  obtain ⟨i, hi, rfl⟩ := List.mem_map.mp hx
  obtain ⟨-, h1, h2, h3⟩ := mem_ixsOf.mp hr
  exact mem_ixsOf.mpr ⟨List.mem_range.mp hi, h1, h2, h3⟩

theorem row_mem_dstRows (hx : x ∈ q.dst.ixs) : ({ x with i0 := 0 } : Ix) ∈ dstRows q := by
  obtain ⟨-, h1, h2, h3⟩ := mem_ixsOf.mp hx
  exact mem_ixsOf.mpr ⟨Nat.one_pos, h1, h2, h3⟩

end

/-- R217's steps on the row that `x` belongs to. -/
def normRowAt (q : QEntry) (s : State) (x : Ix) : W32 × W32 × List W32 × Fl :=
  normRow (q.w.fn = 0) (leaf32 (ofF32z q.w.ftz q.w.imm32)) ((rowIxs q x).map (fun y => leaf32 (s.elem q.sa false q.w.ftz y)))

/-- A normalised value under gamma and beta (R218). -/
def normScaled (q : QEntry) (s : State) (i : Nat) (u : W32) : Val × Fl :=
  let g := if normGamma q.w then s.elem q.sb false q.w.ftz ⟨i, 0, 0, 0⟩ else Val.ofInt 1
  if normBeta q.w then Val.fma (q.w.rnd.toNat = rDN) (ofF32 u) g (s.elem q.sc false q.w.ftz ⟨i, 0, 0, 0⟩) else (ofF32 u).mul g

/-- The result of T.NORM for each element, row by row. -/
def normValues (q : QEntry) (s : State) : List (Ix × Val) :=
  ((dstRows q).flatMap (fun r => (rowIxs q r).zip (normRowAt q s r).2.2.1)).map (fun p => (p.1, (normScaled q s p.1.i0 p.2).1))

/-- The statistics of each row: mean and reciprocal deviation. -/
def normStatElems (q : QEntry) (s : State) : List (Ix × Nat) :=
  (dstRows q).flatMap (fun r =>
    [({ r with i0 := 0 }, (ftz32 q.w.ftz (normRowAt q s r).1).toNat), ({ r with i0 := 1 }, (normRowAt q s r).2.1.toNat)])

/-- T.NORM without statistics. -/
theorem placesElems_normRun {q : QEntry} (s : State) (h : normStats q.w = false) : PlacesElems q s (normRun q s) (normValues q s) := by
  unfold PlacesElems placedElems normValues normRun normScaled normRowAt rowIxs dstRows
  simp only [h, Bool.false_eq_true, if_false, List.filter_map, List.map_map, List.flatMap_map, Function.comp_def]
  exact ⟨_, _, _, rfl⟩

/-- With statistics it writes them after DST. -/
theorem writes_normRun_stats {q : QEntry} (s : State) (h : normStats q.w = true) :
    ∃ u, Writes q.dst (placedElems q s (normValues q s)) s u ∧ Writes (q.oAux 8 0).d (normStatElems q s) u (normRun q s) := by
  have hrun : ∃ bad badStats f vs, normRun q s = (((s.putElems q.dst (placedElems q s (normValues q s)) bad q.w.poisonOk).putElems
      (q.oAux 8 0).d (normStatElems q s) badStats q.w.poisonOk).flag f).gather q q.dst vs := by
    unfold placedElems normValues normStatElems normRun normScaled normRowAt rowIxs dstRows flushed
    simp only [h, if_true, List.filter_map, List.map_map, List.flatMap_map, Function.comp_def]
    exact ⟨_, _, _, _, rfl⟩
  obtain ⟨bad, badStats, f, vs, e⟩ := hrun
  rw [e]
  exact ⟨_, writes_putElems s q.dst _ bad _, ((writes_putElems _ _ _ badStats _).flag f).gather q q.dst vs⟩

/-- A row has a value for each of its elements. -/
theorem length_normRow (layer : Bool) (eps : W32) (xs : List W32) : (normRow layer eps xs).2.2.1.length = xs.length := by
  unfold normRow
  cases layer <;> simp

theorem normValues_indices (q : QEntry) (s : State) : (normValues q s).map Prod.fst =
    ((dstRows q).flatMap (fun r => (rowIxs q r).zip (normRowAt q s r).2.2.1)).map Prod.fst := by
  simp [normValues, Function.comp_def]

theorem nodup_normValues (q : QEntry) (s : State) : ((normValues q s).map Prod.fst).Nodup := by
  rw [normValues_indices]
  exact nodup_flatMap_zip _ (fun x => { x with i0 := 0 }) (nodup_ixsOf _ _ _ _) (fun r _ => nodup_rowIxs q r)
    (fun r hr x hx => row_of_mem_rowIxs hr hx)

theorem normValues_inside {q : QEntry} {s : State} {p : Ix × Val} (h : p ∈ normValues q s) : p.1 ∈ q.dst.ixs := by
  obtain ⟨y, hy, rfl⟩ := List.mem_map.mp h
  obtain ⟨r, hr, hy⟩ := List.mem_flatMap.mp hy
  exact mem_ixs_of_mem_rowIxs hr (List.of_mem_zip hy).1

/-- The result of an element, from its row. -/
theorem mem_normValues {q : QEntry} (s : State) {x : Ix} (hx : x ∈ q.dst.ixs) :
    (x, (normScaled q s x.i0 ((normRowAt q s x).2.2.1.getD x.i0 0)).1) ∈ normValues q s := by
  have hi : x.i0 < q.dst.n 0 := (mem_ixsOf.mp hx).1
  have hlen : (normRowAt q s x).2.2.1.length = q.dst.n 0 := by
    rw [normRowAt, length_normRow]; simp [rowIxs]
  refine List.mem_map.mpr ⟨(x, (normRowAt q s x).2.2.1.getD x.i0 0), List.mem_flatMap.mpr ⟨_, row_mem_dstRows hx, ?_⟩, rfl⟩
  change _ ∈ (rowIxs q x).zip (normRowAt q s x).2.2.1
  refine List.mem_iff_getElem.mpr ⟨x.i0, by simp [rowIxs, hlen, hi], ?_⟩
  rw [List.getElem_zip, List.getD_eq_getElem _ _ (by rw [hlen]; exact hi)]
  simp [rowIxs]

theorem nodup_normStatElems (q : QEntry) (s : State) : ((normStatElems q s).map Prod.fst).Nodup := by
  refine nodup_flatMap_zip (ids := fun r => [{ r with i0 := 0 }, { r with i0 := 1 }])
    (fun r => [(ftz32 q.w.ftz (normRowAt q s r).1).toNat, (normRowAt q s r).2.1.toNat]) (fun x => { x with i0 := 0 }) (nodup_ixsOf _ _ _ _)
    (fun r _ => by simp) (fun r hr x hx => ?_)
  have h0 := i0_of_mem_dstRows hr
  simp only [List.mem_cons, List.not_mem_nil, or_false] at hx
  obtain rfl | rfl := hx <;> rw [← h0]

theorem normOuts_stats {q : QEntry} (h : normStats q.w = true) : normOuts q = [q.oDst, q.oAux 8 0] := by
  simp [normOuts, when, h]

theorem normStatElems_inside {q : QEntry} {s : State} {p : Ix × Nat} (h : p ∈ normStatElems q s) :
    p.1 ∈ ixsOf 2 (q.dst.n 1) (q.dst.n 2) (q.dst.n 3) := by
  obtain ⟨r, hr, hp⟩ := List.mem_flatMap.mp h
  obtain ⟨-, h1, h2, h3⟩ := mem_ixsOf.mp hr
  simp only [List.mem_cons, List.not_mem_nil, or_false] at hp
  obtain rfl | rfl := hp
  · exact mem_ixsOf.mpr ⟨Nat.two_pos, h1, h2, h3⟩
  · exact mem_ixsOf.mpr ⟨Nat.one_lt_two, h1, h2, h3⟩

/-- What T.NORM's checks say of its statistics: FP32, two for each row (R218). -/
theorem stats_of_normChk {q : QEntry} {s : State} (h : firstFlt (normChk q s) = none) (hst : normStats q.w = true) :
    (q.oAux 8 0).d.fmt = 0 ∧ (q.oAux 8 0).d.ixs = ixsOf 2 (q.dst.n 1) (q.dst.n 2) (q.dst.n 3) := by
  have hshape := badShape_false_of_firstFlt_none (w := q.w) h fun _ hf => List.mem_append_left _ (List.mem_append_right _ hf)
  simp only [hst, Bool.or_eq_false_iff, Bool.true_and, Bool.not_eq_eq_eq_not, Bool.not_false, Bool.and_eq_true,
    decide_eq_true_eq, Desc.sameShape, Desc.shape, List.cons.injEq, and_true] at hshape
  obtain ⟨⟨⟨⟨-, -, h1, h2, h3⟩, -⟩, -⟩, ⟨hf, -⟩, hd⟩ := hshape
  refine ⟨hf, ?_⟩
  rw [h1, h2, h3]
  exact ixs_of_shape (m := fun a => if a = 0 then 2 else q.sa.n a) (by simpa [Desc.shape, QEntry.oAux] using hd)

section

variable {s : State} {w : InsWord} {op : TOp}

/-- R217's steps on a row, as the word and the state before the instruction give them. -/
theorem normRowAt_begun (x : Ix) : normRowAt (readyEntry s w) (begun s w) x =
    normRow (w.fn = 0) (leaf32 (ofF32z w.ftz w.imm32)) ((List.range ((readyEntry s w).dst.n 0)).map
      (fun i => leaf32 (s.elem (readyEntry s w).sa false w.ftz { x with i0 := i }))) := by
  unfold normRowAt rowIxs
  rw [List.map_map]
  simp only [elem_begun]
  rfl

theorem normScaled_begun (i : Nat) (u : W32) : normScaled (readyEntry s w) (begun s w) i u =
    let g := if normGamma w then s.elem (readyEntry s w).sb false w.ftz ⟨i, 0, 0, 0⟩ else Val.ofInt 1
    if normBeta w then Val.fma (w.rnd = 2) (ofF32 u) g (s.elem (readyEntry s w).sc false w.ftz ⟨i, 0, 0, 0⟩) else (ofF32 u).mul g := by
  unfold normScaled
  simp only [elem_begun, rdn_iff]
  rfl

/-- T.NORM writes each gated element. -/
theorem exec_tNorm (ho : w.opc = 0x21) (hst : normStats w = false) (hs : startsClean s w op) (hok : s.memOk = true)
    (ha : apart (readyEntry s w).dst) :
    let q := readyEntry s w
    ∃ t, exec w.toInstr s = .next t ∧ dataFrame s w t [q.oDst] ∧
      ∀ x ∈ q.dst.ixs, (s.getP w.pred.toNat).getLsbD (q.dst.lane x) = true →
        t.raw q.dst x = ((begun s w).placeAt q q.dst x
          (normScaled q (begun s w) x.i0 ((normRowAt q (begun s w) x).2.2.1.getD x.i0 0)).1).1 % 2 ^ q.dst.w := by
  intro q
  have hi := toInstr_of_tNorm ho
  obtain rfl : normOp = op := op_of_startsClean hs (by rw [hi]; rfl)
  have hc : checksOf w.toInstr = some normChk := by rw [hi]; rfl
  obtain ⟨t, ht, hframe, hraw⟩ := exec_placesElems hs hc hok ha (placesElems_normRun (q := q) (begun s w) hst)
    (nodup_normValues q _) (fun p hp => normValues_inside hp)
  exact ⟨t, ht, hframe, fun x hx hg => hraw (x, _) (mem_normValues _ hx) hg⟩

/-- T.NORM with statistics writes those of every row (log 41). -/
theorem exec_tNorm_stats (ho : w.opc = 0x21) (hst : normStats w = true) (hs : startsClean s w op) (hok : s.memOk = true) :
    let q := readyEntry s w
    let st := (q.oAux 8 0).d
    ∃ t, exec w.toInstr s = .next t ∧ dataFrame s w t (normOuts q) ∧
      (apart st → ∀ x ∈ dstRows q, t.raw st { x with i0 := 0 } = (ftz32 w.ftz (normRowAt q (begun s w) x).1).toNat
        ∧ t.raw st { x with i0 := 1 } = (normRowAt q (begun s w) x).2.1.toNat) := by
  intro q st
  have hi := toInstr_of_tNorm ho
  obtain rfl : normOp = op := op_of_startsClean hs (by rw [hi]; rfl)
  have hc : checksOf w.toInstr = some normChk := by rw [hi]; rfl
  have hchk : firstFlt (normChk (entryOf s w) s) = none := checks_pass hs hc
  obtain ⟨hfmt, hixs⟩ : st.fmt = 0 ∧ st.ixs = ixsOf 2 (q.dst.n 1) (q.dst.n 2) (q.dst.n 3) := (stats_of_normChk hchk hst :)
  have hwf : Memory.wf (begun s w).sp.mem = true := memOk_begun hok
  obtain ⟨⟨-, ⟨-, htq⟩, -⟩, -⟩ := id hs
  obtain ⟨u, hdst, hstats⟩ := writes_normRun_stats (q := q) (begun s w) hst
  have hwf_u : Memory.wf u.sp.mem = true := by rw [hdst.mem]; exact putAll_wf hwf _ _
  have houts : normOuts q = [q.oDst, q.oAux 8 0] := normOuts_stats hst
  have honce : Once q.dst (placedElems q (begun s w) (normValues q (begun s w))) :=
    once_placedElems (nodup_normValues q _) (fun p hp => normValues_inside hp)
  have honce_st : Once st (normStatElems q (begun s w)) :=
    ⟨nodup_normStatElems q _, fun p hp => by rw [hixs]; exact normStatElems_inside hp⟩
  refine ⟨_, exec_plainOp hs hc, dataFrame_of_computes htq (hdst.computes.trans hstats.computes) fun a hout => ?_, fun hap x hx => ?_⟩
  · calc (normRun q (begun s w)).sp.mem.read a
        = u.sp.mem.read a := hstats.read_other hwf_u honce_st.inside (hout (q.oAux 8 0) (by rw [houts]; simp))
      _ = (begun s w).sp.mem.read a := hdst.read_other hwf honce.inside (hout q.oDst (by rw [houts]; simp))
      _ = s.sp.mem.read a := congrArg (fun sp : Spad => sp.mem.read a) (begun_sp s w)
  · have hw : st.w = 32 := by unfold Desc.w; rw [hfmt]; rfl
    have hread : ∀ p ∈ normStatElems q (begun s w), (normRun q (begun s w)).raw st p.1 = p.2 % 2 ^ 32 := by
      intro p hp
      rw [← hw]
      exact hstats.raw hwf_u hap honce_st hp
    exact ⟨(hread (_, _) (List.mem_flatMap.mpr ⟨x, hx, List.mem_cons_self⟩)).trans (Nat.mod_eq_of_lt (BitVec.isLt _)),
      (hread (_, _) (List.mem_flatMap.mpr ⟨x, hx, List.mem_cons_of_mem _ List.mem_cons_self⟩)).trans (Nat.mod_eq_of_lt (BitVec.isLt _))⟩

end

/-- Settles O30: each class writes a list of results of DST, each element once; T.NORM's statistics follow DST's elements. -/
theorem reductionsWriteTheirResults : Obligations.ReductionsWriteTheirResults := by
  intro s w op hs hok ha q d b gated
  refine ⟨fun ho => exec_tRed ho hs hok ha, fun hi => exec_lse hi hs hok ha, fun hi => exec_smax hi hs hok ha,
    fun ho => exec_tDot ho hs hok ha, fun ho hst => ?_, fun ho hst => ?_⟩
  · obtain ⟨t, ht, hframe, hraw⟩ := exec_tNorm ho hst hs hok ha
    refine ⟨t, ht, hframe, fun x hx hg => ?_⟩
    have hx := hraw x hx hg
    rw [normRowAt_begun, normScaled_begun] at hx
    exact hx
  · obtain ⟨t, ht, hframe, hraw⟩ := exec_tNorm_stats ho hst hs hok
    refine ⟨t, ht, hframe, fun hap x hx => ?_⟩
    have hx := hraw hap x hx
    rw [normRowAt_begun] at hx
    exact hx

end Sys2Proof.Proofs
end

section
/-! PROOFS. Expert routing (05 R230, R231): counts and positions in one tensor refute O32. -/

open Sys2Proof Sys2Proof.Machine Sys2Proof.Claims

namespace Sys2Proof.Proofs

/-- A PLAIN tensor of 2 rows of 2 INT32 elements at `base` (02 Table 2.4). -/
def intSquare (base : Nat) : BitVec 256 := BitVec.ofNat 256 (base + 11 * 2 ^ 48 + 2 ^ 55 + 2 ^ 57 + 2 ^ 77 + 2 * 2 ^ 137)

/-- A RUNNING job with three such tensors d1 to d3, all of zeros: as SA, the four entries of two tokens go to expert 0. -/
def routingState : State := { State.reset with
  job := { Job.reset with state := 4 }
  sb := { State.reset.sb with d := [(1, intSquare 0x1000), (2, intSquare 0x2000), (3, intSquare 0x3000)] } }

/-- DISPATCH from d2 into d1, with d3 for the counts and d3 for the positions. -/
def routingWord : InsWord :=
  { word 0x22 2 with dst := 1, sa := 2, dfmt := 11, sfmt := 11, imm32 := 2, aux64 := 0x4343 }

/-- The word issues into the empty array and starts at once, with its operands kept apart. -/
theorem startsClean_routingWord : startsClean routingState routingWord dispOp := by
  have hissues : issues routingState := ⟨rfl, rfl, rfl, rfl, rfl⟩
  have hroom : room routingState := by unfold room; decide +kernel
  have hchecks : failing routingState routingWord = none := by decide +kernel
  have hclean : cleanSources routingState routingWord dispOp := by unfold cleanSources; decide +kernel
  have hapart : keepsApart routingState routingWord dispOp := by unfold keepsApart; decide +kernel
  refine ⟨⟨hissues, ⟨rfl, rfl⟩, hroom, rfl, hchecks, rfl, rfl, ?scrub, ?present, ?start, hclean, ?taint⟩, hapart⟩
  all_goals decide +kernel

/-- The positions are written over the counts: the first element holds the first entry's position 0. -/
theorem raw_dispRun_routingWord :
    (dispRun (readyEntry routingState routingWord) (begun routingState routingWord)).raw
      ((readyEntry routingState routingWord).oAux 0 0).d ⟨0, 0, 0, 0⟩ = 0 := by decide +kernel

/-- Refutes O32, by its clause on DISPATCH's counts: where a word names one descriptor for the counts and for the positions, R230 and R231
both allow its shape, `keepsApart` compares no operand with itself, and the positions are written over the counts. Here four entries are
routed to expert 0, and their count reads 0, the first entry's position. -/
theorem not_routingSelectsAndCounts : ¬ Obligations.RoutingSelectsAndCounts := by
  intro h
  obtain ⟨-, -, hdisp⟩ := h routingState routingWord dispOp startsClean_routingWord (by decide +kernel) (by unfold apart; decide +kernel)
  obtain ⟨t, ht, -, -, hcounts, -⟩ := hdisp rfl
  have hexec : exec routingWord.toInstr routingState = .next (dispRun (readyEntry routingState routingWord) (begun routingState routingWord)) :=
    exec_plainOp (chk := dispChk) startsClean_routingWord rfl
  obtain rfl : dispRun (readyEntry routingState routingWord) (begun routingState routingWord) = t :=
    Host.Outcome.next.inj (hexec.symm.trans ht)
  obtain ⟨hrouted, -⟩ := hcounts rfl (by unfold apart; decide +kernel) 0 (by decide +kernel)
  rw [raw_dispRun_routingWord] at hrouted
  exact absurd hrouted (by decide +kernel)

end Sys2Proof.Proofs
end

section
/-! SUPPORT. The start of a T.XPR (07 R273, R284, R300): the ports that sending leaves alone, the row state as rsi names it, and the first
credits of the intake ports. -/

open Sys2Proof Sys2Proof.Machine Sys2Proof.Claims

namespace Sys2Proof.Proofs

/-! ### What sending on one port leaves of the others -/

theorem port_setPort (s : State) (p : Nat) (r : Port) (j : Nat) : (s.setPort p r).port j = if p = j then r else s.port j :=
  AL.getD_put _ _ _ _ _

theorem port_of_ports {a b : State} (h : a.ports = b.ports) (j : Nat) : a.port j = b.port j := by
  unfold State.port; rw [h]

theorem handOver_ports (s : State) (o : Option Nat) (id : Byte) (v : W64) : (s.handOver o id v).ports = s.ports := by
  unfold State.handOver
  dsimp only
  split
  · exact State.traceAt_ports _ _ _ _
  · exact State.traceAt_ports _ _ _ _

/-- A queue item that leaves spends its port's credits and touches no other port. -/
theorem port_sendItem_ne (s : State) {p j : Nat} (h : p ≠ j) (i : TxItem) : (s.sendItem p i).port j = s.port j := by
  have hset : (s.setPort p { s.port p with txCred := (s.port p).txCred - i.msg.cost }).port j = s.port j := by
    rw [port_setPort, if_neg h]
  unfold State.sendItem
  split
  case h_5 => exact (port_of_ports (handOver_ports _ _ _ _) j).trans hset
  case h_6 => dsimp only; split <;> exact hset
  case h_7 => unfold State.cmdResult; dsimp only; split <;> exact hset
  all_goals exact hset

theorem port_flushN_ne (k : Nat) (s : State) {p j : Nat} (h : p ≠ j) : (s.flushN k p).port j = s.port j := by
  induction k generalizing s with
  | zero => rfl
  | succ k ih =>
    simp only [State.flushN]
    split
    · rfl
    · split
      · rfl
      · split
        · rw [ih, port_sendItem_ne _ h, port_setPort, if_neg h]
        · split
          · rfl
          · rw [port_setPort, if_neg h]

theorem port_send_ne (s : State) {p j : Nat} (h : p ≠ j) (o : Option Nat) (m : OutMsg) (r : ReadFor) :
    (s.send p o m r).port j = s.port j := by
  unfold State.send State.flush
  rw [port_flushN_ne _ _ h, port_setPort, if_neg h]

theorem port_sendTensor_ne (s : State) {p j : Nat} (h : p ≠ j) (seq : Nat) (d : Desc) (otag : Byte) :
    (s.sendTensor p seq d otag).port j = s.port j :=
  foldl_keeps (fun u : State => u.port j) _ (fun u _ => port_send_ne u h _ _ _) _ _

theorem sendTensor_sansLink (s : State) (p seq : Nat) (d : Desc) (otag : Byte) : (s.sendTensor p seq d otag).sansLink = s.sansLink :=
  foldl_keeps State.sansLink _ (fun u _ => State.send_sansLink u p _ _ _) _ _

theorem sendCredits_ports (k : Nat) (s : State) (p n : Nat) : (s.sendCredits k p n).ports = s.ports := by
  induction k generalizing s n with
  | zero => rfl
  | succ k ih =>
    cases n with
    | zero => rfl
    | succ n =>
      simp only [State.sendCredits]
      split
      · rfl
      · rw [ih]
        unfold State.sendFree
        split <;> rfl

/-! ### The row state (R300) -/

theorem rowEnt_of_xp {a b : State} (h : a.xp.rows = b.xp.rows) (row : Nat) : a.rowEnt row = b.rowEnt row := by
  unfold State.rowEnt; rw [h]

theorem rowEnt_putRow (s : State) (r : Nat) (e : RowEnt) (row : Nat) : (s.putRow r e).rowEnt row = if r = row then e else s.rowEnt row :=
  AL.getD_put _ _ _ _ _

/-- Entries put in any order, each the one that `F` gives its row. -/
theorem rowEnt_foldl_putRow (F : Nat → RowEnt) (l : List (Nat × RowEnt)) (hF : ∀ p ∈ l, p.2 = F p.1) (s : State) (row : Nat) :
    (l.foldl (fun u p => u.putRow p.1 p.2) s).rowEnt row = if row ∈ l.map Prod.fst then F row else s.rowEnt row := by
  induction l generalizing s with
  | nil => rfl
  | cons p l ih =>
    rw [List.foldl_cons, ih (fun x hx => hF x (List.mem_cons_of_mem p hx)), rowEnt_putRow, hF p List.mem_cons_self]
    by_cases hl : row ∈ l.map Prod.fst
    · simp [hl]
    · by_cases hp : p.1 = row
      · subst hp; simp
      · simp [hl, hp, Ne.symm hp]

/-- Entries of one trow and its mark. -/
def putTrow (u : State) (r : Nat) (bad : Bool) (rows : List (Nat × RowEnt)) : State :=
  (rows.foldl (fun u p => u.putRow p.1 p.2) u).setRowBad r bad

/-- What no entry put touches, a trow put leaves. -/
theorem putTrow_keeps {β : Type} (g : State → β) (hx : ∀ u x, g { u with xp := { u.xp with rows := x } } = g u)
    (hp : ∀ u x, g { u with xp := { u.xp with rowPsn := x } } = g u) (u : State) (r : Nat) (bad : Bool) (rows : List (Nat × RowEnt)) :
    g (putTrow u r bad rows) = g u :=
  (hp _ _).trans (foldl_keeps g (fun (u : State) (p : Nat × RowEnt) => u.putRow p.1 p.2) (fun u _ => hx u _) rows u)

theorem putTrow_sp (u : State) (r : Nat) (bad : Bool) (rows : List (Nat × RowEnt)) : (putTrow u r bad rows).sp = u.sp :=
  putTrow_keeps State.sp (fun _ _ => rfl) (fun _ _ => rfl) u r bad rows

theorem rowEnt_putTrow (F : Nat → RowEnt) (u : State) (r : Nat) (bad : Bool) (rows : List (Nat × RowEnt)) (hF : ∀ p ∈ rows, p.2 = F p.1)
    (row : Nat) : (putTrow u r bad rows).rowEnt row = if row ∈ rows.map Prod.fst then F row else u.rowEnt row :=
  rowEnt_foldl_putRow F rows hF u row

/-- Trows put one after the other, each with its mark. -/
theorem rowEnt_foldl_putTrow {β : Type} (F : Nat → RowEnt) (trow : β → Nat) (bad : β → Bool) (rows : β → List (Nat × RowEnt)) (l : List β)
    (hF : ∀ m ∈ l, ∀ p ∈ rows m, p.2 = F p.1) (s : State) (row : Nat) :
    (l.foldl (fun u m => putTrow u (trow m) (bad m) (rows m)) s).rowEnt row =
      if row ∈ l.flatMap (fun m => (rows m).map Prod.fst) then F row else s.rowEnt row := by
  induction l generalizing s with
  | nil => rfl
  | cons m l ih =>
    rw [List.foldl_cons, ih (fun x hx => hF x (List.mem_cons_of_mem m hx)), rowEnt_putTrow F _ _ _ _ (hF m List.mem_cons_self)]
    by_cases hl : row ∈ l.flatMap (fun m => (rows m).map Prod.fst)
    · simp only [hl, if_true, List.flatMap_cons, List.mem_append, or_true]
    · simp only [hl, if_false, List.flatMap_cons, List.mem_append, or_false]

/-- The 32 rows of each of T trows are the rows below 32 T. -/
theorem mem_flatMap_trows {T row : Nat} : row ∈ (List.range T).flatMap (fun r => (List.range 32).map (fun l => 32 * r + l)) ↔ row < 32 * T := by
  simp only [List.mem_flatMap, List.mem_range, List.mem_map]
  constructor
  · rintro ⟨r, hr, l, hl, rfl⟩; omega
  · intro h; exact ⟨row / 32, by omega, row % 32, by omega, by omega⟩

/-- The state without what the start of a T.XPR can change: what sending a line changes, the row state and the array's registers. -/
def sansExpress (s : State) : State := { s.sansLink with xp := { s.xp with rows := [], rowPsn := [] }, ar := Arith.reset }

theorem sansExpress_of_sansLink {a b : State} (h : a.sansLink = b.sansLink) (hx : a.xp = b.xp) : sansExpress a = sansExpress b := by
  unfold sansExpress; rw [h, hx]

/-- Two folds agree where their steps do on states that the second keeps. -/
theorem foldl_congr_keeps {α β : Type} (P : α → Prop) {f g : α → β → α} (hk : ∀ u x, P u → P (g u x)) (hfg : ∀ u x, P u → f u x = g u x)
    (l : List β) {a : α} (ha : P a) : l.foldl f a = l.foldl g a := by
  induction l generalizing a with
  | nil => rfl
  | cons x l ih => rw [List.foldl_cons, List.foldl_cons, hfg a x ha, ih (hk a x ha)]

/-- The entries of trow `r` as the spill tensor holds them. -/
def spillRows (s : State) (d : Desc) (ftz : Bool) (r : Nat) : List (Nat × RowEnt) :=
  (List.range 32).map (fun l => (32 * r + l, s.spillEnt d ftz r l))

theorem spillEnt_congr {a b : State} (h : a.sp = b.sp) (d : Desc) (ftz : Bool) (r l : Nat) : a.spillEnt d ftz r l = b.spillEnt d ftz r l := by
  unfold State.spillEnt State.spillWord State.raw; rw [h]

theorem spillBad_congr {a b : State} (h : a.sp = b.sp) (d : Desc) (r : Nat) : a.spillBad d r = b.spillBad d r := by
  unfold State.spillBad State.psn; rw [h]

/-- LOAD reads the spill tensor as it stands before it. -/
theorem loadRows_eq (s : State) (d : Desc) (ftz : Bool) (T : Nat) :
    s.loadRows d ftz T = (List.range T).foldl (fun u r => putTrow u r (s.spillBad d r) (spillRows s d ftz r)) s := by
  unfold State.loadRows
  refine foldl_congr_keeps (fun v : State => v.sp = s.sp) (fun v r hv => (putTrow_sp _ _ _ _).trans hv) (fun v r hv => ?_) _ rfl
  unfold putTrow spillRows
  rw [List.foldl_map, spillBad_congr hv]
  generalize List.range 32 = ls
  refine congrArg (State.setRowBad · r (s.spillBad d r)) ?_
  refine foldl_congr_keeps (fun u : State => u.sp = s.sp) (fun u l hu => ?_) (fun u l hu => ?_) ls hv
  · exact hu
  · rw [spillEnt_congr hu]

theorem loadRows_keeps {β : Type} (g : State → β) (hx : ∀ u x, g { u with xp := { u.xp with rows := x } } = g u)
    (hp : ∀ u x, g { u with xp := { u.xp with rowPsn := x } } = g u) (s : State) (d : Desc) (ftz : Bool) (T : Nat) :
    g (s.loadRows d ftz T) = g s := by
  rw [loadRows_eq]
  exact foldl_keeps g (fun u r => putTrow u r (s.spillBad d r) (spillRows s d ftz r)) (fun u r => putTrow_keeps g hx hp u r _ _) _ s

theorem rowEnt_loadRows (s : State) (d : Desc) (ftz : Bool) (T row : Nat) :
    (s.loadRows d ftz T).rowEnt row = if row < 32 * T then s.spillEnt d ftz (row / 32) (row % 32) else s.rowEnt row := by
  have hF : ∀ r ∈ List.range T, ∀ p ∈ spillRows s d ftz r, p.2 = s.spillEnt d ftz (p.1 / 32) (p.1 % 32) := by
    intro r _ p hp
    obtain ⟨l, hl, rfl⟩ := List.mem_map.mp hp
    have hl' := List.mem_range.mp hl
    simp only [show (32 * r + l) / 32 = r by omega, show (32 * r + l) % 32 = l by omega]
  rw [loadRows_eq, rowEnt_foldl_putTrow (fun k => s.spillEnt d ftz (k / 32) (k % 32)) (fun r => r) _ _ _ hF]
  simp only [spillRows, List.map_map, Function.comp_def, mem_flatMap_trows]

theorem get?_filter_key {α : Type} (m : AL α) (f : Nat → Bool) (k : Nat) :
    AL.get? (m.filter (fun p => f p.1)) k = if f k then AL.get? m k else none := by
  induction m with
  | nil => simp [AL.get?]
  | cons p m ih =>
    obtain ⟨x, y⟩ := p
    by_cases hk : x = k
    · subst hk
      cases hf : f x <;> simp [AL.get?, hf, ih]
    · cases hf : f x <;> simp [AL.get?, hf, ih, hk]

theorem rowEnt_initRows (s : State) (T row : Nat) :
    ({ s with xp := s.xp.initRows T } : State).rowEnt row = if row < 32 * T then RowEnt.init else s.rowEnt row := by
  have h := get?_filter_key s.xp.rows (fun k => decide (32 * T ≤ k)) row
  unfold State.rowEnt AL.getD
  rw [show ({ s with xp := s.xp.initRows T } : State).xp.rows = s.xp.rows.filter (fun p => decide (32 * T ≤ p.1)) from rfl, h]
  by_cases hr : row < 32 * T
  · simp [hr, Nat.not_le.mpr hr]
  · simp [hr, Nat.not_lt.mp hr]

/-! ### rsi and the feed (R284, R300) -/

/-- The row state as rsi names it. -/
def rowsOpened (s : State) (q : QEntry) : State :=
  if xpRsi q.w = 0 then { s with xp := s.xp.initRows q.trows }
  else if xpRsi q.w = 1 then s.loadRows q.xSpill.d q.w.ftz q.trows else s

theorem openXpr_eq (s : State) (q : QEntry) : s.openXpr q =
    if xpFeedEn q.w then (rowsOpened s q).sendTensor (xpFeedPort q.w) q.seq q.xFeed.d (xpOtag q.w) else rowsOpened s q := rfl

theorem rowsOpened_sansExpress (s : State) (q : QEntry) : sansExpress (rowsOpened s q) = sansExpress s := by
  unfold rowsOpened
  split
  · rfl
  · split
    · exact loadRows_keeps sansExpress (fun _ _ => rfl) (fun _ _ => rfl) _ _ _ _
    · rfl

theorem rowsOpened_ports (s : State) (q : QEntry) : (rowsOpened s q).ports = s.ports := by
  unfold rowsOpened
  split
  · rfl
  · split
    · exact loadRows_keeps State.ports (fun _ _ => rfl) (fun _ _ => rfl) _ _ _ _
    · rfl

theorem rowEnt_rowsOpened (s : State) (q : QEntry) (row : Nat) : (rowsOpened s q).rowEnt row = beginRow s q row := by
  unfold rowsOpened beginRow
  by_cases hr : row < 32 * q.trows
  · rw [if_neg (Nat.not_le.mpr hr)]
    split
    case isTrue h0 => rw [rowEnt_initRows, if_pos hr, h0]; rfl
    case isFalse h0 =>
      split
      case isTrue h1 => rw [rowEnt_loadRows, if_pos hr, h1]; rfl
      case isFalse h1 => split <;> first | contradiction | rfl
  · rw [if_pos (Nat.not_lt.mp hr)]
    split
    · rw [rowEnt_initRows, if_neg hr]
    · split
      · rw [rowEnt_loadRows, if_neg hr]
      · rfl

theorem openXpr_sansExpress (s : State) (q : QEntry) : sansExpress (s.openXpr q) = sansExpress s := by
  rw [openXpr_eq]
  split
  · refine (sansExpress_of_sansLink (sendTensor_sansLink _ _ _ _ _) ?_).trans (rowsOpened_sansExpress s q)
    exact State.xp_of_sansLink (sendTensor_sansLink _ _ _ _ _)
  · exact rowsOpened_sansExpress s q

theorem rowEnt_openXpr (s : State) (q : QEntry) (row : Nat) : (s.openXpr q).rowEnt row = beginRow s q row := by
  rw [openXpr_eq]
  split
  · rw [rowEnt_of_xp (congrArg Xpr.rows (State.xp_of_sansLink (sendTensor_sansLink _ _ _ _ _))), rowEnt_rowsOpened]
  · exact rowEnt_rowsOpened s q row

/-- The feed leaves by a matrix port. -/
theorem port_openXpr (s : State) (q : QEntry) {j : Nat} (hj : 2 ≤ j) : (s.openXpr q).port j = s.port j := by
  have hfeed : xpFeedPort q.w < 2 := by unfold xpFeedPort bitsOf; exact Nat.mod_lt _ (by decide)
  rw [openXpr_eq]
  split
  · rw [port_sendTensor_ne _ (by omega), port_of_ports (rowsOpened_ports s q)]
  · exact port_of_ports (rowsOpened_ports s q) j

/-! ### Credits of the intake ports (R273) -/

theorem port_grant (s : State) (p n j : Nat) : (s.grant p n).port j =
    if p = j then { s.port p with rxFree := (s.port p).rxFree - n, rxOut := (s.port p).rxOut + n } else s.port j := by
  unfold State.grant State.credits
  rw [port_of_ports (sendCredits_ports _ _ _ _), port_setPort]

theorem grant_sansLink (s : State) (p n : Nat) : (s.grant p n).sansLink = s.sansLink := by
  unfold State.grant; rw [State.credits_sansLink]; rfl

/-- The credits that intake port `i` is granted at first: one for each tile to come, as far as it can hold them. -/
def firstGrant (s : State) (g : XprProg) (i : Nat) : Nat := min (g.left.getD i 0) (s.port (2 + i)).rxFree

theorem grantIntake_first (s : State) {g : XprProg} (hg : g.granted = [0, 0, 0, 0]) : s.grantIntake g =
    ((((s.grant 2 (firstGrant s g 0)).grant 3 (firstGrant s g 1)).grant 4 (firstGrant s g 2)).grant 5 (firstGrant s g 3),
      { g with granted := (List.range 4).map (firstGrant s g) }) := by
  simp [State.grantIntake, show List.range 4 = [0, 1, 2, 3] from rfl, port_grant, hg, firstGrant]

theorem port_grantIntake_first (s : State) {g : XprProg} (hg : g.granted = [0, 0, 0, 0]) {i : Nat} (hi : i < 4) :
    (s.grantIntake g).1.port (2 + i) =
      { s.port (2 + i) with rxFree := (s.port (2 + i)).rxFree - firstGrant s g i, rxOut := (s.port (2 + i)).rxOut + firstGrant s g i } := by
  rw [grantIntake_first s hg]
  match i, hi with
  | 0, _ => simp [port_grant]
  | 1, _ => simp [port_grant]
  | 2, _ => simp [port_grant]
  | 3, _ => simp [port_grant]

theorem grantIntake_first_sansLink (s : State) {g : XprProg} (hg : g.granted = [0, 0, 0, 0]) : (s.grantIntake g).1.sansLink = s.sansLink := by
  rw [grantIntake_first s hg]
  simp only [grant_sansLink]

theorem getD_map_range {f : Nat → Nat} {n i : Nat} (hi : i < n) : ((List.range n).map f).getD i 0 = f i := by
  simp [List.getD, hi]

end Sys2Proof.Proofs
end

section
/-! PROOFS. Express chains (07): the start of STREAM, and MERGE (O35). -/

open Sys2Proof Sys2Proof.Machine Sys2Proof.Claims

namespace Sys2Proof.Proofs

/-! ### The start of STREAM -/

/-- A STREAM as it begins: no tile has come, and no credit is out. -/
def streamProg (q : QEntry) (s : State) : XprProg :=
  ⟨s.freshStream (q.streams.find? (fun x => !x.one)), s.freshStream (q.streams.find? (·.one)), [0, 0, 0, 0],
    (List.range 4).map (fun i => (q.streams.map (fun x => x.onPort i)).sum), [], [], [], s.tickW, s.xp.stall.toNat⟩

/-- The state in which a STREAM grants its first credits. -/
def streamReady (q : QEntry) (s : State) : State :=
  let u := s.openXpr q
  { u.flag (orFlags (q.streams.map (fun x => (u.scaleOf x).2))) with yd := { u.yd with netSent := 0 } }

/-- The state and the STREAM with its first credits out. -/
def streamGranted (q : QEntry) (s : State) : State × XprProg := (streamReady q s).grantIntake (streamProg q (s.openXpr q))

theorem streamRun_eq (q : QEntry) (s : State) :
    streamRun q s = (streamGranted q s).1.setProg q.seq (.xpr (streamGranted q s).2) := rfl

theorem streamGranted_snd (q : QEntry) (s : State) : (streamGranted q s).2 =
    { streamProg q (s.openXpr q) with granted := (List.range 4).map (firstGrant (streamReady q s) (streamProg q (s.openXpr q))) } :=
  congrArg Prod.snd (grantIntake_first _ rfl)

/-- What the start of a STREAM leaves: all but its own program, what credits and the feed change, the row state and the flags. -/
theorem streamGranted_sansExpress (q : QEntry) (s : State) : sansExpress (streamGranted q s).1 = sansExpress s := by
  have hlink : (streamGranted q s).1.sansLink = (streamReady q s).sansLink := grantIntake_first_sansLink _ rfl
  exact (sansExpress_of_sansLink hlink (State.xp_of_sansLink hlink)).trans (openXpr_sansExpress s q)

theorem rowEnt_streamGranted (q : QEntry) (s : State) (row : Nat) : (streamGranted q s).1.rowEnt row = beginRow s q row := by
  have hlink : (streamGranted q s).1.sansLink = (streamReady q s).sansLink := grantIntake_first_sansLink _ rfl
  exact (rowEnt_of_xp (congrArg Xpr.rows (State.xp_of_sansLink hlink)) row).trans (rowEnt_openXpr s q row)

theorem port_streamReady (q : QEntry) (s : State) (i : Nat) : (streamReady q s).port (2 + i) = s.port (2 + i) :=
  port_openXpr s q (Nat.le_add_right 2 i)

theorem left_streamGranted (q : QEntry) (s : State) {i : Nat} (hi : i < 4) :
    (streamGranted q s).2.left.getD i 0 = (q.streams.map (fun x => x.onPort i)).sum := by
  rw [streamGranted_snd]
  exact getD_map_range hi

theorem granted_streamGranted (q : QEntry) (s : State) {i : Nat} (hi : i < 4) :
    (streamGranted q s).2.granted.getD i 0 = min ((streamGranted q s).2.left.getD i 0) (s.port (2 + i)).rxFree := by
  rw [streamGranted_snd, ← port_streamReady q s i]
  exact getD_map_range hi

theorem port_streamGranted (q : QEntry) (s : State) {i : Nat} (hi : i < 4) : (streamGranted q s).1.port (2 + i) =
    { s.port (2 + i) with rxFree := (s.port (2 + i)).rxFree - (streamGranted q s).2.granted.getD i 0,
                          rxOut := (s.port (2 + i)).rxOut + (streamGranted q s).2.granted.getD i 0 } := by
  have h : (streamGranted q s).2.granted.getD i 0 = firstGrant (streamReady q s) (streamProg q (s.openXpr q)) i := by
    rw [streamGranted_snd]
    exact getD_map_range hi
  rw [h, ← port_streamReady q s i]
  exact port_grantIntake_first _ rfl hi

theorem sp_of_sansExpress {a b : State} (h : sansExpress a = sansExpress b) : a.sp = b.sp := by
  have e := congrArg State.sp h; exact e
theorem sb_of_sansExpress {a b : State} (h : sansExpress a = sansExpress b) : a.sb = b.sb := by
  have e := congrArg State.sb h; exact e
theorem job_of_sansExpress {a b : State} (h : sansExpress a = sansExpress b) : a.job = b.job := by
  have e := congrArg State.job h; exact e
theorem fl_of_sansExpress {a b : State} (h : sansExpress a = sansExpress b) : a.fl = b.fl := by
  have e := congrArg State.fl h; exact e
theorem tickW_of_sansExpress {a b : State} (h : sansExpress a = sansExpress b) : a.tickW = b.tickW := by
  have e := congrArg State.tickW h; exact e
theorem stall_of_sansExpress {a b : State} (h : sansExpress a = sansExpress b) : a.xp.stall = b.xp.stall := by
  have e := congrArg (fun u : State => u.xp.stall) h; exact e

/-! ### A T.XPR that starts cleanly -/

section

variable {s : State} {w : InsWord}

theorem begun_port (s : State) (w : InsWord) (j : Nat) : (begun s w).port j = s.port j :=
  port_of_ports (begun_keeps State.ports (fun _ _ => rfl) State.traceAt_ports s w) j

theorem begun_rowEnt (s : State) (w : InsWord) (row : Nat) : (begun s w).rowEnt row = s.rowEnt row :=
  begun_keeps (fun u => u.rowEnt row) (fun _ _ => rfl) (fun _ _ _ _ => rowEnt_of_xp (congrArg Xpr.rows (State.traceAt_xp _ _ _ _)) row) s w

theorem begun_job (s : State) (w : InsWord) : (begun s w).job = s.job := begun_keeps State.job (fun _ _ => rfl) State.traceAt_job s w
theorem begun_tickW (s : State) (w : InsWord) : (begun s w).tickW = s.tickW :=
  congrArg (fun t : Timebase => t.acc.extractLsb' 24 64) (begun_keeps State.tb (fun _ _ => rfl) State.traceAt_tb s w)
theorem begun_stall (s : State) (w : InsWord) : (begun s w).xp.stall = s.xp.stall :=
  congrArg Xpr.stall (begun_keeps State.xp (fun _ _ => rfl) State.traceAt_xp s w)
theorem begun_fl (s : State) (w : InsWord) : (begun s w).fl = [⟨readyEntry s w, s.tickW, none, false, false, [], .idle⟩] := rfl

theorem beginRow_begun (s : State) (w : InsWord) (q : QEntry) (row : Nat) : beginRow (begun s w) q row = beginRow s q row := by
  unfold beginRow State.spillWord
  simp only [begun_rowEnt, raw_begun]

/-- In an empty array no T.XPR before it holds a T.XPR (R280). -/
theorem xpHold_counted (h : s.fl = []) (q : QEntry) : xpHold q (holding (counted s) q) = false := by
  unfold xpHold
  rw [show (holding (counted s) q).fl = s.fl from rfl, h]
  rfl

theorem exec_stream {op : TOp} (h : startsClean s w op) (hi : w.toInstr = .stream w) :
    exec w.toInstr s = .next (streamRun (readyEntry s w) (begun s w)) := by
  obtain rfl : streamOp = op := op_of_startsClean h (by rw [hi]; rfl)
  obtain ⟨⟨-, ⟨hfl, -⟩, -⟩, -⟩ := id h
  exact exec_of_startsClean h (by rw [hi]; rfl) (xpHold_counted hfl _) fun _ _ _ _ => ⟨rfl, rfl⟩

/-- STREAM begins with the row state that rsi names, and grants each intake port a credit for each tile that it can hold. -/
theorem streamRun_starts (s : State) (w : InsWord) :
    let q := readyEntry s w
    let t := streamRun q (begun s w)
    ∃ g, t.fl = [⟨q, s.tickW, none, false, false, [], .xpr g⟩]
      ∧ g.st0.run = 0 ∧ g.st1.run = 0 ∧ g.held = [] ∧ g.waiting = [] ∧ g.lastTick = s.tickW ∧ g.limit = s.xp.stall.toNat
      ∧ (∀ i < 4, g.left.getD i 0 = (q.streams.map (·.onPort i)).sum ∧ g.granted.getD i 0 = min (g.left.getD i 0) (s.port (2 + i)).rxFree
        ∧ (t.port (2 + i)).rxOut = (s.port (2 + i)).rxOut + g.granted.getD i 0
        ∧ (t.port (2 + i)).rxFree = (s.port (2 + i)).rxFree - g.granted.getD i 0)
      ∧ (∀ row, t.rowEnt row = beginRow s q row) ∧ t.sp.mem = s.sp.mem ∧ t.sb = (begun s w).sb ∧ t.job = s.job := by
  intro q t
  have hopen := openXpr_sansExpress (begun s w) q
  have hsans := streamGranted_sansExpress q (begun s w)
  have ht : t = (streamGranted q (begun s w)).1.setProg q.seq (.xpr (streamGranted q (begun s w)).2) := streamRun_eq q _
  have hport : ∀ j, t.port j = (streamGranted q (begun s w)).1.port j := fun j => by
    rw [ht]; exact port_of_ports (State.setProg_ports _ _ _) j
  refine ⟨(streamGranted q (begun s w)).2, ?fl, ?_, ?_, ?_, ?_, ?tick, ?stall,
    fun i hi => ⟨left_streamGranted q _ hi, ?granted, ?out, ?free⟩, fun row => ?row, ?mem, ?sb, ?job⟩
  case fl =>
    rw [ht, State.setProg, State.updInst, fl_of_sansExpress hsans, begun_fl]
    simp [q]
  case tick => rw [streamGranted_snd, ← begun_tickW s w, ← tickW_of_sansExpress hopen]; rfl
  case stall => rw [streamGranted_snd, ← begun_stall s w, ← stall_of_sansExpress hopen]; rfl
  case granted => rw [granted_streamGranted q _ hi, begun_port]
  case out => rw [hport, port_streamGranted q _ hi, begun_port]
  case free => rw [hport, port_streamGranted q _ hi, begun_port]
  case row => rw [ht, rowEnt_of_xp (congrArg Xpr.rows (State.setProg_xp _ _ _)), rowEnt_streamGranted, beginRow_begun]
  case mem => rw [ht, State.setProg_sp, sp_of_sansExpress hsans, begun_sp]
  case sb => rw [ht, State.setProg_sb, sb_of_sansExpress hsans]
  case job => rw [ht, State.setProg_job, job_of_sansExpress hsans, begun_job]
  all_goals rw [streamGranted_snd]; rfl

end

/-! ### MERGE, row by row (R306) -/

theorem xpMerge_of_toInstr {w : InsWord} (h : w.toInstr = .merge w) : xpMerge w = true := by
  unfold InsWord.toInstr at h
  dsimp only at h
  split at h
  case h_26 =>
    split at h
    case isTrue hm => exact decide_eq_true hm
    case isFalse => cases h
  all_goals (repeat' split at h) <;> cases h

/-- The rows of DST in trow `r`. -/
def trowRows (d : Desc) (r : Nat) : List Nat := strided (32 * r) 1 (min 32 (d.n 1 - 32 * r))

theorem mem_trowRows {d : Desc} {r row : Nat} : row ∈ trowRows d r ↔ row / 32 = r ∧ row < d.n 1 := by
  simp only [trowRows, strided, List.mem_map, List.mem_range]
  constructor
  · rintro ⟨i, hi, rfl⟩; omega
  · rintro ⟨h, hr⟩; exact ⟨row % 32, by omega, by omega⟩

/-- The merge of a row: its new entry, the factors of R306, the flags. -/
def mergedRow (q : QEntry) (u : State) (row : Nat) : RowEnt × W32 × W32 × Fl :=
  let in_ := fun k => leaf32 (ofF32z q.w.ftz (u.spillWord q.sb (row / 32) (32 * k + row % 32)))
  mergeRow (u.rowEnt row) (in_ 0) (in_ 1)

/-- The merge of an element. -/
def mergedElem (q : QEntry) (u : State) (x : Ix) : W32 :=
  let r := mergedRow q u x.i1
  let recip := if xpNrm q.w then some (primX .rcp false false r.1.l).1 else none
  (mergeElem (leaf32 (u.elem q.dst false q.w.ftz x)) (leaf32 (u.elem q.sa false q.w.ftz x)) r.2.1 r.2.2.1 recip).1

/-- The elements of a row that PRED gates in. -/
def gatedRow (q : QEntry) (row : Nat) : List Ix := ((List.range (q.dst.n 0)).map (fun c => (⟨c, row, 0, 0⟩ : Ix))).filter (q.gate q.dst)

theorem mergeTrow_rows (q : QEntry) (u : State) (r : Nat) :
    (u.mergeTrow q r).rows = (trowRows q.dst r).map (fun row => (row, (mergedRow q u row).1)) := by
  unfold State.mergeTrow
  dsimp only
  rw [List.map_map]
  refine List.map_congr_left fun row hrow => ?_
  obtain ⟨rfl, -⟩ := mem_trowRows.mp hrow
  rfl

theorem mergeTrow_es (q : QEntry) (u : State) (r : Nat) : (u.mergeTrow q r).es =
    (trowRows q.dst r).flatMap (fun row => (gatedRow q row).map (fun x => (x, (mergedElem q u x).toNat))) := by
  unfold State.mergeTrow
  dsimp only
  rw [List.flatMap_map]
  refine List.flatMap_congr fun row hrow => ?_
  obtain ⟨rfl, -⟩ := mem_trowRows.mp hrow
  rw [List.map_map]
  refine List.map_congr_left fun x hx => ?_
  obtain ⟨hx', -⟩ := List.mem_filter.mp hx
  obtain ⟨c, -, rfl⟩ := List.mem_map.mp hx'
  unfold mergedElem
  cases xpNrm q.w <;> rfl
/-- What MERGE writes into DST: the gated elements of the T trows. -/
def mergeWrites (q : QEntry) (u : State) : List (Ix × Nat) := (List.range q.trows).flatMap (fun r => (u.mergeTrow q r).es)

theorem mem_gatedRow {q : QEntry} {row : Nat} {x : Ix} :
    x ∈ gatedRow q row ↔ x.i0 < q.dst.n 0 ∧ x.i1 = row ∧ x.i2 = 0 ∧ x.i3 = 0 ∧ q.gate q.dst x = true := by
  obtain ⟨i, a, b, c⟩ := x
  simp only [gatedRow, List.mem_filter, List.mem_map, List.mem_range, Ix.mk.injEq]
  constructor
  · rintro ⟨⟨i', hi, rfl, rfl, rfl, rfl⟩, hg⟩
    exact ⟨hi, rfl, rfl, rfl, hg⟩
  · rintro ⟨hi, rfl, rfl, rfl, hg⟩
    exact ⟨⟨i, hi, rfl, rfl, rfl, rfl⟩, hg⟩

theorem nodup_gatedRow (q : QEntry) (row : Nat) : (gatedRow q row).Nodup :=
  (List.nodup_range.map fun _ _ h => congrArg Ix.i0 h).filter _

theorem once_mergeWrites (q : QEntry) (u : State) : Once q.dst (mergeWrites q u) := by
  have hfst : (mergeWrites q u).map Prod.fst = (List.range q.trows).flatMap (fun r => (trowRows q.dst r).flatMap (gatedRow q)) := by
    simp only [mergeWrites, mergeTrow_es, List.map_flatMap, List.map_map, Function.comp_def, List.map_id']
  have hrow : ∀ r, ∀ x ∈ (trowRows q.dst r).flatMap (gatedRow q), x.i1 / 32 = r ∧ x ∈ q.dst.ixs := by
    intro r x hx
    obtain ⟨row, hr, hx⟩ := List.mem_flatMap.mp hx
    obtain ⟨hdiv, hlt⟩ := mem_trowRows.mp hr
    obtain ⟨h0, h1, h2, h3, -⟩ := mem_gatedRow.mp hx
    refine ⟨by rw [h1]; exact hdiv, mem_ixsOf.mpr ⟨h0, by rw [h1]; exact hlt, ?_, ?_⟩⟩
    · rw [h2]; exact dim_pos _ _
    · rw [h3]; exact dim_pos _ _
  constructor
  · rw [hfst]
    refine nodup_flatMap_range (fun x => x.i1 / 32) (fun r => List.nodup_flatMap.mpr ⟨fun row _ => nodup_gatedRow q row, ?_⟩)
      fun r x hx => (hrow r x hx).1
    have hn : (trowRows q.dst r).Nodup := List.nodup_range.map fun i j h => by omega
    refine hn.imp fun hne x ha hb => hne ?_
    obtain ⟨-, h1, -⟩ := mem_gatedRow.mp ha
    obtain ⟨-, h2, -⟩ := mem_gatedRow.mp hb
    exact h1.symm.trans h2
  · intro p hp
    have hp' := List.mem_map_of_mem (f := Prod.fst) hp
    rw [hfst] at hp'
    obtain ⟨r, -, hx⟩ := List.mem_flatMap.mp hp'
    exact (hrow r p.1 hx).2

/-- Each gated element of a row of the T trows is written. -/
theorem mem_mergeWrites {q : QEntry} (u : State) {x : Ix} (ht : x.i1 < 32 * q.trows) (hx : x ∈ q.dst.ixs) (h2 : x.i2 = 0) (h3 : x.i3 = 0)
    (hg : q.gate q.dst x = true) : (x, (mergedElem q u x).toNat) ∈ mergeWrites q u := by
  obtain ⟨h0, h1, -, -⟩ := mem_ixsOf.mp hx
  refine List.mem_flatMap.mpr ⟨x.i1 / 32, List.mem_range.mpr (by omega), ?_⟩
  rw [mergeTrow_es]
  exact List.mem_flatMap.mpr ⟨x.i1, mem_trowRows.mpr ⟨rfl, h1⟩,
    List.mem_map.mpr ⟨x, mem_gatedRow.mpr ⟨h0, rfl, h2, h3, hg⟩, rfl⟩⟩

/-! ### The row state as it is written (R302) -/

/-- The bits of the spill rows, and of LSE2. -/
def spillWrites (q : QEntry) (s : State) : List BitW := (List.range q.trows).flatMap (s.spillBits q.xSpill.d)
def lseWrites (q : QEntry) (s : State) : List BitW :=
  (List.range (q.dst.n 1)).map (fun row => q.xLse.d.bitW ⟨row, 0, 0, 0⟩
    (addX false q.w.ftz (s.rowEnt row).m (primX .log2 false false (s.rowEnt row).l).1).1.toNat)

theorem closeRows_eq (s : State) (q : QEntry) : ∃ b c f, s.closeRows q =
    let u := if xpSpl q.w then s.putLines q.xSpill.d (spillWrites q s) b (fun _ => 0) q.w.poisonOk else s
    if xpFin q.w then (u.putLines q.xLse.d (lseWrites q u) c (fun _ => 0) q.w.poisonOk).flag f else u := by
  unfold State.closeRows
  dsimp only
  simp only [List.map_flatMap, List.map_map, Function.comp_def]
  exact ⟨_, _, _, rfl⟩

/-- The tensors that the row state is written to. -/
def rowOuts (q : QEntry) : List Opnd := (if xpSpl q.w then [q.xSpill] else []) ++ (if xpFin q.w then [q.xLse] else [])

/-- The bits of an element of one of the operands. -/
def ofElement (os : List Opnd) (b : BitW) : Prop := ∃ o ∈ os, ∃ x ∈ o.d.ixs, b.at_ = o.d.bitAddr x ∧ b.width = o.d.w

theorem ofElement_bitW {os : List Opnd} {o : Opnd} (ho : o ∈ os) {x : Ix} (hx : x ∈ o.d.ixs) (v : Nat) : ofElement os (o.d.bitW x v) :=
  ⟨o, ho, x, hx, rfl, rfl⟩

theorem ofElement_spillWrites {q : QEntry} (h0 : 96 ≤ q.xSpill.d.n 0) (h1 : q.trows ≤ q.xSpill.d.n 1) {os : List Opnd} (ho : q.xSpill ∈ os)
    (s : State) {b : BitW} (hb : b ∈ spillWrites q s) : ofElement os b := by
  obtain ⟨r, hr, hb⟩ := List.mem_flatMap.mp hb
  obtain ⟨l, hl, hb⟩ := List.mem_flatMap.mp hb
  have hr' := List.mem_range.mp hr
  have hl' := List.mem_range.mp hl
  have hin : ∀ k < 96, (⟨k, r, 0, 0⟩ : Ix) ∈ q.xSpill.d.ixs := fun k hk =>
    mem_ixsOf.mpr ⟨by dsimp only; omega, by dsimp only; omega, dim_pos _ _, dim_pos _ _⟩
  simp only [List.mem_cons, List.not_mem_nil, or_false] at hb
  obtain rfl | rfl | rfl := hb
  · exact ofElement_bitW ho (hin _ (by omega)) _
  · exact ofElement_bitW ho (hin _ (by omega)) _
  · exact ofElement_bitW ho (hin _ (by omega)) _

theorem ofElement_lseWrites {q : QEntry} (h : q.dst.n 1 ≤ q.xLse.d.n 0) {os : List Opnd} (ho : q.xLse ∈ os) (s : State) {b : BitW}
    (hb : b ∈ lseWrites q s) : ofElement os b := by
  obtain ⟨row, hr, rfl⟩ := List.mem_map.mp hb
  have hr' := List.mem_range.mp hr
  exact ofElement_bitW ho (mem_ixsOf.mpr ⟨by dsimp only; omega, dim_pos _ _, dim_pos _ _, dim_pos _ _⟩) _

/-- What the row state is written to holds all of it (R301, R302). -/
structure RowsFit (q : QEntry) : Prop where
  spill : xpSpl q.w = true → 96 ≤ q.xSpill.d.n 0 ∧ q.trows ≤ q.xSpill.d.n 1
  lse : xpFin q.w = true → q.dst.n 1 ≤ q.xLse.d.n 0

/-- As it completes a T.XPR writes elements of its spill and LSE tensors alone. -/
theorem closeRows_mem {q : QEntry} (h : RowsFit q) (s : State) : ∃ bws : List BitW,
    (s.closeRows q).sp.mem = bws.foldl (fun m b => m.writeBits b.at_ b.width b.val) s.sp.mem ∧ ∀ b ∈ bws, ofElement (rowOuts q) b := by
  obtain ⟨b, c, f, e⟩ := closeRows_eq s q
  have hspill : xpSpl q.w = true → ∀ u, ∀ x ∈ spillWrites q u, ofElement (rowOuts q) x := fun hs u x hx =>
    ofElement_spillWrites (h.spill hs).1 (h.spill hs).2 (by simp [rowOuts, hs]) u hx
  have hlse : xpFin q.w = true → ∀ u, ∀ x ∈ lseWrites q u, ofElement (rowOuts q) x := fun hf u x hx =>
    ofElement_lseWrites (h.lse hf) (by simp [rowOuts, hf]) u hx
  rw [e]
  dsimp only
  split <;> split
  case isTrue.isTrue hf hs =>
    refine ⟨spillWrites q s ++ lseWrites q (s.putLines q.xSpill.d (spillWrites q s) b (fun _ => 0) q.w.poisonOk), ?_,
      fun x hx => (List.mem_append.mp hx).elim (hspill hs s x) (hlse hf _ x)⟩
    rw [State.flag_sp, State.putLines_mem, State.putLines_mem, List.foldl_append]
  case isTrue.isFalse hf hs => exact ⟨lseWrites q s, by rw [State.flag_sp, State.putLines_mem], hlse hf s⟩
  case isFalse.isTrue hf hs => exact ⟨spillWrites q s, State.putLines_mem _ _ _ _ _ _, hspill hs s⟩
  case isFalse.isFalse hf hs => exact ⟨[], rfl, fun x hx => absurd hx List.not_mem_nil⟩

theorem closeRows_sansCompute (s : State) (q : QEntry) : sansCompute (s.closeRows q) = sansCompute s := by
  obtain ⟨b, c, f, e⟩ := closeRows_eq s q
  have hput : ∀ (u : State) d ws bad, sansCompute (u.putLines d ws bad (fun _ => 0) q.w.poisonOk) = sansCompute u := fun u d ws bad =>
    sansCompute_of_sansSpad (State.putLines_sansSpad u d ws bad _ _)
  have hspill : sansCompute (if xpSpl q.w then s.putLines q.xSpill.d (spillWrites q s) b (fun _ => 0) q.w.poisonOk else s) = sansCompute s := by
    split
    · exact hput _ _ _ _
    · rfl
  rw [e]
  dsimp only
  split
  · exact ((computes_flag _ f).rest.trans (hput _ _ _ _)).trans hspill
  · exact hspill

/-! ### The effect of MERGE -/

/-- The state with the new entries of every row. -/
def mergedRows (q : QEntry) (u : State) : State :=
  ((List.range q.trows).map (u.mergeTrow q)).foldl (fun v m => putTrow v m.trow m.bad m.rows) u

theorem mergeRun_eq (q : QEntry) (s : State) : ∃ bad f, mergeRun q s =
    (((mergedRows q (s.openXpr q)).putElems q.dst (mergeWrites q (s.openXpr q)) bad q.w.poisonOk).flag f).closeRows q := by
  have hes : ((List.range q.trows).map ((s.openXpr q).mergeTrow q)).flatMap (·.es) = mergeWrites q (s.openXpr q) := List.flatMap_map ..
  rw [← hes]
  exact ⟨_, _, rfl⟩

theorem mergedRows_keeps {β : Type} (g : State → β) (hx : ∀ u x, g { u with xp := { u.xp with rows := x } } = g u)
    (hp : ∀ u x, g { u with xp := { u.xp with rowPsn := x } } = g u) (q : QEntry) (u : State) : g (mergedRows q u) = g u :=
  foldl_keeps g (fun v (m : Merged) => putTrow v m.trow m.bad m.rows) (fun v _ => putTrow_keeps g hx hp v _ _ _) _ u

theorem rowEnt_mergedRows (q : QEntry) (u : State) (row : Nat) :
    (mergedRows q u).rowEnt row = if row < q.dst.n 1 ∧ row < 32 * q.trows then (mergedRow q u row).1 else u.rowEnt row := by
  have hF : ∀ m ∈ (List.range q.trows).map (u.mergeTrow q), ∀ p ∈ m.rows, p.2 = (mergedRow q u p.1).1 := by
    intro m hm p hp
    obtain ⟨r, -, rfl⟩ := List.mem_map.mp hm
    rw [mergeTrow_rows] at hp
    obtain ⟨k, -, rfl⟩ := List.mem_map.mp hp
    rfl
  have hmem : row ∈ ((List.range q.trows).map (u.mergeTrow q)).flatMap (fun m => m.rows.map Prod.fst) ↔ row < q.dst.n 1 ∧ row < 32 * q.trows := by
    simp only [List.flatMap_map, mergeTrow_rows, List.map_map, Function.comp_def, List.map_id', List.mem_flatMap, List.mem_range,
      mem_trowRows]
    constructor
    · rintro ⟨r, hr, hd, hl⟩; omega
    · rintro ⟨hl, hr⟩; exact ⟨row / 32, by omega, rfl, hl⟩
  unfold mergedRows
  rw [rowEnt_foldl_putTrow (fun k => (mergedRow q u k).1) _ _ _ _ hF]
  simp only [hmem]

/-- What the checks of Table 7.14 say of a MERGE: DST is a valid FP32 matrix, and what the row state is written to holds all of it. -/
structure MergeChecked (q : QEntry) : Prop where
  valid : q.dst.valid = true
  fp32 : q.dst.fmt = 0
  matrix : q.dst.rk = 2
  fit : RowsFit q

theorem streams_of_merge {q : QEntry} (hm : xpMerge q.w = true) : q.streams = [] := by
  unfold QEntry.streams
  simp [hm]

theorem trows_of_merge {q : QEntry} (hm : xpMerge q.w = true) : q.trows = cdiv (q.dst.n 1) 32 := by
  unfold QEntry.trows QEntry.xDests
  simp [hm]

theorem xOuts_of_merge {q : QEntry} (hm : xpMerge q.w = true) : q.xOuts = q.oDst :: rowOuts q := by
  unfold QEntry.xOuts
  rw [streams_of_merge hm]
  simp [hm, rowOuts, QEntry.oDst]

theorem mergeChecked_of_checks {q : QEntry} {s : State} (hm : xpMerge q.w = true) (h : firstFlt (xpChk q s) = none) : MergeChecked q := by
  have hshape := badShape_false_of_firstFlt_none (w := q.w) h (bad := decide (q.w.sfmt ≠ q.sa.format) || decide (q.dst.fmt ≠ 0)
      || decide (1 < q.dst.layout.toNat) || decide (q.dst.rk ≠ 2) || decide (q.sa.fmt ≠ 0) || !q.sa.sameShape q.dst || !spillOk q.sb q.trows)
    fun f hf => by simp only [xpChk, xpMergeChk, hm, if_true, List.mem_append, hf, true_or, or_true]
  have hspill : xpSpl q.w = true → spillOk q.xSpill.d q.trows = true := fun hs => by
    have hu : xpSpillUsed q.w = true := by simp [xpSpillUsed, hs]
    simpa using badShape_false_of_firstFlt_none (w := q.w) h (bad := !spillOk q.xSpill.d q.trows)
      fun f hf => by simp only [xpChk, hu, if_true, List.mem_append, hf, true_or, or_true]
  have hlse : xpFin q.w = true → (decide (q.xLse.d.fmt ≠ 0) || decide (q.xLse.d.rk ≠ 1) || decide (q.xLse.d.n 0 ≠ q.dst.n 1)) = false :=
    fun hf => badShape_false_of_firstFlt_none (w := q.w) h
      fun f hf' => by simp only [xpChk, hf, if_true, List.mem_append, hf', true_or, or_true]
  have hvalid : q.dst.valid = true := by
    by_contra hv
    refine absurd ?_ (not_mem_hoiOrder_of_firstFlt_none h (f := (0x1002, q.w.low64)) ?_)
    · simp [hoiOrder]
    · have hmem : (0x1002, q.w.low64) ∈ s.checkOpnd q.w [.spad] q.oDst := by simp [State.checkOpnd, QEntry.oDst, hv]
      simp only [xpChk, xpMergeChk, hm, if_true, List.mem_append, List.flatMap_cons, hmem, true_or, or_true]
  simp only [Bool.or_eq_false_iff, decide_eq_false_iff_not, not_not] at hshape hlse
  obtain ⟨⟨⟨⟨⟨⟨-, hfmt⟩, -⟩, hrk⟩, -⟩, -⟩, -⟩ := hshape
  refine ⟨hvalid, hfmt, hrk, fun hs => ?_, fun hf => (hlse hf).2.ge⟩
  have hok := hspill hs
  simp only [spillOk, Bool.and_eq_true, decide_eq_true_eq] at hok
  obtain ⟨⟨⟨-, h96⟩, -⟩, hT⟩ := hok
  exact ⟨h96.ge, hT⟩

/-- A valid tensor of rank 2 has one index along each of dimensions 2 and 3 (R53). -/
theorem dims_of_matrix {d : Desc} (hv : d.valid = true) (hr : d.rk = 2) : d.n 2 = 1 ∧ d.n 3 = 1 := by
  simp only [Desc.valid, hr, Bool.and_eq_true, List.all_cons, Bool.or_eq_true, decide_eq_true_eq] at hv
  obtain ⟨⟨⟨-, -, h2, h3, -⟩, -⟩, -⟩ := hv
  exact ⟨(h2.resolve_left (by decide)).1, (h3.resolve_left (by decide)).1⟩

/-- The memory after MERGE: the gated elements of DST, then elements of what the row state is written to. -/
theorem mergeRun_mem {q : QEntry} (h : RowsFit q) (s : State) : ∃ bws : List BitW,
    (mergeRun q s).sp.mem = bws.foldl (fun m b => m.writeBits b.at_ b.width b.val) (putAll s.sp.mem q.dst (mergeWrites q (s.openXpr q)))
      ∧ ∀ b ∈ bws, ofElement (rowOuts q) b := by
  obtain ⟨bad, f, e⟩ := mergeRun_eq q s
  rw [e]
  obtain ⟨bws, hm, hb⟩ := closeRows_mem h
    (((mergedRows q (s.openXpr q)).putElems q.dst (mergeWrites q (s.openXpr q)) bad q.w.poisonOk).flag f)
  refine ⟨bws, hm.trans ?_, hb⟩
  rw [State.flag_sp, putElems_putAll, mergedRows_keeps State.sp (fun _ _ => rfl) (fun _ _ => rfl), sp_of_sansExpress (openXpr_sansExpress s q)]

/-- What a MERGE leaves: all but the scratchpad, what the feed changes, the row state, the flags, and the entry in flight. -/
theorem mergeRun_keeps {β : Type} (g : State → β) (hc : ∀ u, g (sansCompute u) = g u) (hx : ∀ u, g (sansExpress u) = g u)
    (hr : ∀ u x, g { u with xp := { u.xp with rows := x } } = g u) (hp : ∀ u x, g { u with xp := { u.xp with rowPsn := x } } = g u)
    (q : QEntry) (s : State) : g (mergeRun q s) = g s := by
  obtain ⟨bad, f, e⟩ := mergeRun_eq q s
  rw [e, ← hc, closeRows_sansCompute, (computes_flag _ f).rest, (computes_putElems _ _ _ _ _).rest, hc, mergedRows_keeps g hr hp, ← hx,
    openXpr_sansExpress, hx]

theorem rowEnt_mergeRun (q : QEntry) (s : State) (row : Nat) : (mergeRun q s).rowEnt row = (mergedRows q (s.openXpr q)).rowEnt row := by
  obtain ⟨bad, f, e⟩ := mergeRun_eq q s
  have hrow : ∀ u, (sansCompute u).rowEnt row = u.rowEnt row := fun _ => rfl
  rw [e, ← hrow, closeRows_sansCompute, (computes_flag _ f).rest, (computes_putElems _ _ _ _ _).rest, hrow]

section

variable {s : State} {w : InsWord}

theorem exec_merge {op : TOp} (h : startsClean s w op) (hi : w.toInstr = .merge w) :
    exec w.toInstr s = .next (mergeRun (readyEntry s w) (begun s w)) := by
  obtain rfl : mergeOp = op := op_of_startsClean h (by rw [hi]; rfl)
  obtain ⟨⟨-, ⟨hfl, -⟩, -⟩, -⟩ := id h
  exact exec_of_startsClean h (by rw [hi]; rfl) (xpHold_counted hfl _) fun _ _ _ _ => ⟨rfl, rfl⟩

theorem mergeChecked_readyEntry {op : TOp} (h : startsClean s w op) (hi : w.toInstr = .merge w) : MergeChecked (readyEntry s w) := by
  obtain ⟨hv, hf, hr, ⟨hs, hl⟩⟩ := mergeChecked_of_checks (q := entryOf s w) (xpMerge_of_toInstr hi) (checks_pass h (by rw [hi]; rfl))
  exact ⟨hv, hf, hr, ⟨hs, hl⟩⟩

/-- The merge reads the row state as rsi names it, and the tensors as they stood before. -/
theorem mergedRow_opened (q : QEntry) (row : Nat) : mergedRow q ((begun s w).openXpr q) row =
    mergeRow (beginRow s q row) (leaf32 (ofF32z q.w.ftz (s.spillWord q.sb (row / 32) (32 * 0 + row % 32))))
      (leaf32 (ofF32z q.w.ftz (s.spillWord q.sb (row / 32) (32 * 1 + row % 32)))) := by
  unfold mergedRow State.spillWord State.raw
  rw [rowEnt_openXpr, beginRow_begun, sp_of_sansExpress (openXpr_sansExpress _ q), begun_sp]

theorem elem_opened (q : QEntry) (d : Desc) (uns ftz : Bool) (x : Ix) : ((begun s w).openXpr q).elem d uns ftz x = s.elem d uns ftz x := by
  unfold State.elem State.raw
  rw [sp_of_sansExpress (openXpr_sansExpress _ q), begun_sp]

end

/-- Settles O35: the start of STREAM opens the row state and grants the first credits; MERGE writes each row's new entry and each gated
element, and its writes of the row state lie apart from DST. -/
theorem expressStartsAndMerges : Obligations.ExpressStartsAndMerges := by
  intro s w op hc q d
  refine ⟨fun hi => ?_, fun hi hok ha hsa hsb hspl hfin => ?_⟩
  · obtain ⟨g, hg⟩ := streamRun_starts s w
    exact ⟨_, g, exec_stream hc hi, hg⟩
  have hm : xpMerge q.w = true := xpMerge_of_toInstr hi
  obtain ⟨hvalid, hfmt, hrk, hfit⟩ := mergeChecked_readyEntry hc hi
  obtain ⟨hn2, hn3⟩ := dims_of_matrix hvalid hrk
  obtain ⟨bws, hmem, hbws⟩ := mergeRun_mem hfit (begun s w)
  have hwf : Memory.wf s.sp.mem = true := by rw [← begun_sp s w]; exact memOk_begun hok
  have honce := once_mergeWrites q ((begun s w).openXpr q)
  have hT : ∀ row < q.dst.n 1, row < 32 * q.trows := fun row hr => by rw [trows_of_merge hm]; unfold cdiv; omega
  rw [begun_sp] at hmem
  refine ⟨_, exec_merge hc hi, fun a hout => ?frame, ?sb, ?job, fun row hr => ⟨?ent, fun x hx h1 hg => ?raw⟩⟩
  case frame =>
    rw [xOuts_of_merge hm] at hout
    rw [hmem, Mem.read_foldl_writeBits_other (putAll_wf hwf _ _), read_putAll_other hwf]
    · exact fun p hp => hout q.oDst List.mem_cons_self p.1 (honce.inside p hp)
    · intro b hb
      obtain ⟨o, ho, x, hx, hat, hwd⟩ := hbws b hb
      rw [hat, hwd]
      exact hout o (List.mem_cons_of_mem _ ho) x hx
  case sb => exact mergeRun_keeps State.sb (fun _ => rfl) (fun _ => rfl) (fun _ _ => rfl) (fun _ _ => rfl) q _
  case job =>
    exact (mergeRun_keeps State.job (fun _ => rfl) (fun _ => rfl) (fun _ _ => rfl) (fun _ _ => rfl) q _).trans (begun_job s w)
  case ent =>
    rw [rowEnt_mergeRun, rowEnt_mergedRows, if_pos ⟨hr, hT row hr⟩, mergedRow_opened]
    rfl
  case raw =>
    have hw : d.w = 32 := by unfold Desc.w; rw [hfmt]; rfl
    obtain ⟨-, hx1, hx2, hx3⟩ := mem_ixsOf.mp hx
    have hin := mem_mergeWrites (q := q) ((begun s w).openXpr q) (hT _ hx1) hx (Nat.lt_one_iff.mp (hx2.trans_eq hn2))
      (Nat.lt_one_iff.mp (hx3.trans_eq hn3)) hg
    have hsep : ∀ o ∈ rowOuts q, separate d o.d := fun o ho => by
      simp only [rowOuts, List.mem_append, List.mem_ite_nil_right, List.mem_singleton] at ho
      obtain ⟨hs, rfl⟩ | ⟨hf, rfl⟩ := ho
      · exact hspl hs
      · exact hfin hf
    unfold State.raw
    rw [hmem, Mem.readBits_foldl_other (putAll_wf hwf _ _), readBits_putAll hwf ha honce.nodup honce.inside hin, hw,
      Nat.mod_eq_of_lt (BitVec.isLt _), mergedElem, h1, mergedRow_opened, elem_opened, elem_opened]
    · rfl
    · intro b hb
      obtain ⟨o, ho, y, hy, hat, hwd⟩ := hbws b hb
      rw [hat, hwd]
      exact hsep o ho x hx y hy

end Sys2Proof.Proofs
end

section
/-! PROOFS. Express chains (07 R272, R308; 09 R402): a tile of a NET stream that waits for the scrub refutes O36. -/

open Sys2Proof Sys2Proof.Machine Sys2Proof.Claims

namespace Sys2Proof.Proofs

/-- A PLAIN matrix at `base` of `rows` rows of one element, `pitch` words from row to row (02 Table 2.4). -/
def columnWord (base fmt rows pitch : Nat) : BitVec 256 :=
  BitVec.ofNat 256 (base + fmt * 2 ^ 48 + 2 ^ 55 + (rows - 1) * 2 ^ 77 + pitch * 2 ^ 137)

/-- STREAM with one stream of the NET kind: d1 in MXFP8 with scale plane d2, through chain 1 (Tables 7.2 to 7.5). -/
def netStreamWord : InsWord := { word 0x38 0x0C with dst := 1, dfmt := 5, xs := 1, aux64 := 2 * 2 ^ 18 }

/-- A RUNNING job of chip 8. DST is a remote column of two elements; its scale plane has one row, in line 32, and a pitch of a line; chain 1
is one saturating ST of c0; intake port P2 and network port P22 are UP; the scrub runs in group 0 and has passed lines 0 to 32. -/
def scrubbingState : State := { State.reset with
  boot := { Boot.reset with phase := .ready }
  job := { Job.reset with state := 4, chipId := 8, chipValid := true }
  sb := { SigBox.reset with d := [(1, columnWord 0x300B00000000 5 2 1), (2, columnWord 0x1000 13 1 32)] }
  xp := { Xpr.reset with chains := [(16, 0x8400001000000000)] }
  ports := [(2, { Port.down with state := 2, rxOut := 1 }), (22, { Port.down with state := 2, txCred := 64 })]
  sp := { Spad.reset with scrubRun := true, scrubOn := [0], scrubWm := 33 } }

/-- The STREAM before its only tile, whose credit is out on P2. -/
def netStreamProg : XprProg :=
  let fresh : XprStream := ⟨[0, 1, 2, 3], 0, 127, none, [], [], [], []⟩
  ⟨fresh, fresh, [1, 0, 0, 0], [1, 0, 0, 0], [], [], [], 0, 400000⟩

/-- The STREAM in flight. -/
def netStreamFlight : Inflight := ⟨readyEntry scrubbingState netStreamWord, 0, none, false, false, [], .xpr netStreamProg⟩
def netTileState : State := { scrubbingState with fl := [netStreamFlight] }

/-- Its stream. -/
def netStream : XStream :=
  let q := netStreamFlight.q
  ⟨false, 3, ⟨0, 1, q.dst⟩, ⟨1, 0, q.sa⟩, q.oAux 18 4, 1, q.chain0⟩

/-- A tile of zeros. -/
def zeroTile : List W32 := List.replicate 1024 0

theorem streams_netStreamFlight : netStreamFlight.q.streams = [netStream] := rfl

theorem xOuts_netStreamFlight : netStreamFlight.q.xOuts = [netStream.scl] := rfl

/-- The one element of the scale plane lies in line 32, which the scrub has passed. -/
theorem reached_scalePlane : reached netTileState netStream.scl.d := by
  intro x hx l hl hun
  have hix : netStream.scl.d.ixs = [⟨0, 0, 0, 0⟩] := by decide +kernel
  rw [hix, List.mem_singleton] at hx
  have hat : netStream.scl.d.bitAddr x = 32768 := by rw [hx]; decide +kernel
  have hw : netStream.scl.d.w = 8 := by decide +kernel
  obtain ⟨hline, hlo, hhi⟩ := hl
  obtain ⟨-, -, hwm⟩ := hun
  have hwm' : 33 ≤ l / 128 % 32768 := hwm
  omega

/-- Nothing has left by a port, no trigger waits to be handed over, and nothing waits at P22. -/
def nothingSent : Out → Bool
  | .next t => t.out.isEmpty && t.yd.trigs.isEmpty && (t.port 22).txq.isEmpty
  | _ => false

/-- The tile waits: the scale byte of DST's second row lies in line 33, which the scrub has not reached. -/
theorem nothingSent_accTile : nothingSent (exec (.accTile 2 0 zeroTile) netTileState) = true := by decide +kernel

/-- Refutes O36, by its clause on NET streams: it asks `reached` of the elements of the scale plane alone and not, as the clause on SPAD does
with `expressFits`, that the plane holds the byte of every block of DST. Here the plane lacks a row, which R283 forbids, but no hypothesis
does: the tile would write a scale byte in a line that the scrub has not reached, so it waits (R402), and no trigger is on its way. -/
theorem not_accumulatorTilesArrive : ¬ Obligations.AccumulatorTilesArrive := by
  intro h
  obtain ⟨-, -, -, -, -, -, -, hnet, -⟩ := h netTileState 2 0 zeroTile (by decide) (by decide) (by decide +kernel) (by decide +kernel)
    (by unfold attends; decide +kernel) (by unfold onTime; decide +kernel)
  have hmem : netStream ∈ netStreamFlight.q.streams := by rw [streams_netStreamFlight]; exact List.mem_singleton_self _
  obtain ⟨t, ht, -, htrig, -⟩ := hnet netStreamFlight netStreamProg netStream
    ⟨⟨rfl, by decide +kernel, rfl, rfl, by decide +kernel, hmem, 0, by decide +kernel, by decide +kernel⟩, fun o ho => by
      rw [xOuts_netStreamFlight, List.mem_singleton] at ho
      rw [ho]; exact reached_scalePlane⟩
    rfl
    (fun y hy => by
      rw [streams_netStreamFlight, List.mem_singleton] at hy
      rw [hy]; decide +kernel)
    (by unfold apart; decide +kernel) (by decide +kernel) (by decide +kernel) (by decide +kernel)
  have hnone := nothingSent_accTile
  rw [ht] at hnone
  simp only [nothingSent, Bool.and_eq_true, List.isEmpty_iff] at hnone
  obtain ⟨⟨hout, htrigs⟩, hqueue⟩ := hnone
  have hport : (if netTileState.peerDst netStream.d then 30 else xpNport netStreamFlight.q.w) = 22 := by decide +kernel
  rw [hport] at htrig
  obtain ⟨m, hm, -⟩ | ⟨x, hx, -⟩ | ⟨i, hi, -⟩ := htrig
  · simp [newOut, hout] at hm
  · simp [htrigs] at hx
  · simp [queued, hqueue] at hi

end Sys2Proof.Proofs
end
